-- ==== Sys2Proof/Word.lean ====
section
/-!
DEFINITION. Word.lean: the word types of Idern (R10: little-endian, bit 0 the least significant).
-/
namespace Sys2Proof

abbrev Byte := BitVec 8
abbrev W16 := BitVec 16
abbrev W32 := BitVec 32
abbrev W64 := BitVec 64

/-- A 64-byte line (byte i of the line is bits [8i+7:8i], R10). -/
abbrev LineData := BitVec 512

/-- Device physical address, 256 GiB (R119). -/
abbrev Dpa := BitVec 38

/-- Line address L = DPA[37:6] (R232). -/
abbrev LineAddr := BitVec 32

abbrev Pier := Fin 320
abbrev Keystone := Fin 64
abbrev Core := Fin 8
abbrev Ctx := Fin 4096
abbrev Qp := Fin 32768
abbrev Port := Fin 6
abbrev Engine := Fin 64
abbrev Domain := Fin 332
abbrev Channel := Fin 64

end Sys2Proof
end

