-- ==== Sys2Proof/Operand.lean ====
section
/-!
DEFINITION. Operand.lean: the operand types of the commands (Syntax.lean). Each is plain data; each constructor
or field names the thing of the spec it stands for.
-/
namespace Sys2Proof

/-- Fault classes (Table 12-1). -/
inductive FaultClass where
  | ce | uc | ft
deriving DecidableEq, Repr

/-- Weight-side element formats of the array (Tables 2-4, 3-3). -/
inductive WFmt where
  | e2m1 | e3m2 | e2m3 | e4m3 | e5m2 | int8 | lc12 | kvq4 | kvq8
deriving DecidableEq, Repr

/-- Activation-side element formats of the array (Activations at the array input). -/
inductive AFmt where
  | e4m3 | e5m2 | int8
deriving DecidableEq, Repr

/-- The weight record of one array step (R43, R54, R55, R66): element i's field is bits [8i+7:8i] of `elems`;
for LC12 index g (one per four weights) is bits [16g+15:16g]; `scale0`, `scale1` are the two blocks' scales. -/
structure WeightStep where
  fmt    : WFmt
  elems  : BitVec 512
  scale0 : Byte
  scale1 : Byte
deriving DecidableEq, Repr

/-- Where one lane's activation operand of one step lies in scratch (R43): its two E8M0 scales and its 64 element bytes. -/
structure LaneOperand where
  scales : BitVec 19
  elems  : BitVec 19
deriving DecidableEq, Repr

/-- The operand read of one step: the format and the places of the sixteen lanes' operands (R43). -/
structure OperandRead where
  fmt   : AFmt
  lanes : List LaneOperand
deriving DecidableEq, Repr

/-- Who asks for a line of device memory (R113, R123, R130, R202, R234). -/
inductive MemRequester where
  | pierEngine (pier : Pier) (ctx : Ctx)
  | transferEngine (engine : Engine) (ctx : Ctx)
  | keystone (k : Keystone)
  | hostMem
  | hostIo
  | window (ctx : Ctx)
  | service
deriving DecidableEq, Repr

/-- A requester at a home (R233, R234, R244); `service` stands for the bridle and journal staging. -/
inductive Requester where
  | slot (i : Fin 9)
  | engine (e : Engine)
  | pier (p : Pier)
  | hostIo
  | window
  | service
deriving DecidableEq, Repr

/-- Whose copy a snoop is for: an agent's copy of an HDM line, asked by its home, or the device cache's copy of a host line,
asked by the host over CXL.cache (R253, R259). -/
inductive SnpTo where
  | agent (slot : Fin 9)
  | hostLine
deriving DecidableEq, Repr

/-- A stitch of a run that may be of pair scope (R101, R102): its number, and whether the partner's run of the same
coupling tag has joined. -/
structure PairStitch where
  idx : Nat
  joined : Bool
deriving DecidableEq, Repr

/-- How a TTAG leaves quarantine (R304): by its timer, or by the late response. -/
inductive QuarantineEnd where
  | timer (ttag : W16)
  | late (ttag : W16)
deriving DecidableEq, Repr

/-- Host-side events of Table 7-14 and their HOST_RESET code (Table 17-2). -/
inductive HostReset where
  | flr | cxl | hot | perst | drop
deriving DecidableEq, Repr

/-- Status of a PCIe completion for one of Idern's host reads (R222, R224). -/
inductive CplStatus where
  | ok | ur | ca | ep
deriving DecidableEq, Repr

/-- The kind of an access to host memory (R268). -/
inductive AccKind where
  | read | write
deriving DecidableEq, Repr

/-- A memory unit that refreshes by itself or enters self-refresh as a whole (R132, R133): a tier of a vault, or a
sixteenth of a stack (named by its approach pier 256 + 16s + j). -/
inductive RefreshUnit where
  | tier (vault : Fin 256) (tier : Fin 4)
  | sixteenth (n : Fin 64)
deriving DecidableEq, Repr

/-- What one refresh covers (R117, R132): a tier or sixteenth whole, or one bank of a sixteenth, numbered as its row
buffers are (pseudo-channel, bank group and bank, Table 4-2). -/
inductive RefreshTarget where
  | unit (u : RefreshUnit)
  | bank (n : Fin 64) (bank : Fin 64)
deriving DecidableEq, Repr

/-- A refresh, and the temperature that the stack reports with it, where it is read (R117, R132). -/
structure RefreshCmd where
  target : RefreshTarget
  reading : Option Byte
deriving DecidableEq, Repr

/-- What a FENCE or BLKRST acts on (Table 12-5, Table 11-6). -/
inductive Block where
  | domain (d : Domain)
  | port (n : Port)
  | engine (e : Engine)
  | pair
deriving DecidableEq, Repr

/-- The identity behind an access to a saddlebag channel (Table 16-1). -/
inductive SbActor where
  | host
  | core (c : Core)
deriving DecidableEq, Repr

/-- The path of a dictionary request (Table 15-1). -/
inductive DictPath where
  | field
  | bar0 (port : Fin 16)
  | bar2 (qp : Qp)
  | saddlebag (c : Channel)
deriving DecidableEq, Repr

/-- HEALTH BEAT fields (Table 6-8), and for the training handshake the sender's PAIR_MODE (Table 6-12). -/
structure Beat where
  hbSeq : W32
  state : BitVec 8
  role : BitVec 8
  leaving : Bool
  failing : Bool
  live : Bool
  pairEpoch : W32
  freeRecords : W32
  freeLines : W32
  regionLines : W32
  ownSerial : W64
  fencedPiers : W16
  fencedStacks : Byte
  fencedPorts : Byte
deriving DecidableEq, Repr

/-- One cursor entry (Table 6-7). -/
structure CursorEntry where
  handle : W64
  ackedSeq : W32
  deliverCq : W16
  release : Bool
deriving DecidableEq, Repr

/-- The link-layer content of a received viaduct frame (Tables 6-1, 6-2): the SYNC of each block received for it, its number, its ACK, NAK, whether every codeword
decoded and the tag checked, and how many of its messages carry a reserved CLASS or OP (R176). -/
structure ViaFrame where
  syncs : List W16
  frameNum : W64
  ackNum : W64
  nak : Bool
  decodes : Bool
  tagOk : Bool
  reservedMsgs : Nat
deriving DecidableEq, Repr

/-- The link-layer content of a received girth flit (Table 10-1); `protoError` holds when one of its messages breaks
the protocol (girth-protocol row of Table 10-9). -/
structure GirthFlit where
  flitNum : W64
  ackLow : W32
  nak : Bool
  checkOk : Bool
  crClass : Byte
  crCount : W16
  /-- Slots its messages take in classes 1 to 5. -/
  slots : List Nat
  /-- Another error of Table 10-9's girth-protocol row. -/
  protoError : Bool
deriving DecidableEq, Repr

/-- A chiplet's HELLO body (Table 10-7). -/
structure HelloBody where
  version : W16
  vendor : W16
  device : W16
  txnMax : W16
  itemsMax : W16
  caps : Byte
deriving DecidableEq, Repr

/-- One record of the pair key exchange (R344), with the environment's verdicts on what it carries. -/
inductive PairKx where
  | share (nonce : BitVec 256) (pub : BitVec 776)
  | cert (rootOk : Bool) (deployed : Bool) (svn : Byte)
  | sig (valid : Bool)
  | bundle (ctx : Ctx) (state : BitVec 2) (keyId : W32) (modelKey : Nat) (cred : W64) (ownerHash : Nat)
      (hostMem : Bool) (valid : Bool)
  | done
deriving DecidableEq, Repr

/-- One CTL message of the girth key exchange (Table 13-6). -/
inductive GirthKx where
  | nonce (n : BitVec 256)
  | share (p : BitVec 776)
  | ident (keyHash : BitVec 384)
  | sig (valid : Bool)
  | done
deriving DecidableEq, Repr

/-- How an SPDM request reaches the responder: the secured session that carries it, or none (R333, R337). -/
abbrev SessionId := Option (Fin 16)

/-- IDE keys to program (R334, R229, Table 13-5). -/
inductive IdeStream where
  | cxlIo (n : Fin 5)
  | cacheMem
deriving DecidableEq, Repr

/-- An IEEE 1149 instruction (R331, R366). -/
inductive JtagInstr where
  | bypass | idcode | sample | extest | clamp | highz | extestPulse | extestTrain | other (code : Nat)
deriving DecidableEq, Repr

/-- A request Idern does not carry out (Table 7-13). -/
inductive BadRequest where
  | outsideBars | mseClear | tooLong | atomicOp | pasidPrefix | translated | romWrite | vdm0 | vdm1
  | duringReset (isRead : Bool)
deriving DecidableEq, Repr

/-- What a source's pair of a class does (R315, R316): it reports an event, its rails read 00 or 11 for longer than 4 st, or
it returns to 01 (a level source's condition has ended, a broken wire is whole again). -/
inductive PairEvent where
  | event | wireFault | idle
deriving DecidableEq, Repr

/-- CAN error state (Table 12-5 source 2942, CAN_STATUS[17:16]). -/
inductive CanErr where
  | active | passive | busOff
deriving DecidableEq, Repr

/-- MetaValue of a CXL.mem read (R240). -/
inductive MetaValue where
  | i | a | s | noState
deriving DecidableEq, Repr

/-- A CXL.mem request of the host (R240): MemRd or MemRdData, MemWr from a line the host holds in M, any other MemWr, and
MemClnEvct. -/
inductive HostMemReq where
  | rd (state : MetaValue)
  | wrFromM (data : LineData) (poison : Bool)
  | wr (data : LineData) (mask : W64) (poison : Bool)
  | clnEvct
deriving DecidableEq, Repr

/-- What a RAIL_READ returns (Table 14-2). -/
structure RailRead where
  railOk : Byte
  alert : Byte
  code : Byte
  vcoreMv : W16
deriving DecidableEq, Repr

/-- The USDO service asked for (R370, R373); `other` is one that Idern does not implement. -/
inductive UsdoKind where
  | expedited | segmented | other
deriving DecidableEq, Repr

/-- Where a register lies (Table 7-6). -/
inductive RegSpace where
  | config | bar0 | bar2
deriving DecidableEq, Repr

/-- A write of one register that has no row of its own (R12): its offset in its space, byte size and value. -/
structure RegWrite where
  space : RegSpace
  offset : BitVec 27
  size : Nat
  value : W64
deriving DecidableEq, Repr

end Sys2Proof
end

