-- ==== Sys2Proof/Syntax.lean ====
section
/-!
DEFINITION. Syntax.lean: the commands of Idern, one constructor per row of spec/opcode_table.json, in the table's
order. A command is what the outside (host, pins, links, timers and the interior's own completions) makes the block
do in one indivisible step; its operands are what that step is given (notes/assumptions/2.md).
-/
namespace Sys2Proof

inductive Instr where
  /-- PACE_UPDATE (R27: the replica chains' transfer counts over the last 100 ticks (one per chain, sixteen)). -/
  | paceUpdate (counts : List W16)
  /-- PACE_TARGET_WRITE (R29: a write of PACE_TARGET (Table 1-3)). -/
  | paceTargetWrite (value : W32)
  /-- TRIM_INTERVAL (R29: a trim interval begins). -/
  | trimInterval
  /-- TRIM_ACK (R29: in-band interrupt 81h). -/
  | trimAck
  /-- TRIM_REFUSED (R29: in-band interrupt 82h). -/
  | trimRefused
  /-- TRIM_TIMEOUT (R30: the outstanding trim request meets its 20,000th tick). -/
  | trimTimeout
  /-- TRESTLE_DISPATCH (R38: a free core dispatches its next trap or doorbell bit). -/
  | trestleDispatch (core : Core)
  /-- ARRAY_STEP (R44, R45: what stands at the array input; `rowDst` is the scratch offset of the row's sixteen results when the step is the row's last). -/
  | arrayStep (pier : Pier) (weight : Option WeightStep) (operand : Option OperandRead) (rowDst : Option (BitVec 19))
  /-- CODEBOOK_LOAD (R56: a write of a new codebook). -/
  | codebookLoad (pier : Pier) (entries : List W32)
  /-- SKIVE_FRAME_DECODE (R62: one frame of a skive stream at the decoder). -/
  | skiveFrameDecode (pier : Pier) (slot : Fin 16) (stitch : BitVec 16) (header : W32) (scales : List Byte) (payload : List Byte)
  /-- MATVEC (R88: stitch `idx` of run `run`). -/
  | matvec (run : Nat) (idx : Nat)
  /-- MATMUL (R89). -/
  | matmul (run : Nat) (idx : Nat)
  /-- ATTEND (R92). -/
  | attend (run : Nat) (idx : Nat)
  /-- NORM (R94). -/
  | norm (run : Nat) (idx : Nat)
  /-- ELEM (R95). -/
  | elem (run : Nat) (idx : Nat)
  /-- REDUCE (R96: `arrival` holds the orders in which partial values arrive (indices into the pier set), one for each
  element on each combining pier). -/
  | reduce (run : Nat) (idx : Nat) (arrival : List (List Nat))
  /-- ROUTE (R97). -/
  | route (run : Nat) (idx : Nat)
  /-- SAMPLE (R98). -/
  | sample (run : Nat) (idx : Nat)
  /-- GATHER (R99). -/
  | gather (run : Nat) (idx : Nat)
  /-- SCATTER (R100). -/
  | scatter (run : Nat) (idx : Nat)
  /-- OFFLOAD (R104). -/
  | offload (run : Nat) (idx : Nat)
  /-- BARRIER (R101, R102). -/
  | barrier (run : Nat) (stitch : PairStitch)
  /-- WAIT_REREAD (R101: a waiting pier re-reads its signal word). -/
  | waitReread (run : Nat) (stitch : PairStitch)
  /-- SIGNAL (R102). -/
  | signal (run : Nat) (stitch : PairStitch)
  /-- HALT (R87: HALT(run) for an exception of Table 3-7). -/
  | halt (run : Nat) (stitch : W16) (code : Byte) (pier : Pier)
  /-- STITCH_TIMEOUT (R87: STITCH_TIMEOUT ticks without progress). -/
  | stitchTimeout (run : Nat) (idx : Nat) (pier : Pier)
  /-- OFFLOAD_TIMEOUT (R87: an item's deadline passes). -/
  | offloadTimeout (port : Port) (tag : W32)
  /-- RAW_RUN_END (R112). -/
  | rawRunEnd (run : Nat)
  /-- MEMORY_READ (R128: `errs` are the symbol errors the line shows at this read). -/
  | memoryRead (dpa : Dpa) (req : MemRequester) (errs : List (Fin 36 × W16))
  /-- MEMORY_WRITE (R129: bit i of `mask` enables byte i). -/
  | memoryWrite (dpa : Dpa) (req : MemRequester) (data : LineData) (mask : W64) (poison : Bool)
  /-- REGION_VALID_SET (R121: a write of REGION_BASE n with VALID 1). -/
  | regionValidSet (n : Fin 64) (base : W64)
  /-- REGION_VALID_CLEAR (R121). -/
  | regionValidClear (n : Fin 64)
  /-- REGION_LOCK (R122: a write of 1 to REGION_CTL.LOCK). -/
  | regionLock
  /-- MIRROR_REBUILD_END (R125: the rebuild copy in progress completes). -/
  | mirrorRebuildEnd
  /-- PATROL_SCRUB (R131: the scrubber reads the pier's next line). -/
  | patrolScrub (pier : Pier) (errs : List (Fin 36 × W16))
  /-- REFRESH (R132). -/
  | refresh (cmd : RefreshCmd)
  /-- SELF_REFRESH_ENTRY (R133). -/
  | selfRefreshEntry (unit : RefreshUnit)
  /-- SELF_REFRESH_EXIT (R133). -/
  | selfRefreshExit (unit : RefreshUnit)
  /-- SQ_TAIL_WRITE (R210 to R212: `be` says which bytes of SQ_TAIL the write covers). -/
  | sqTailWrite (qp : Qp) (be : BitVec 2) (value : W16)
  /-- SQ_FETCH (R141, R211). -/
  | sqFetch (qp : Qp)
  /-- SUBMIT (R144, R154: the oldest fetched SUBMIT of the queue pair is processed). -/
  | submit (qp : Qp)
  /-- SUSPEND (R157). -/
  | suspend (qp : Qp)
  /-- RESUME (R155). -/
  | resume (qp : Qp)
  /-- CANCEL (R157). -/
  | cancel (qp : Qp)
  /-- QUERY (R148). -/
  | query (qp : Qp)
  /-- SET_PRIORITY (R157). -/
  | setPriority (qp : Qp)
  /-- LOAD_MODEL (R136, R166). -/
  | loadModel (qp : Qp)
  /-- UNLOAD (R109). -/
  | unload (qp : Qp)
  /-- BURNISH (R350). -/
  | burnish (qp : Qp)
  /-- ROTATE_KEY (R348). -/
  | rotateKey (qp : Qp)
  /-- MIGRATE (R277). -/
  | migrate (qp : Qp)
  /-- LONGOP_UNIT (R166: the next unit of the operation; for LOAD_MODEL `chunk` is the chunk's plaintext read from the host and `tagOk` whether its tag checked). -/
  | longopUnit (slot : Fin 1024) (chunk : List Byte) (tagOk : Bool)
  /-- BATCH_BOUNDARY (R156). -/
  | batchBoundary (batch : Fin 1024)
  /-- RECORD_FLUSH (R149). -/
  | recordFlush (record : Fin 262144)
  /-- RECORD_WRITE (R150). -/
  | recordWrite (record : Fin 262144)
  /-- DEADLINE_CHECK (R161). -/
  | deadlineCheck (core : Core)
  /-- KV_SPILL_DONE (R163). -/
  | kvSpillDone (record : Fin 262144) (page : Nat)
  /-- KV_READBACK_DONE (R163). -/
  | kvReadbackDone (record : Fin 262144) (page : Nat) (tagOk : Bool)
  /-- VIADUCT_FRAME (R174). -/
  | viaductFrame (f : ViaFrame)
  /-- FAST_RETRAIN_TIMEOUT (R174). -/
  | fastRetrainTimeout
  /-- TRAIN_STEP_DONE (R175: `reversed` is what step 3 finds). -/
  | trainStepDone (reversed : Bool)
  /-- TRAIN_STEP_TIMEOUT (R175). -/
  | trainStepTimeout
  /-- TRAIN_RESTART (R175). -/
  | trainRestart
  /-- PAIR_KX_RECORD (R344). -/
  | pairKxRecord (r : PairKx)
  /-- JOURNAL_WRITE (R182). -/
  | journalWrite (tag : W32) (joff : W64) (lines : List LineData)
  /-- JOURNAL_ACK (R182). -/
  | journalAck (tag : W32) (status : Byte)
  /-- JOURNAL_IMAGE (R183). -/
  | journalImage (tag : W32) (ctx : Ctx) (chunk : W32) (part : Fin 16) (units : List LineData)
  /-- CURSOR_UPDATE (R182). -/
  | cursorUpdate (entries : List CursorEntry)
  /-- CURSOR_INTERVAL (R182). -/
  | cursorInterval
  /-- WINDOW_READ (R195). -/
  | windowRead (tag : W32) (win : Byte) (ctx : Ctx) (offset : W64) (lines : W16)
  /-- WINDOW_READ_DATA (R195). -/
  | windowReadData (tag : W32) (status : Byte) (lines : List LineData)
  /-- WINDOW_WRITE (R195). -/
  | windowWrite (tag : W32) (win : Byte) (ctx : Ctx) (offset : W64) (firstBe lastBe : W64) (lines : List LineData)
  /-- WINDOW_WRITE_ACK (R195). -/
  | windowWriteAck (tag : W32) (status : Byte)
  /-- TIME_SYNC_INTERVAL (R178). -/
  | timeSyncInterval
  /-- TIME_SYNC (R178). -/
  | timeSync (tSend : W64)
  /-- TS_SLEW (R178). -/
  | tsSlew
  /-- TIME_ECHO (R175). -/
  | timeEcho (tag : W32) (tSend : W64)
  /-- TIME_ECHO_REPLY (R175: `roundTripPs` is the measured round trip less the known turnaround). -/
  | timeEchoReply (tag : W32) (tSend : W64) (roundTripPs : Nat)
  /-- HEARTBEAT_INTERVAL (R177). -/
  | heartbeatInterval
  /-- HEALTH_BEAT (R177, R184: a beat, with the sender's PAIR_MODE, PARTNER_SERIAL and TS_NOW of the handshake exchange). -/
  | healthBeat (b : Beat) (pairMode : Bool) (partnerSerial : W64) (tsNow : W64)
  /-- PRESENCE_LOSS_TIMEOUT (R186). -/
  | presenceLossTimeout
  /-- B_HOLDOFF_EXPIRY (R187). -/
  | bHoldoffExpiry
  /-- FENCE_WAIT_EXPIRY (R188). -/
  | fenceWaitExpiry
  /-- STREAM_TAKEOVER (R188). -/
  | streamTakeover (record : Fin 262144)
  /-- PAIR_WAIT_EXPIRY (R184). -/
  | pairWaitExpiry
  /-- REMIRROR_SLOW (R193). -/
  | remirrorSlow
  /-- PAIR_RELEASE (R191: a write of PAIR_CTL.RELEASE). -/
  | pairRelease
  /-- PAIR_DISCARD (R184: a write of PAIR_CTL.DISCARD). -/
  | pairDiscard
  /-- PB_CTL_WRITE (R196). -/
  | pbCtlWrite (value : W16)
  /-- PRT_PRSNT_N (R196: the debounced level of PRT_PRSNT_N changes). -/
  | prtPrsntN (level : Bool)
  /-- PRT_ATNBTN_N (R196: a debounced press). -/
  | prtAtnbtnN
  /-- LINK_UP (R199). -/
  | linkUp (width : BitVec 4) (speed : BitVec 4) (flit256 : Bool)
  /-- LINK_RETRAIN (R226). -/
  | linkRetrain (ok : Bool)
  /-- LINK_DROP (R226). -/
  | linkDrop
  /-- PERST (R226). -/
  | perst
  /-- HOT_RESET (R226). -/
  | hotReset
  /-- CXL_RESET (R228). -/
  | cxlReset
  /-- FLR (R228). -/
  | flr
  /-- FLR_COMPLETE (R228). -/
  | flrComplete
  /-- BME_CLEAR (R227). -/
  | bmeClear
  /-- BME_SET (R219). -/
  | bmeSet
  /-- D3HOT_ENTRY (R200). -/
  | d3hotEntry
  /-- HDM_COMMIT (R201). -/
  | hdmCommit (n : Fin 4)
  /-- HOST_MEM_ACCESS (R202: a CXL.mem request at a host physical address). -/
  | hostMemAccess (hpa : W64) (req : HostMemReq)
  /-- BICONFLICT (R240: the host reports that its request and a snoop of the line crossed; `tag` is the message's own). -/
  | biconflict (line : LineAddr) (tag : W16)
  /-- BAR4_ACCESS (R209: a read, or a write with its byte enables). -/
  | bar4Access (offset : BitVec 31) (write : Option (LineData × W64))
  /-- UNSUPPORTED_REQUEST (R225). -/
  | unsupportedRequest (r : BadRequest)
  /-- EXPANSION_ROM_READ (R230: `data` is what the flash read port delivers). -/
  | expansionRomRead (offset : BitVec 24) (data : W32)
  /-- FLASH_READ_TIMEOUT (R225). -/
  | flashReadTimeout
  /-- CTX_BIND (R206: a write of CTX_BIND with GO set). -/
  | ctxBind (value : W64)
  /-- CTX_UNBIND (R206: a write of CTX_BIND with UNBIND set). -/
  | ctxUnbind (value : W64)
  /-- BIND_LOCKOUT_EXPIRY (R206). -/
  | bindLockoutExpiry (ctx : Ctx)
  /-- QP_ARM (R207: a write of word 3 with ARM 1). -/
  | qpArm (qp : Qp) (word3 : W64)
  /-- QP_DISARM (R208). -/
  | qpDisarm (qp : Qp)
  /-- QP_DISARM_COMPLETE (R208). -/
  | qpDisarmComplete (qp : Qp)
  /-- CQ_HEAD_WRITE (R215). -/
  | cqHeadWrite (qp : Qp) (be : BitVec 2) (value : W16)
  /-- COMPLETION_WRITE (R214). -/
  | completionWrite (qp : Qp)
  /-- COAL_TIMEOUT (R218). -/
  | coalTimeout (qp : Qp)
  /-- MSIX_UNMASK (R219: one vector's mask, or the function mask, clears). -/
  | msixUnmask (vector : Option (Fin 2048))
  /-- INTX_CLEAR (R219: a W1C write of one 64-bit word of INTX_STATUS). -/
  | intxClear (word : Fin 32) (ones : W64)
  /-- HOST_READ_COMPLETION (R224). -/
  | hostReadCompletion (tag : BitVec 14) (status : CplStatus) (data : List Byte)
  /-- COMPLETION_TIMEOUT (R222). -/
  | completionTimeout (tag : BitVec 14)
  /-- LATE_COMPLETION (R223). -/
  | lateCompletion (tag : BitVec 14)
  /-- TAG_QUARANTINE_EXPIRY (R223). -/
  | tagQuarantineExpiry (tag : BitVec 14)
  /-- IDE_FAILURE (R229). -/
  | ideFailure (stream : IdeStream)
  /-- RD_S (R241). -/
  | rdS (slot : Fin 9) (ctx : Ctx) (line : LineAddr) (txn : BitVec 12)
  /-- RD_X (R241). -/
  | rdX (slot : Fin 9) (ctx : Ctx) (line : LineAddr) (txn : BitVec 12)
  /-- UPG (R241). -/
  | upg (slot : Fin 9) (ctx : Ctx) (line : LineAddr) (txn : BitVec 12)
  /-- RD_CUR (R241). -/
  | rdCur (r : Requester) (ctx : Ctx) (line : LineAddr) (txn : BitVec 12)
  /-- WB (R247). -/
  | wb (slot : Fin 9) (line : LineAddr) (data : LineData) (poison : Bool)
  /-- CEVICT (R241). -/
  | cevict (slot : Fin 9) (line : LineAddr)
  /-- WR_INV (R241). -/
  | wrInv (r : Requester) (ctx : Ctx) (line : LineAddr) (data : LineData) (mask : W64) (poison : Bool) (txn : BitVec 12)
  /-- FLUSH (R241, R217). -/
  | flush (line : LineAddr)
  /-- SNP_S (R259: the snoop reaches the agent). -/
  | snpS (copy : SnpTo) (line : BitVec 46)
  /-- SNP_INV (R259). -/
  | snpInv (copy : SnpTo) (line : BitVec 46)
  /-- SNP_CUR (R259). -/
  | snpCur (copy : SnpTo) (line : BitVec 46)
  /-- SNP_CLEAN (R259). -/
  | snpClean (slot : Fin 9) (line : LineAddr)
  /-- RSP_I (R248). -/
  | rspI (slot : Fin 9) (line : LineAddr)
  /-- RSP_I_WB (R248). -/
  | rspIWb (slot : Fin 9) (line : LineAddr)
  /-- RSP_S (R241). -/
  | rspS (slot : Fin 9) (line : LineAddr) (dirty : Option LineData) (poison : Bool)
  /-- RSP_FWD (R246). -/
  | rspFwd (slot : Fin 9) (line : LineAddr) (data : LineData) (dirty : Bool) (poison : Bool)
  /-- FWD_DATA (R285). -/
  | fwdData (port : Port) (route : W16) (rtxn : W16) (data : LineData) (poison : Bool)
  /-- CMP (R241: the home completes the busy line's request). -/
  | cmp (line : LineAddr)
  /-- GRANT_ACK (R245). -/
  | grantAck (slot : Fin 9) (line : LineAddr)
  /-- GRANT_HOLD_EXPIRY (R245). -/
  | grantHoldExpiry (line : LineAddr)
  /-- WB_ACK (R247). -/
  | wbAck (slot : Fin 9) (line : LineAddr)
  /-- RETRY (R244). -/
  | retry (r : Requester) (line : LineAddr)
  /-- GO_RETRY (R244). -/
  | goRetry (line : LineAddr)
  /-- TRACK_INC (R235). -/
  | trackInc (line : LineAddr)
  /-- TRACK_INC_ACK (R235). -/
  | trackIncAck (line : LineAddr)
  /-- TRACK_DEC (R235). -/
  | trackDec (line : LineAddr)
  /-- HOME_TIMEOUT (R250). -/
  | homeTimeout (slot : Fin 9) (line : LineAddr)
  /-- HOME_MOVE_DONE (R251). -/
  | homeMoveDone (slot : Fin 9) (quarter : Fin 4)
  /-- QMOVE_SWEEP_END (R251). -/
  | qmoveSweepEnd (quarter : Fin 4)
  /-- FORCED_SW_WRITE (R238). -/
  | forcedSwWrite (value : Bool)
  /-- DC_READ (R254: `fill` is what the host answers when a host line misses). -/
  | dcRead (cls : Fin 16) (space : Bool) (line : BitVec 46) (fill : LineData) (fillPoison : Bool)
  /-- DC_STORE (R257). -/
  | dcStore (cls : Fin 16) (space : Bool) (line : BitVec 46) (data : LineData) (mask : W64)
  /-- DC_FENCE (R258). -/
  | dcFence (cls : Fin 16)
  /-- MERGE_TIMEOUT (R257). -/
  | mergeTimeout (slice : Fin 16) (space : Bool) (line : BitVec 46)
  /-- DC_RANGE_INV (R260: a write of DC_RANGE_INV with GO set). -/
  | dcRangeInv (value : W64)
  /-- DC_RANGE_INV_END (R260). -/
  | dcRangeInvEnd
  /-- WALK (R268: the walker takes the engine's next unresolved page; its host reads end by HOST_READ_COMPLETION). -/
  | walk (engine : Engine) (walker : Fin 32)
  /-- ATS_TRANSLATION_COMPLETION (R268). -/
  | atsTranslationCompletion (engine : Engine) (hpa : BitVec 52) (size : BitVec 2) (r w : Bool)
  /-- PRG_RESPONSE (R272, Table 9-8: 0 Success, 1 Invalid Request, 2 Response Failure). -/
  | prgResponse (index : Fin 512) (code : Fin 3)
  /-- PRI_TIMEOUT (R272). -/
  | priTimeout (index : Fin 512)
  /-- PRG_QUARANTINE_EXPIRY (R272). -/
  | prgQuarantineExpiry (index : Fin 512)
  /-- PRI_ENABLE (R272: a write of PRI Enable). -/
  | priEnable (value : Bool)
  /-- ATS_INVALIDATE (R273). -/
  | atsInvalidate (itag : Fin 32) (pasid : BitVec 20) (va : W64) (bytes : Nat) (global : Bool)
  /-- ATS_INVALIDATE_COMPLETION (R273). -/
  | atsInvalidateCompletion (itag : Fin 32)
  /-- TRANSFER_DESCRIPTOR (R270). -/
  | transferDescriptor (engine : Engine) (desc : BitVec 512)
  /-- TRANSFER_CHUNK_END (R270: `data` are the lines read from host memory or from the partner window, where the chunk moves them inward). -/
  | transferChunkEnd (engine : Engine) (data : List LineData)
  /-- HEAT_DECAY (R275). -/
  | heatDecay
  /-- HOT_RING_ENABLE (R276: a write of HOT_CTL with EN 1). -/
  | hotRingEnable (value : W32)
  /-- CTX_ROOT_WRITE (R269). -/
  | ctxRootWrite (ctx : Ctx) (value : W64)
  /-- PTE_FORMAT_VALIDATE (R266: a write of 1 to PTE_FORMAT VALID). -/
  | pteFormatValidate
  /-- GIRTH_FLIT (R281). -/
  | girthFlit (port : Port) (f : GirthFlit)
  /-- GIRTH_KEEPALIVE (R281). -/
  | girthKeepalive (port : Port)
  /-- GIRTH_LINK_IDLE_TIMEOUT (R281). -/
  | girthLinkIdleTimeout (port : Port)
  /-- GIRTH_RETRAIN_END (R281). -/
  | girthRetrainEnd (port : Port) (ok : Bool)
  /-- H_RD (R288: `fill` is the host's answer when the cache misses). -/
  | hRd (port : Port) (txn : BitVec 12) (ctx : Ctx) (line : BitVec 46) (fill : LineData) (fillPoison : Bool)
  /-- H_WR (R288). -/
  | hWr (port : Port) (txn : BitVec 12) (ctx : Ctx) (line : BitVec 46) (data : LineData) (mask : W64)
  /-- OFFLOAD_ITEM_SEND (R289). -/
  | offloadItemSend (port : Port)
  /-- OFFLOAD_CMP (R289). -/
  | offloadCmp (port : Port) (tag : W32) (status : Byte)
  /-- ABORT_DONE (R290). -/
  | abortDone (port : Port) (tag : W32)
  /-- ABORT_TICKS_EXPIRY (R290). -/
  | abortTicksExpiry (port : Port)
  /-- HELLO (R291). -/
  | hello (port : Port) (body : HelloBody)
  /-- CREDIT (R291: initial credits for classes 1 to 5). -/
  | credit (port : Port) (counts : List W16)
  /-- READY (R291). -/
  | ready (port : Port)
  /-- QUIESCE_DONE (R292). -/
  | quiesceDone (port : Port)
  /-- CHIPLET_ERROR (R284). -/
  | chipletError (port : Port) (code : Byte)
  /-- GIRTH_KEY_EXCHANGE (R347). -/
  | girthKeyExchange (port : Port) (m : GirthKx)
  /-- GP_START (R291). -/
  | gpStart (port : Port)
  /-- GP_PWRGD (R291). -/
  | gpPwrgd (port : Port)
  /-- GIRTH_TRAIN_DONE (R291). -/
  | girthTrainDone (port : Port)
  /-- GIRTH_START_TIMEOUT (R291). -/
  | girthStartTimeout (port : Port)
  /-- GP_STOP (R292). -/
  | gpStop (port : Port)
  /-- GP_FENCE (R293). -/
  | gpFence (port : Port)
  /-- GP_PRSNT_N (R292). -/
  | gpPrsntN (port : Port) (level : Bool)
  /-- GIRTH_SWEEP_END (R294). -/
  | girthSweepEnd (port : Port)
  /-- DECK_TIMEOUT (R304: the initiator's request to `dest`; `line` and `write` for a memory access, `resent` where it had been sent before). -/
  | deckTimeout (unit : BitVec 9) (ttag : W16) (dest : BitVec 9) (line : LineAddr) (write resent : Bool)
  /-- TTAG_QUARANTINE_EXPIRY (R304). -/
  | ttagQuarantineExpiry (unit : BitVec 9) (how : QuarantineEnd)
  /-- DOMAIN_OFF (R305: as DECK_TIMEOUT). -/
  | domainOff (unit : BitVec 9) (ttag : W16) (dest : BitVec 9) (line : LineAddr) (write resent : Bool)
  /-- ROUTE_RETIRE (R306). -/
  | routeRetire
  /-- PD_REQ_OFF (R308). -/
  | pdReqOff (d : Domain)
  /-- PD_REQ_ON (R310). -/
  | pdReqOn (d : Domain)
  /-- DOMAIN_POWER_DROP (R308). -/
  | domainPowerDrop (d : Domain)
  /-- DOMAIN_WAKE_END (R310). -/
  | domainWakeEnd (d : Domain)
  /-- JOIN (R312: leaf `leaf` joins operation `op`, whose participants are the leaves `first` to `last`). -/
  | join (op : Nat) (first last leaf : Fin 384)
  /-- BCAST (R312: over the scope that holds both leaves). -/
  | bcast (first : Fin 384) (last : Fin 384) (value : W64)
  /-- AND (R312). -/
  | andOp (op : Nat) (first last leaf : Fin 384) (bit : Bool)
  /-- SNAP (R312). -/
  | snap (op : Nat) (first last leaf : Fin 384)
  /-- RESET (R312). -/
  | resetOp (op : Nat) (first last leaf : Fin 384)
  /-- FAULT_LATCH (R318, R315). -/
  | faultLatch (source : Fin 2944) (cls : FaultClass) (what : PairEvent) (detail : W32)
  /-- FAILING_BEAT_SENT (R322). -/
  | failingBeatSent
  /-- TRAP (R319, R321: core 0's handler takes the next trap). -/
  | trap
  /-- FENCE (R309). -/
  | fence (b : Block) (source : Fin 2944)
  /-- FENCE_DRAIN_TIMEOUT (R309). -/
  | fenceDrainTimeout (d : Domain)
  /-- BLKRST (R414). -/
  | blkrst (b : Block) (source : Fin 2944)
  /-- BLKRST_END (R414). -/
  | blkrstEnd (b : Block)
  /-- BLKRST_TIMEOUT (R414). -/
  | blkrstTimeout (b : Block)
  /-- FENCE_REPLY (R401). -/
  | fenceReply
  /-- FAULT_CLEAR (R325: a W1C write of FS_STS[7:0]). -/
  | faultClear (source : Fin 2944) (ones : Byte)
  /-- FS_CFG_WRITE (R320). -/
  | fsCfgWrite (source : Fin 2944) (value : W64)
  /-- FC_LOCK (R323). -/
  | fcLock
  /-- FS_CFG_SWEEP (R327). -/
  | fsCfgSweep (parityError : Bool)
  /-- SAFE_ENTER (R328). -/
  | safeEnter (cause : BitVec 2)
  /-- GET_VERSION (R333). -/
  | getVersion (session : SessionId)
  /-- GET_CAPABILITIES (R333). -/
  | getCapabilities (session : SessionId)
  /-- NEGOTIATE_ALGORITHMS (R333). -/
  | negotiateAlgorithms (session : SessionId)
  /-- GET_DIGESTS (R333). -/
  | getDigests (session : SessionId)
  /-- GET_CERTIFICATE (R333). -/
  | getCertificate (session : SessionId) (offset length : W16)
  /-- CHALLENGE (R333). -/
  | challenge (session : SessionId) (nonce : BitVec 256)
  /-- GET_MEASUREMENTS (R335: `index` 0 asks the number, FFh all blocks). -/
  | getMeasurements (session : SessionId) (index : Byte) (signed : Bool)
  /-- KEY_EXCHANGE (R334). -/
  | keyExchange (mutualAuth : Bool)
  /-- FINISH (R333: `ok` says the handshake MAC and signature check). -/
  | finish (session : Fin 16) (ok : Bool) (requesterKey : Nat)
  /-- HEARTBEAT (R333). -/
  | heartbeat (session : SessionId)
  /-- KEY_UPDATE (R333). -/
  | keyUpdate (session : SessionId)
  /-- END_SESSION (R334). -/
  | endSession (session : SessionId)
  /-- CHUNK_SEND (R333). -/
  | chunkSend (session : SessionId) (handle : Byte) (seq : W16) (last : Bool) (bytes : List Byte)
  /-- CHUNK_GET (R333). -/
  | chunkGet (session : SessionId) (handle : Byte) (seq : W16)
  /-- ENCAPSULATED_RESPONSE (R333: the answer to the encapsulated GET_DIGESTS or GET_CERTIFICATE). -/
  | encapsulatedResponse (session : Fin 16) (certificate : Bool) (keyHash : Nat)
  /-- IDE_KM (R334). -/
  | ideKm (session : SessionId) (stream : IdeStream) (go : Bool)
  /-- CTX_SELECT (R337). -/
  | ctxSelect (session : SessionId) (context : W16)
  /-- CTX_CREATE (R337). -/
  | ctxCreate (session : SessionId) (context : W16) (allowHost : Bool) (rsv : BitVec 47) (cred : W64)
  /-- KEY_RELEASE (R337). -/
  | keyRelease (session : SessionId) (context : W16) (rsv : W16) (keyId : W32) (modelKey : BitVec 256)
  /-- RETIRE (R337). -/
  | retire (session : SessionId) (serial : W64) (sigOk : Bool)
  /-- CTX_ADMIT_WRITE (R336). -/
  | ctxAdmitWrite (ctx : Ctx) (value : W64)
  /-- POWER_ON (R357). -/
  | powerOn
  /-- MOD_RST_N_FALL (R361). -/
  | modRstNFall
  /-- MOD_RST_N_RISE (R357). -/
  | modRstNRise
  /-- START_STEP_END (R357, R356: the step in progress ends; `rails` is what the RAIL_READ of step 1 returns, `ok` the outcome of the manifest checks in step 2, `failedStacks` of training in step 5, `late` the domains that have not reached ON by the end of step 3). -/
  | startStepEnd (ok : Bool) (rails : RailRead) (failedStacks : BitVec 4) (late : List (Fin 332))
  /-- START_STEP_TIMEOUT (R358). -/
  | startStepTimeout
  /-- STARTUP_DONE (R359). -/
  | startupDone
  /-- RAIL_ALERT (R354: the alert; what the RAIL_READ that answers it returns, or none where its answer has not come). -/
  | railAlert (answer : Option RailRead)
  /-- PM_READ_TIMEOUT (R354). -/
  | pmReadTimeout
  /-- THERMAL_READING (R355: one reading in whole degrees C). -/
  | thermalReading (tj : Int)
  /-- THERMAL_TIMEOUT (R355). -/
  | thermalTimeout
  /-- VCORE_OUT_OF_RANGE (R353). -/
  | vcoreOutOfRange (mv : W16)
  /-- JTAG_INSTRUCTION (R366, R331). -/
  | jtagInstruction (instruction : JtagInstr)
  /-- USDO_UPLOAD_INITIATE (R373, R370: `dest` is the node asked, 0 broadcast). -/
  | usdoUploadInitiate (client : Fin 128) (dest : Byte) (index : W16) (sub : Byte) (kind : UsdoKind)
  /-- USDO_DOWNLOAD_INITIATE (R373, R370: `value` is what the initiate frame carries). -/
  | usdoDownloadInitiate (client : Fin 128) (dest : Byte) (index : W16) (sub : Byte) (kind : UsdoKind) (value : List Byte)
  /-- USDO_SEGMENT (R373). -/
  | usdoSegment (client : Fin 128) (bytes : List Byte) (last : Bool)
  /-- USDO_TIMEOUT (R373). -/
  | usdoTimeout (client : Fin 128)
  /-- CLASSIC_CAN_FRAME (R369). -/
  | classicCanFrame
  /-- NMT_START (R372). -/
  | nmtStart
  /-- NMT_STOP (R372). -/
  | nmtStop
  /-- NMT_PRE_OPERATIONAL (R372). -/
  | nmtPreOperational
  /-- NMT_RESET_NODE (R360). -/
  | nmtResetNode
  /-- NMT_RESET_COMMUNICATION (R372). -/
  | nmtResetCommunication
  /-- LSS_CONFIGURE_NODE_ID (R371). -/
  | lssConfigureNodeId (id : Byte)
  /-- LSS_STORE_CONFIGURATION (R371). -/
  | lssStoreConfiguration
  /-- CAN_HEARTBEAT (R370). -/
  | canHeartbeat
  /-- EMCY_INHIBIT_EXPIRY (R377). -/
  | emcyInhibitExpiry
  /-- DICT_READ (R380: core 1 serves the read request waiting on the path). -/
  | dictRead (path : DictPath)
  /-- DICT_WRITE (R382: core 1 serves the write request waiting on the path). -/
  | dictWrite (path : DictPath)
  /-- SB_GO (R396). -/
  | sbGo (c : Channel) (actor : SbActor) (len : BitVec 5)
  /-- SB_ACK (R397). -/
  | sbAck (c : Channel) (actor : SbActor) (status : Byte) (detail : Byte)
  /-- SB_BIND (R392: a write of SENDER_ID, or of RECEIVER_ID). -/
  | sbBind (c : Channel) (receiver : Bool) (code : Byte)
  /-- SB_LOCK (R393). -/
  | sbLock
  /-- SB_HOST_MASK_WRITE (R398). -/
  | sbHostMaskWrite (value : W32)
  /-- TRACE_RECORD (R406). -/
  | traceRecord (event : Byte) (unit : BitVec 9) (a b : W64)
  /-- TRACE_PORT_SEND (R408). -/
  | tracePortSend
  /-- TRACE_RING_WRITE (R409). -/
  | traceRingWrite
  /-- TRACE_BUF_ENABLE (R409). -/
  | traceBufEnable
  /-- SNAP_GO (R412). -/
  | snapGo
  /-- SNAPSHOT_END (R412). -/
  | snapshotEnd
  /-- REGISTER_WRITE (R12). -/
  | registerWrite (w : RegWrite)
  /-- VIADUCT_FRAME_SEND (R173). -/
  | viaductFrameSend
  /-- CXL_RESET_COMPLETE (R228). -/
  | cxlResetComplete
  /-- PREFILL_RUN_END (R159). -/
  | prefillRunEnd (record : Fin 262144)
  /-- CAN_ERROR_STATE (R324). -/
  | canErrorState (e : CanErr) (tec rxec : Byte)
deriving DecidableEq, Repr

end Sys2Proof
end

