-- ==== Sys2Proof/Decode.lean ====
section
/-!
DEFINITION. Decode.lean: words of the opcode table. The block is commanded by events, not by encoded words: no row of
spec/opcode_table.json gives a bit, so no word spells a command.
-/
namespace Sys2Proof

/-- No row of the table gives bits: every word spells no command. -/
def decodeTableWord (_nbits _w : Nat) : Option Instr := none

end Sys2Proof
end

