-- ==== Sys2Proof/Config.lean ====
section
/-!
DEFINITION. Config.lean: what an implementation fixes (fuses, manifest) and the free values of the model. Each constant
has no body: nothing can evaluate it, so a statement about it holds whatever its value is (notes/assumptions/1.md).
-/
namespace Sys2Proof.Config

/-- A fresh free bit, byte, or word for the n-th value the spec leaves open. -/
opaque freeBit : Nat → Bool
opaque freeByte : Nat → Byte
opaque freeWord : Nat → W32
opaque freeLine : Nat → LineData
opaque freeBits : Nat → (w : Nat) → BitVec w

/-- The i-th byte or word of the n-th open value that takes several. -/
opaque freeByteAt : (n k i : Nat) → Byte
opaque freeWordAt : (n i : Nat) → W32

/-- What a line of zero ciphertext decrypts to under key `key` at a line address (R357, R350). -/
opaque zeroLine : (key : Nat) → (line : Nat) → LineData

/-- What plaintext `d`, encrypted under key `was`, decrypts to under another key `now` (R342). -/
opaque wrongKey : (was now : Nat) → (line : Nat) → LineData → LineData

/-- The stored ciphertext of plaintext `d` under a key at a line address (R342). -/
opaque cipherLine : (key line : Nat) → LineData → LineData

/-- Chunk `chunk` of a sealed image, decrypted under a model key (R135, R136, R338). -/
opaque unsealChunk : (key chunk : Nat) → List Byte → List Byte

/-- Place of a context's working memory: per pier the local base and size, and for a flat offset the DPA
(notes/assumptions/7.md). -/
opaque arenaLocal : (ctx pier : Nat) → Nat
opaque arenaBytes : (ctx pier : Nat) → Nat
opaque arenaSize : (ctx : Nat) → Nat
opaque arenaDpa : (ctx : Nat) → W64 → Dpa

/-- The approximated functions of Table 2-7 inside their domain, before the bound is applied (R71). -/
opaque approx : (fn : Nat) → W32 → W32

/-- LOG of m * 2^-25 for m of 25 bits, before the bound is applied (R71, R74). -/
opaque approxLogU : (m : Nat) → W32

/-- Fuses and manifest values. -/
opaque serial : W64
opaque vendorId : W16
opaque stepping : Byte
/-- The stepping as the text of entry 1009h. -/
opaque steppingText : List Byte
opaque manifestVersion : List Byte
opaque manifestSvn : Byte
opaque subsystem : W32
/-- The manifest carries COMMIT_SVN (R332). -/
opaque commitSvn : Bool

/-- Size of a page-list entry's spilled page on the wire is fixed; its ciphertext is not modelled: a spilled page's
host bytes are free (R343). -/
opaque spillByte : (key slot i : Nat) → Byte

/-- Byte `off` of what a faulted run leaves in a tensor it may have written (R87). -/
opaque scribble : (fresh role off : Nat) → Byte

/-- The copy an agent outside the block (slot `slot`) holds of a line it owns, at moment `now` (R235, R241). -/
opaque agentLine : (slot line now : Nat) → LineData

end Sys2Proof.Config
end

