-- ==== Sys2Proof/State/Common.lean ====
section
/-!
DEFINITION. State/Common.lean: the sparse table that State uses for numbered parts.
-/
namespace Sys2Proof.Machine

/-- A table from numbers to values: keys strictly rising, no entry that holds its key's default
(notes/assumptions/3.md). -/
abbrev Tbl (α : Type) := List (Nat × α)

end Sys2Proof.Machine
end

