-- ==== Sys2Proof/State/Coherence.lean ====
section
/-!
DEFINITION. State/Coherence.lean: keystones, directory, device cache (08_keystones_and_cache.md).
-/
namespace Sys2Proof.Machine

/-- STATE of a directory entry (Table 8-2). -/
inductive DirSt where
  | i | s | fo | x
deriving DecidableEq, Repr

/-- Snoops (Table 8-3). -/
inductive SnpOp where
  | s | inv | cur | clean
deriving DecidableEq, Repr

/-- Back-invalidation snoops of CXL.mem (R240). -/
inductive BiSnp where
  | data | inv | cur
deriving DecidableEq, Repr

/-- A snoop of a home: whether it has gone to the agent, and the tick its answer is due by (R250). -/
structure Snoop where
  slot : Nat
  op : SnpOp
  sent : Bool := false
  deadline : Nat := 0
deriving DecidableEq, Repr

/-- A directory entry (Table 8-2); VALID 0 is an unlisted entry, CHECK a function of the rest. `quarter` is the quarter
of the line's own home, which tells a moved line from one of the quarter that serves it (R251). -/
structure DirEntry where
  valid : Bool := false
  quarter : BitVec 2 := 0
  tag : BitVec 11 := 0
  st : DirSt := .i
  owner : BitVec 4 := 0
  presence : BitVec 16 := 0
deriving DecidableEq, Repr

/-- Requests at a home (Table 8-3). -/
inductive CohReq where
  | rdS | rdX | upg | rdCur
  | wrInv (data : LineData) (mask : W64) (poison : Bool)
  | flush
deriving DecidableEq, Repr

/-- State granted by a CMP (Table 8-4). -/
inductive Grant where
  | none | s | f | e | m
deriving DecidableEq, Repr

/-- Where a transaction stands (R241, R243). -/
inductive TxnPhase where
  /-- Waits for a directory entry, or for its own line to leave a victim slot (R239). -/
  | waiting
  /-- Waits for snoop responses. -/
  | snooping
  /-- Waits for the TRACK_INC acknowledgement (R235). -/
  | tracking
  /-- Everything collected; the CMP can go. -/
  | ready
  /-- CMP sent; waits for GRANT_ACK. -/
  | granted
deriving DecidableEq, Repr

/-- A busy line's transaction at its home (R243). -/
structure Txn where
  line : LineAddr
  requester : Requester
  req : CohReq
  ctx : Nat
  txn : BitVec 12
  /-- Directory state when the request was accepted. -/
  before : DirEntry
  /-- The line's track count already includes it (R235). -/
  counted : Bool := false
  /-- The entry failed its check: every slot is invalidated before the request is served (R236). -/
  unknown : Bool := false
  /-- Snoops not yet answered. -/
  awaiting : List Snoop
  /-- Slots that answered RSP_I_WB and whose WB has not come yet (R248). -/
  awaitWb : List Nat := []
  /-- Data collected from an owner, forwarder or eviction buffer: data, dirty, poison. -/
  data : Option (LineData × Bool × Bool)
  /-- The owner answered that it holds nothing (RSP_I). -/
  ownerGone : Bool := false
  /-- Slot that forwards its data to the requester itself (R246). -/
  fwdBy : Option Nat := none
  /-- Forwarded data that has reached a requester inside the block (R246, R285). -/
  fwd : Option (LineData × Bool) := none
  /-- The home timed out a slot: the data is poisoned (R250). -/
  timedOut : Bool := false
  grant : Grant := .none
  phase : TxnPhase
deriving DecidableEq, Repr

/-- A request refused with RETRY and waiting in the line's order (R244). -/
structure Retried where
  line : LineAddr
  requester : Requester
  /-- A WB refused for a full eviction buffer (R247). -/
  isWb : Bool
  /-- RETRY has been sent. -/
  told : Bool := false
  /-- GO_RETRY sent: an entry is kept for it. -/
  go : Bool := false
deriving DecidableEq, Repr

/-- A request held by its requester while its home moves (R251 step 1, R288). -/
structure HeldReq where
  requester : Requester
  ctx : Nat
  line : LineAddr
  req : CohReq
  txn : BitVec 12
deriving DecidableEq, Repr

/-- A store of a requester that caches nothing to a line some agent may hold; its WR_INV has not completed (R234, R235). -/
structure Posted where
  requester : Requester
  ctx : Nat
  line : LineAddr
  data : LineData
  mask : W64
  poison : Bool
  /-- Tag of the window request whose WRITE_ACK waits for it (R195). -/
  ack : Option W32 := none
deriving DecidableEq, Repr

/-- What may still come from a slot whose snoop timed out (R250): its response, and the WB of an RSP_I_WB. -/
structure LateMark where
  line : LineAddr
  slot : Nat
  rsp : Bool
  wb : Bool
deriving DecidableEq, Repr

/-- An eviction-buffer entry (R247). -/
structure EvictBuf where
  line : LineAddr
  slot : Nat
  data : LineData
  poison : Bool
  /-- The entry is the busy transaction's own, which does not count against the 32. -/
  own : Bool := false
  /-- Its transition waits for the busy transaction; false also where a transaction has taken the data (void). -/
  pend : Bool := false
  /-- The vault has accepted the data. -/
  written : Bool := false
deriving DecidableEq, Repr

/-- A displaced directory entry whose invalidations are not all answered (R239). -/
structure Victim where
  line : LineAddr
  awaiting : List Snoop
  /-- FORCED mode: the line whose request waits for it. -/
  waiter : Option LineAddr
  /-- The entry it was. -/
  before : DirEntry := {}
  /-- Slots that answered RSP_I_WB and whose WB has not come yet (R248). -/
  awaitWb : List Nat := []
  /-- No displaced entry but an invalidation of slot 0 by the sweep of a quarter move (R251). -/
  sweep : Bool := false
deriving DecidableEq, Repr

/-- A line in the device cache (R252, R253). -/
structure DcLine where
  space : Bool
  line : BitVec 46
  st : Grant
  data : LineData
deriving DecidableEq, Repr

/-- A merge entry of a slice (R257). -/
structure Merge where
  slice : Nat
  space : Bool
  line : BitVec 46
  mask : W64
  data : LineData
  /-- Requester classes whose stores it holds. -/
  classes : List Nat
  born : Nat
  /-- Numbers of the fences that wait for it (R258). -/
  fencedBy : List Nat := []
deriving DecidableEq, Repr

/-- A fill of an HDM line the cache has asked its home for (R253). -/
structure DcFill where
  line : LineAddr
  cls : Nat
  /-- Read with RD_CUR: the class has no eligible way (R255). -/
  cur : Bool
  /-- A range invalidation covered it: deliver, do not install (R260). -/
  noInstall : Bool := false
  /-- Transfer engine whose chunk reads the line (R234). -/
  engine : Option Nat := none
deriving DecidableEq, Repr

/-- A line in the trestle line store (R233). -/
structure TrestleLine where
  st : Grant
  data : LineData
  /-- Delivered with poison (R249). -/
  poison : Bool := false
deriving DecidableEq, Repr

/-- A quarter move in progress (R251): from, to, slots that have answered HOME_MOVE. -/
structure QMove where
  q : Nat
  dest : Nat
  answered : List Nat
deriving DecidableEq, Repr

/-- Coherence and device cache. -/
structure Coherence where
  moesi : Bool := false
  forcedHw : Bool := true
  forcedSw : Bool := false
  qFenced : BitVec 4 := 0
  /-- Quarter moves in progress, in the order their fences came. -/
  qmoves : List QMove := []
  /-- Moved quarters still swept or snooped on demand, with the line the sweep goes on at (R251). -/
  sweeping : List (Nat × Nat) := []
  serve : Byte := 0xE4
  homeTimeout : BitVec 17 := 3200
  /-- Entry key: keystone * 2^19 + set * 16 + way. -/
  dir : Tbl DirEntry := []
  txns : List Txn := []
  retried : List Retried := []
  /-- Requests that wait for the end of a quarter move, in order of arrival. -/
  away : List HeldReq := []
  evict : List EvictBuf := []
  posted : List Posted := []
  /-- Sets with an entry that failed its check uncorrectably and has not been read since: keystone * 2^15 + set (R236). -/
  badSets : List Nat := []
  victims : List Victim := []
  /-- Lines whose fresh grant is still protected for 48 st, with the slot it was granted to (R245). -/
  holds : List (LineAddr × Nat) := []
  /-- What may still come from slots whose snoop response timed out (R250). -/
  late : List LateMark := []
  /-- BAR4 reads that the host path has not answered, in order of arrival (R209). -/
  ioReads : List LineAddr := []
  /-- CEVICTs of slot 7 that wait for a retry credit (R238, R244). -/
  owed : List LineAddr := []
  /-- Track counts, key pier * 2048 + (local address / 2 MiB) (R235). -/
  track : Tbl W16 := []
  /-- TRACK_INC sent and not acknowledged; TRACK_DEC sent and not handled. -/
  trackInc : List LineAddr := []
  trackDec : List LineAddr := []
  trestleLines : Tbl TrestleLine := []
  mergeTicks : Byte := 4
  wayMask : Tbl (BitVec 24) := []
  lfsr : Tbl W16 := []
  /-- Line key: slice * 2^17 + set * 32 + way. -/
  dc : Tbl DcLine := []
  merges : List Merge := []
  /-- Drained entries of HDM lines whose WR_INV the home has not completed. -/
  draining : List Merge := []
  fills : List DcFill := []
  /-- FENCEs that wait: their number and requester class (R258). -/
  fences : List (Nat × Nat) := []
  fenceCtr : Nat := 0
  rangeSpace : Bool := false
  rangeBase : BitVec 40 := 0
  rangePages : BitVec 21 := 1
  /-- The range invalidation in progress: space, first page, pages. -/
  rangeJob : Option (Bool × Nat × Nat) := none
  linesInv : BitVec 31 := 0
deriving DecidableEq, Repr

end Sys2Proof.Machine
end

