-- ==== Sys2Proof/State/Deck.lean ====
section
/-!
DEFINITION. State/Deck.lean: fabric, power domains, spandrel tree (11_deck.md).
-/
namespace Sys2Proof.Machine

/-- PD.STATE (Table 11-9). -/
inductive PdState where
  | on | closing | off | waking | fenced
deriving DecidableEq, Repr

/-- PD d (Table 11-9, R308 to R310). -/
structure Pd where
  req : Bool := false
  errCode : Byte := 0
  st : PdState := .on
  /-- A write of REQ that arrived during CLOSING or WAKING and waits (R310). -/
  waiting : Option Bool := none
  /-- A fence in progress: its source and the tick its drain wait ends at (R309). -/
  fence : Option (Nat × Nat) := none
  /-- The tick a wake must be done by (R310, R356). -/
  wakeBy : Nat := 0
deriving DecidableEq, Repr

/-- Spandrel operations (Table 11-7). -/
inductive SpKind where
  | join | bcast | and | snap | reset
deriving DecidableEq, Repr

/-- A spandrel operation in progress: participants are leaves `first` to `last` (R312). -/
structure SpOp where
  id : Nat
  kind : SpKind
  first : Nat
  last : Nat
  joined : List Nat
  /-- The AND so far, or the value broadcast. -/
  value : W64
deriving DecidableEq, Repr

/-- What the tree delivered when an operation was released (Table 11-7). -/
structure SpRelease where
  id : Nat
  kind : SpKind
  first : Nat
  last : Nat
  value : W64
  /-- Count of Table 1-7 in stages. -/
  stages : Nat
deriving DecidableEq, Repr

/-- Virtual networks (Table 11-4). -/
inductive Vn where
  | req | snp | rsp | dat | ctl
deriving DecidableEq, Repr

/-- A packet: the fields of its route word (Table 11-4). -/
structure Packet where
  src : Nat
  dest : Nat
  ver : Bool := false
  vn : Vn
  guar : Bool := false
  dataFlits : Nat := 0
  ttag : Nat := 0
  domainOff : Bool := false
deriving DecidableEq, Repr

/-- A packet in the flit buffers of an input port: 0 local, 1 to 4 from the west, east, north and south (R301). -/
structure Flight where
  packet : Packet
  node : Nat
  port : Nat
deriving DecidableEq, Repr

/-- The deck (Tables 11-8, 11-9). -/
structure Deck where
  guarPeriod : BitVec 6 := 8
  margin : BitVec 20 := 10000
  reconfBusy : Bool := false
  routeVer : Bool := false
  /-- Route-table banks: entries that differ from Tables 11-1 and 11-2 (R306). -/
  bank0 : Tbl Nat := []
  bank1 : Tbl Nat := []
  /-- The keystone quarter whose move waits for the retirement of the old bank (R306, R251). -/
  pendingMap : List (Tbl Nat) := []
  pds : Tbl Pd := []
  /-- Domains waiting for one of the 24 WAKING places, in request order (R356). -/
  wakeQueue : List Nat := []
  /-- Quarantined TTAGs: unit, tag, tick it ends at (R304). -/
  quarantine : List (Nat × Nat × Nat) := []
  /-- Packets in the routers' flit buffers, each buffer's in the order they came (R301). -/
  flights : List Flight := []
  /-- Packets that wait at their initiator for credit of the source router's local port, in the order they were sent. -/
  unsent : List Packet := []
  /-- Room that initiators have reserved for the responses they solicited: unit and TTAG (R301). -/
  reserved : List (Nat × Nat) := []
  ops : List SpOp := []
  released : List SpRelease := []
deriving DecidableEq, Repr

end Sys2Proof.Machine
end

