-- ==== Sys2Proof/State/Faults.lean ====
section
/-!
DEFINITION. State/Faults.lean: the fault collector (12_fault_collector.md).
-/
namespace Sys2Proof.Machine

/-- Source n's registers (Table 12-3); KIND and CLASSES are fuses (Machine/FaultTable.lean). -/
structure FaultSource where
  detail : W32 := 0
  count : W16 := 0
  wire : Bool := false
  /-- Which of the source's pairs read 10, 00 or 11 (R316): bit 0 CE, bit 1 UC, bit 2 FT. -/
  asserted : BitVec 3 := 0
  ft : Bool := false
  uc : Bool := false
  ce : Bool := false
  firstTs : W64 := 0
  vector : BitVec 11 := 0
  reactFt : BitVec 6 := 0
  reactUc : BitVec 6 := 0
  reactCe : BitVec 6 := 0
deriving DecidableEq, Repr

/-- A FENCE or BLKRST message core 0 has sent to a block's boundary routers (R319). -/
structure BlockMsg where
  block : Block
  isFence : Bool
  source : Nat
deriving DecidableEq, Repr

/-- A block reset in progress (Table 12-2 BLKRST, R414) with its 1,000-tick deadline. -/
structure BlockReset where
  block : Block
  source : Nat
  deadline : Nat
deriving DecidableEq, Repr

/-- A reply of a unit to FENCE or BLKRST, waiting at core 0 (Table 1-14). -/
structure BlockReply where
  block : Block
  isFence : Bool
  source : Nat
deriving DecidableEq, Repr

/-- The collector (Tables 12-3, 12-4). -/
structure Faults where
  sources : Tbl FaultSource := []
  safe : Bool := false
  safeCause : BitVec 2 := 0
  firstFt : BitVec 12 := 0xFFF
  lock : Bool := false
  /-- Latched events whose TRAP core 0 has not yet taken, in latch order (R321). -/
  traps : List (FaultClass × Nat) := []
  messages : List BlockMsg := []
  resets : List BlockReset := []
  replies : List BlockReply := []
  /-- R322: a FAILING beat has been formed and has not left the pins; the CAUSE of the chip reset that follows,
  or none where the beat hands over to the safe state. -/
  handover : Option (Option (BitVec 4)) := none
  /-- Next sweep of the FS_CFG words (R327). -/
  nextSweep : Nat := 1000
deriving DecidableEq, Repr

end Sys2Proof.Machine
end

