-- ==== Sys2Proof/State/Service.lean ====
section
/-!
DEFINITION. State/Service.lean: the generation service (05_generation_service.md).
-/
namespace Sys2Proof.Machine

/-- Stream states (Table 5-10); `free` is a record that holds no stream. -/
inductive StreamSt where
  | free | submitted | cinched | queued | prefill | decode | suspended | done | cancelled | limited
deriving DecidableEq, Repr

/-- A sealed output record (Table 5-9). -/
structure OutRec where
  seq : W32
  tokens : List W32
  bytes : List Byte
  position : W32
  final : Bool
  restart : Bool
  status : Byte
  restarts : Byte
  reason : Byte
  laneExc : W16
deriving DecidableEq, Repr

/-- One KV page of a stream (R162, R163): its KV tensor (the number of the class 5 descriptor), the unit of its lane, the
entry index in that unit's page list, the pier and FRAME it lies at, or the spill slot where it is not resident. -/
structure KvPage where
  tensor : Nat
  unit : Nat
  index : Nat
  pier : Nat
  resident : Bool
  frame : Nat
  bytes : Nat
  /-- A spill or a read-back of it is under way. -/
  moving : Bool
  /-- Bytes that its transfer descriptors have moved (R163). -/
  moved : Nat := 0
  /-- What a spilled page holds: its tag makes it come back unchanged or be discarded (R163). -/
  data : List Byte
deriving DecidableEq, Repr

/-- A stream record (Tables 5-2, 5-3, 5-8, R142 to R169). -/
structure Stream where
  inc : BitVec 31 := 0
  /-- The last run that carried it (R290). -/
  lastRun : Nat := 0
  /-- The record has held a stream before. -/
  used : Bool := false
  st : StreamSt := .free
  ctx : BitVec 12 := 0
  raw : Bool := false
  utf8 : Bool := false
  sq : W16 := 0
  cid : W16 := 0
  deliverCq : W16 := 0
  priority : BitVec 3 := 0
  recordTokens : Nat := 24
  userTag : W64 := 0
  seed : W64 := 0
  prompt : List W32 := []
  maxNew : Nat := 0
  temp : W32 := 0
  topP : W32 := 0
  minP : W32 := 0
  repPen : W32 := 0
  topK : W16 := 0
  penWindow : W16 := 0
  claim : W64 := 0
  stopIds : List W32 := []
  deadlineTs : W64 := 0
  coupling : W64 := 0
  flushTicks : W32 := 0
  /-- Raw run slots: offset, length (R142). -/
  slots : List (W64 × W32) := []
  /-- Suspension reasons CMD, HOST, BME, HELD, MODEL at bits 0 to 4 (R155). -/
  susp : BitVec 5 := 0
  /-- It goes back to QUEUED at its next boundary, KV kept (R162 step 2). -/
  requeue : Bool := false
  /-- Reasons that take effect at the stream's next boundary (Table 5-13). -/
  suspNext : BitVec 5 := 0
  /-- Committed output tokens, then the tokens of the open record and when its first came (R149, R150). -/
  committed : List W32 := []
  opened : List W32 := []
  openSince : Nat := 0
  /-- Committed records not yet freed, in SEQ order. -/
  sealed : List OutRec := []
  nextSeq : W32 := 0
  ackedSeq : W32 := 0
  /-- Next SEQ to write to the delivery queue (R150, R151). -/
  writeSeq : W32 := 0
  /-- Records below it have been written at least once (R151). -/
  writtenTo : W32 := 0
  restarts : Nat := 0
  /-- Restarted and not yet readmitted (R167). -/
  restartPending : Bool := false
  /-- The next record sealed carries RESTART. -/
  restartMark : Bool := false
  cinchTs : W64 := 0
  /-- Order of cinching among the live streams (R158). -/
  cinchSeq : Nat := 0
  queuedSince : Nat := 0
  /-- Batch and lane held. -/
  place : Option (Nat × Nat) := none
  /-- Tokens of prompt and committed output that prefill has processed (R159). -/
  prefilled : Nat := 0
  kv : List KvPage := []
  /-- POSITION of the latest NO_CANDIDATE (R168). -/
  noCand : Option Nat := none
  reason : Byte := 0
  laneExc : W16 := 0
  /-- Taken over from the lost member, its target reachable only through that member (R152). -/
  held : Bool := false
  /-- Taken over by orderly release (FLAGS.HANDED, Table 6-10). -/
  handed : Bool := false
  /-- Place of the extent in the extent area, in lines (R180). -/
  extentLine : Nat := 0
  extentLines : Nat := 0
  reqLines : Nat := 0
  /-- The request lines as cinched: descriptor, block, contents of a raw request's input slots (R154, R180). -/
  reqBytes : List Byte := []
deriving DecidableEq, Repr

/-- Long-operation states (R166). -/
inductive OpSt where
  | free | running | suspended | done | cancelled | failed
deriving DecidableEq, Repr

/-- A long-operation slot (R145, R166, Table 5-12). -/
structure LongOp where
  inc : BitVec 31 := 0
  used : Bool := false
  st : OpSt := .free
  opcode : Byte := 0
  /-- Context of the handle, and the context operated on (R146). -/
  ctx : BitVec 12 := 0
  target : BitVec 12 := 0
  cid : W16 := 0
  sq : W16 := 0
  /-- Queue of the final entry; FFFFh: entry 2720h (R147). -/
  deliverCq : W16 := 0
  /-- The command's 64 bytes. -/
  entry : BitVec 512 := 0
  doneUnits : W64 := 0
  totalUnits : W64 := 0
  status : Byte := 0
  detail : Byte := 0
  detailIndex : W32 := 0
  /-- LOAD_MODEL: chunks read so far. -/
  chunks : List (List Byte) := []
  /-- LOAD_MODEL: chunks of the image that the partner has been sent (R183). -/
  sentTo : Nat := 0
  /-- Pages the sweep has still to visit: pier, local page base. -/
  todo : List (Nat × Nat) := []
  /-- MIGRATE: descriptors that have ended DONE and are not yet counted as units (R277). -/
  xferDone : Nat := 0
  /-- Done here, waiting for the partner's binding or sweep (R183). -/
  binding : Bool := false
  /-- Taken over from the lost member, its target reachable only through that member (R190). -/
  held : Bool := false
  /-- The partner's BURNISH or ROTATE_KEY, carried out here on the shadow context (R183). -/
  shadow : Bool := false
  /-- SUSPENDs that wait for the end of that wait: queue pair, entry. -/
  cmds : List (Nat × BitVec 512) := []
deriving DecidableEq, Repr

/-- A batch of up to 16 lanes (R158). -/
structure Batch where
  ctx : BitVec 12
  lanes : List (Option Nat)
  run : Option Nat
  /-- Commands for its streams since the previous boundary: queue pair, entry (R156). -/
  cmds : List (Nat × BitVec 512)
deriving DecidableEq, Repr

/-- A completion entry waiting to be written (Table 5-7, R148, R214). -/
structure Completion where
  kind : Byte
  status : Byte
  detail : Byte
  cid : W16
  sq : W16
  handle : W64
  detailIndex : W32
  result : List Byte
deriving DecidableEq, Repr

/-- Generation service state. -/
structure Service where
  streams : Tbl Stream := []
  longOps : Tbl LongOp := []
  /-- Batches by number (key below 1,024). -/
  batches : List (Nat × Batch) := []
  nextCinch : Nat := 0
  /-- Free journal extents and the context of the last stream that had them: context, line, lines (R350). -/
  freeExtents : List (Nat × Nat × Nat) := []
  /-- Entry 2720h (Table 5-17). -/
  burnCtx : W16 := 0
  burnStatus : Byte := 0
  burnHandle : W64 := 0
  burnFinal : Byte := 0
  burnUnits : W64 := 0
  heldRecords : W16 := 64
  prefillChunk : W16 := 4096
  ageingTicks : W32 := 1000000
  kvSpillLow : Byte := 5
  rawInputMax : W32 := 4194304
  /-- R328, R361: the bridle admits nothing and the engines have stopped. -/
  quiesced : Bool := false
deriving DecidableEq, Repr

end Sys2Proof.Machine
end

