-- ==== Sys2Proof/State/HostPort.lean ====
section
/-!
DEFINITION. State/HostPort.lean: host port, queue pairs, rings, interrupts, resets (07_host_port.md).
-/
namespace Sys2Proof.Machine

/-- What a queue pair's ring slot holds (R151): a record, or a command completion or final entry. -/
inductive SlotUse where
  | record (recd : Nat) (handle : W64) (seq : W32) (final : Bool)
  /-- The final entry of a long operation, by slot and handle. -/
  | final (slot : Nat) (handle : W64)
  | completion
deriving DecidableEq, Repr

/-- QP_TABLE entry n (Table 7-8) and the queue pair's ring state (R207 to R218). -/
structure QpEntry where
  sqSize : BitVec 4 := 0
  sqPage : BitVec 19 := 0
  cqAddr : BitVec 52 := 0
  vis : Bool := false
  ien : Bool := false
  vector : BitVec 11 := 0
  coalTicks : W16 := 0
  coalCount : Byte := 0
  cqSize : BitVec 4 := 0
  arm : Bool := false
  armed : Bool := false
  priv : Bool := false
  twin : Bool := false
  ctx : BitVec 12 := 0
  twinCq : BitVec 15 := 0
  armErr : Byte := 0
  sqHead : Nat := 0
  sqTail : Nat := 0
  /-- The doorbell's pending bit at the host port (Table 1-14). -/
  pendingBit : Bool := false
  /-- Fetched commands not yet processed, oldest first, each with its number in fetch order (R141). -/
  fetched : List (Nat × BitVec 512) := []
  /-- Completion slots reserved by fetched commands whose completion is not yet written (R216). -/
  reserved : Nat := 0
  /-- Completions and final entries waiting to be written (R214). -/
  waiting : List Completion := []
  /-- Next write number P and consumer head h (R213, R215). -/
  produced : Nat := 0
  head : Nat := 0
  /-- Uses of writes h to P - 1 (R151). -/
  ring : List SlotUse := []
  /-- Flags written since the last interrupt event, and the tick of the first (R218). -/
  unsignalled : Nat := 0
  firstFlag : Nat := 0
  disarming : Bool := false
deriving DecidableEq, Repr

/-- MSI-X table entry (PCIe); mask 1 at reset. -/
structure MsixEntry where
  addr : W64 := 0
  data : W32 := 0
  masked : Bool := true
  pend : Bool := false
deriving DecidableEq, Repr

/-- What an outstanding host read serves (R222). -/
inductive ReadUse where
  | engine (e : Nat)
  /-- A page-table read of the engine's walker (R268). -/
  | walker (e : Nat)
  /-- The descriptor it belonged to has ended. -/
  | orphan
deriving DecidableEq, Repr

/-- An outstanding host read (R220 to R224). -/
structure HostRead where
  tag : Nat
  addr : W64
  pasid : Option (BitVec 20)
  bytes : Nat
  use : ReadUse
  deadline : Nat
  retries : Nat
deriving DecidableEq, Repr

/-- HDM decoder (R201); IW and IG as encoded by CXL. -/
structure HdmDecoder where
  base : W64 := 0
  size : W64 := 0
  skip : W64 := 0
  iw : BitVec 4 := 0
  ig : BitVec 4 := 0
  lockOnCommit : Bool := false
  commit : Bool := false
  committed : Bool := false
  errNotCommitted : Bool := false
  /-- First byte of its DPA span, after the skip, as committed. -/
  dpa : Nat := 0
deriving DecidableEq, Repr

/-- A context's binding to the function (R206). -/
structure Binding where
  bound : Bool := false
  pasid : BitVec 20 := 0
  mismatches : Nat := 0
  /-- Tick the lockout ends at; 0: none. -/
  lockout : Nat := 0
deriving DecidableEq, Repr

/-- A bind or unbind that waits for trestle core 7 (R206): the context, and for a bind its PASID and the credential. -/
structure BindReq where
  ctx : Nat
  bind : Option (BitVec 20 × W64)
deriving DecidableEq, Repr

/-- A function-level or CXL reset waiting for outstanding reads (R228), with the tick it abandons them at. -/
structure ResetWait where
  deadline : Nat
deriving DecidableEq, Repr

/-- The host port. -/
structure HostPort where
  /-- DL_UP: data link layer active (HP_STATUS). -/
  phyUp : Bool := false
  /-- The link carries traffic: up, and not treated as dropped (R229). -/
  dlUp : Bool := false
  width : BitVec 4 := 0
  speed : BitVec 4 := 0
  flit256 : Bool := false
  mse : Bool := false
  bme : Bool := false
  perr : Bool := false
  serr : Bool := false
  intxDisable : Bool := false
  bar0 : W64 := 0
  bar2 : W64 := 0
  bar4 : W64 := 0
  romBar : W32 := 0
  romEnable : Bool := false
  intLine : Byte := 0
  d3hot : Bool := false
  /-- Device Control: Max_Payload_Size and Max_Read_Request_Size encodings. -/
  mps : BitVec 3 := 0
  mrrs : BitVec 3 := 2
  ctoValue : BitVec 4 := 0
  msixEn : Bool := false
  msixMask : Bool := false
  atsEn : Bool := false
  pasidEn : Bool := false
  priEn : Bool := false
  hpVector : BitVec 11 := 0
  /-- AER: uncorrectable status bits logged (Completion Timeout 14, Unsupported Request 20, Completer Abort 15). -/
  aerUncorr : W32 := 0
  /-- Writable and write-1-to-clear bits of the other registers of configuration space, one entry for each aligned
  doubleword that differs from its reset value (Table 7-2). -/
  cfg : Tbl W32 := []
  memActive : Bool := false
  /-- Memory_Info_Valid (R203). -/
  memInfo : Bool := false
  hdm : Tbl HdmDecoder := []
  flr : Option ResetWait := none
  cxlReset : Option ResetWait := none
  ctxBindCtx : BitVec 12 := 0
  ctxBindPasid : BitVec 20 := 0
  bindCred : W64 := 0
  bindStatus : Byte := 0
  /-- The request whose handler has not ended: BIND_RESULT.BUSY reads 1 while there is one. -/
  bindReq : Option BindReq := none
  bindings : Tbl Binding := []
  qps : Tbl QpEntry := []
  /-- Fetch-order number of the next command. -/
  nextFetch : Nat := 0
  msix : Tbl MsixEntry := []
  /-- Set bits of INTX_STATUS; bit v for vector v. -/
  intxStatus : BitVec 2048 := 0
  intxAsserted : Bool := false
  reads : List HostRead := []
  /-- Quarantined tags and the ticks they leave at (R223). -/
  tagsQuar : List (Nat × Nat) := []
  tagPool : W16 := 1024
  readRetries : Byte := 2
  bindLockout : W32 := 1000000
  ideSecure : BitVec 5 := 0
  ideMemSecure : Bool := false
  /-- The link is treated as dropped until this failed IDE stream is re-established (R229). -/
  ideFailed : Option IdeStream := none
deriving DecidableEq, Repr

end Sys2Proof.Machine
end

