-- ==== Sys2Proof/State/Milell.lean ====
section
/-!
DEFINITION. State/Milell.lean: field network and dictionary ports (15_milell_dictionary.md).
-/
namespace Sys2Proof.Machine

/-- NMT states (R372). -/
inductive Nmt where
  | preOperational | operational | stopped
deriving DecidableEq, Repr

/-- A queued EMCY message (R377): its 12 bytes. -/
structure Emcy where
  bytes : List Byte
deriving DecidableEq, Repr

/-- An open segmented transfer of a client node (R373). -/
structure Segmented where
  client : Nat
  upload : Bool
  index : W16
  sub : Byte
  /-- Upload: bytes still to send. Download: bytes received. -/
  bytes : List Byte
  deadline : Nat
deriving DecidableEq, Repr

/-- A received USDO initiate waiting for core 1 (Table 1-14). -/
structure UsdoReq where
  client : Nat
  index : W16
  sub : Byte
  /-- Value of a write; none: a read. -/
  value : Option (List Byte)
  segmented : Bool
deriving DecidableEq, Repr

/-- A dictionary port (Table 15-4). -/
structure DwPort where
  op : BitVec 2 := 0
  sub : Byte := 0
  index : W16 := 0
  length : Byte := 0
  busy : Bool := false
  status : Byte := 0
  respLen : Byte := 0
  abort : W32 := 0
  doneSeq : W32 := 0
  /-- DATA: 224 bytes. -/
  data : List Byte := List.replicate 224 0
deriving DecidableEq, Repr

/-- Milell. -/
structure Milell where
  /-- NODE_ID (2010h); the retained block keeps what is stored (R371). -/
  nodeId : Byte := 0xFF
  /-- Node ID in force. -/
  nodeInForce : Byte := 0xFF
  nmt : Nmt := .preOperational
  booted : Bool := false
  emcyMask : Byte := 0x06
  inhibit : W16 := 100
  heartbeatMs : W16 := 1000
  nextHeartbeat : Nat := 0
  /-- 1003h, newest first, at most 16. -/
  errors : List W32 := []
  emcyQ : List Emcy := []
  /-- Tick before which no EMCY may go out (1015h). -/
  emcyAfter : Nat := 0
  tec : Byte := 0
  rxec : Byte := 0
  canState : BitVec 2 := 0
  usdo : List UsdoReq := []
  segs : List Segmented := []
  /-- BAR0 ports 0 to 15 at keys 0 to 15; DICT_PORT of page n at key 16 + n. -/
  ports : Tbl DwPort := []
  /-- Requests of ports that a host-side reset caught: they complete, their responses are lost (R380). -/
  orphans : List (Nat × DwPort) := []
deriving DecidableEq, Repr

end Sys2Proof.Machine
end

