-- ==== Sys2Proof/State/Girth.lean ====
section
/-!
DEFINITION. State/Girth.lean: girth ports (10_girth_ports.md).
-/
namespace Sys2Proof.Machine

/-- GP_STATUS.STATE (Table 10-10). -/
inductive GpState where
  | off | training | init | up | quiescing | fenced
deriving DecidableEq, Repr

/-- Messages Idern sends on a girth port (Tables 10-4, 10-6, 13-6). -/
inductive GirthMsg where
  | item (bytes : List Byte)
  | snp (op : Byte) (line : LineAddr) (route rtxn : W16) (wantData : Bool)
  | cmp (txn : BitVec 12) (aux : Byte) (state : Byte) (poison : Bool)
  | wbAck (line : LineAddr)
  | retry (line : LineAddr)
  | goRetry (line : LineAddr)
  | nack (txn : BitVec 12) (reason : Byte)
  /-- `space` is SPACE: 0 a line of device memory, 1 of the host. -/
  | data (txn : BitVec 12) (space : Bool) (d : LineData) (poison : Bool)
  | hello (encReq : Bool) (moesi : Bool)
  | credit (counts : List Nat)
  | ready
  | mode (forced : Bool)
  | homeMove (q : Nat)
  | quiesce
  | abort (tag : W32)
  | kx (step : Byte)
deriving DecidableEq, Repr

/-- A flit sent and held for replay: number, how often replayed (R281). -/
structure HeldFlit where
  num : W64
  ack : W32
  nak : Bool
  crClass : Nat
  crCount : Nat
  msgs : List GirthMsg
  /-- Key it was encrypted under when first sent, 0 for a plain flit (R345). -/
  key : Nat
  replays : Nat
deriving DecidableEq, Repr

/-- An offload item at a port (R289, Table 3-13). -/
structure Item where
  tag : W32
  ctx : Nat
  run : Nat
  stitch : Nat
  pier : Nat
  deadline : Nat
  bytes : List Byte
  /-- Sent to the chiplet and not ended. -/
  sent : Bool
  /-- ABORT sent; the tick ABORT_TICKS pass at (R290). -/
  aborted : Option Nat
deriving DecidableEq, Repr

/-- What a chiplet's outstanding TXN asks for (R286). -/
structure PortTxn where
  txn : BitVec 12
  line : LineAddr
  op : Byte
deriving DecidableEq, Repr

/-- GP_HWIN k (Table 10-10). -/
structure HostWin where
  en : Bool := false
  base : BitVec 40 := 0
  last : BitVec 40 := 0
deriving DecidableEq, Repr

/-- Girth port n (Table 10-10). -/
structure GirthPort where
  auto : Bool := true
  enc : Bool := false
  hostHdm : Bool := false
  st : GpState := .off
  pwren : Bool := false
  pwrgd : Bool := false
  present : Bool := false
  encOn : Bool := false
  /-- ENC as the start in progress took it. -/
  encStart : Bool := false
  /-- GIRTH_PEER as the start in progress read it (Table 13-10). -/
  peerHash : BitVec 384 := 0
  /-- Step of Table 10-8 in progress (0: none) and its deadline. -/
  step : Nat := 0
  stepDeadline : Nat := 0
  helloOk : Bool := false
  creditIn : Bool := false
  readyIn : Bool := false
  kxStep : Nat := 0
  sweepBusy : Bool := false
  /-- The sweep poisons owned entries: it follows a fence (R294). -/
  sweepPoison : Bool := false
  startAfterSweep : Bool := false
  /-- STOP in progress and the tick QUIESCE is given up at. -/
  quiesceBy : Option Nat := none
  replays : W16 := 0
  txNum : W64 := 0
  rxLast : W64 := BitVec.allOnes 64
  peerAck : W64 := BitVec.allOnes 64
  nak : Bool := false
  held : List HeldFlit := []
  /-- A UCIe link retrain in progress (R281), with its bound. -/
  retrain : Option Nat := none
  lastFlit : Nat := 0
  /-- Credits the port holds for classes 1 to 5 (R283). -/
  credits : List Nat := [0, 0, 0, 0, 0]
  /-- Credits the chiplet holds, and slots freed whose credit has not been returned (R283). -/
  rxCredits : List Nat := [1024, 0, 1024, 4096, 64]
  rxOwed : List Nat := [0, 0, 0, 0, 0]
  /-- Messages waiting to be sent, per class order kept by the list. -/
  outq : List GirthMsg := []
  vendor : W16 := 0
  device : W16 := 0
  itemsMax : W16 := 0
  txnMax : W16 := 0
  hwin : List HostWin := [{}, {}, {}, {}]
  items : List Item := []
  nextTag : W32 := 0
  txns : List PortTxn := []
  /-- OFFLOAD_CMPs held back by writes not yet accepted at their home (R289): tag, status, WR_INVs to wait for. -/
  cmpWait : List (W32 × Byte × List (BitVec 12) × Nat) := []
deriving DecidableEq, Repr

/-- All girth ports. -/
structure Girth where
  ports : Tbl GirthPort := []
  abortTicks : W32 := 10000
deriving DecidableEq, Repr

end Sys2Proof.Machine
end

