-- ==== Sys2Proof/State/Observe.lean ====
section
/-!
DEFINITION. State/Observe.lean: trace, counters and snapshots (17_observation.md).
-/
namespace Sys2Proof.Machine

/-- An Emkar record as the store holds it (Table 17-1); FLAGS belong to a destination. -/
structure TraceRec where
  event : Byte
  unit : BitVec 9
  seq : W32
  ts : W64
  a : W64
  b : W64
deriving DecidableEq, Repr

/-- The observation unit (R404 to R412, Table 17-4). -/
structure Observe where
  snapBusy : Bool := false
  snapSeq : Byte := 0
  /-- The counters as at the cut of the snapshot in progress (R412). -/
  snapCut : Tbl W64 := []
  snapBank : Tbl W64 := []
  bufEn : Bool := false
  portEn : Bool := false
  bufBase : BitVec 52 := 0
  bufSize : BitVec 4 := 0
  nextSeq : W32 := 0
  eventEn : BitVec 256 := BitVec.allOnes 256
  /-- Records held, oldest first, at most 2,048 (R406). -/
  store : List TraceRec := []
  /-- How many records at the head of `store` the port, and the ring, have taken. -/
  portPos : Nat := 0
  ringPos : Nat := 0
  portLost : Bool := false
  ringLost : Bool := false
  /-- Ring writes since BUF_EN was last set (R409). -/
  ringW : Nat := 0
  /-- Counter n of Table 17-3; an unlisted counter reads 0. -/
  counters : Tbl W64 := []
deriving DecidableEq, Repr

end Sys2Proof.Machine
end

