-- ==== Sys2Proof/State/Pair.lean ====
section
/-!
DEFINITION. State/Pair.lean: viaduct, journal mirroring, pair states, windows, partner bay (06_pair_and_guarantee.md).
-/
namespace Sys2Proof.Machine

/-- A viaduct message (Tables 6-5 to 6-8). -/
inductive ViaMsg where
  | jWrite (tag : W32) (joff : W64) (lines : List LineData)
  | jAck (tag : W32) (status : Byte)
  | jImage (tag : W32) (ctx : Nat) (chunk : Nat) (part : Nat) (units : List LineData)
  | cursor (entries : List CursorEntry)
  | wRead (tag : W32) (win : Nat) (ctx : Nat) (offset : W64) (lines : Nat)
  | wReadData (tag : W32) (status : Byte) (lines : List LineData)
  | wWrite (tag : W32) (win : Nat) (ctx : Nat) (offset : W64) (firstBe lastBe : W64) (lines : List LineData)
  | wWriteAck (tag : W32) (status : Byte)
  | sync (tSend : W64)
  | echo (tag : W32) (tSend : W64)
  | echoReply (tag : W32) (tSend : W64)
  | beat (b : Beat)
  | kx (r : PairKx)
deriving DecidableEq, Repr

/-- A frame sent and kept for replay (R174). -/
structure HeldFrame where
  num : W64
  ack : W64
  nak : Bool
  msgs : List ViaMsg
  /-- Key it was encrypted under; a replay is byte-identical. -/
  key : Nat
  replays : Nat
deriving DecidableEq, Repr

/-- The viaduct adapter (Table 6-4, R173 to R176). -/
structure Viaduct where
  up : Bool := false
  step : BitVec 3 := 0
  stepDeadline : Nat := 0
  reversed : Bool := false
  retrains : W16 := 0
  flightPs : W16 := 0
  /-- Round trips measured so far in step 4 (R175). -/
  samples : List Nat := []
  txNum : W64 := 0
  /-- ACK_NUM sent: the last frame accepted; before any, the number before 0. -/
  rxAck : W64 := BitVec.allOnes 64
  peerAck : W64 := BitVec.allOnes 64
  nak : Bool := false
  held : List HeldFrame := []
  /-- Frames of `held` that a NAK asks for again, still to be resent, oldest first. -/
  replay : List W64 := []
  fastRetrain : Option Nat := none
  restartAt : Option Nat := none
  health : List ViaMsg := []
  time : List ViaMsg := []
  cursor : List ViaMsg := []
  journal : List ViaMsg := []
  window : List ViaMsg := []
  /-- JOURNAL units sent and not yet matched by a third as many WINDOW units, while both wait (R176). -/
  jCredit : Nat := 0
  /-- The message a frame has begun and a later one ends, with its units still to send (R176). -/
  begun : Option (ViaMsg × Nat) := none
  /-- Records of training step 5 waiting to be sent, one a frame (R344). -/
  kx : List PairKx := []
  nextTag : W32 := 0
deriving DecidableEq, Repr

/-- PAIR_STATUS.STATE (Table 6-11). -/
inductive PairSt where
  | solo | pairing | mirrored | degraded | rejoining
deriving DecidableEq, Repr

/-- What waits for a JOURNAL ACK (R182). -/
inductive AckWait where
  | cinch (record : Nat)
  | seal (record : Nat) (seq : W32)
  /-- The last chunk of a LOAD_MODEL's image or the last unit of a sweep, and an earlier chunk (R183). -/
  | longOp (slot : Nat)
  | image (slot : Nat)
  /-- The last line of the re-mirror copy (R192). -/
  | copyEnd
  /-- A command completion that waits for the change it reports. -/
  | answer (qp : Nat) (c : Completion)
  | other
deriving DecidableEq, Repr

/-- A takeover in progress (R187, R188). -/
inductive TakePhase where
  | none
  /-- Role B waits B_HOLDOFF; the tick it ends. -/
  | holdoff (deadline : Nat)
  /-- FENCE_WAIT; the tick it ends. -/
  | fenceWait (deadline : Nat)
  /-- Streams still to take over, in stream-index order. -/
  | taking (todo : List Nat) (orderly : Bool)
deriving DecidableEq, Repr

/-- An incoming or outgoing window (Tables 6-18, 6-19); `base` in 2 MiB units, READ and WRITE only for WIN_IN. -/
structure Window where
  enable : Bool := false
  read : Bool := false
  write : Bool := false
  ctx : BitVec 12 := 0
  base : BitVec 17 := 0
  size : BitVec 18 := 0
deriving DecidableEq, Repr

/-- Who asked for a WINDOW request in flight. -/
inductive WinUser where
  | engine (e : Nat)
  | signal (run stitch : Nat)
  /-- Part `part` (64 lines) of the operand `desc` that a stitch reads. -/
  | read (run stitch desc part : Nat)
  | write (run : Nat)
deriving DecidableEq, Repr

/-- Pair protocol (Tables 6-11 to 6-20). -/
structure Pair where
  st : PairSt := .solo
  /-- PAIR_MODE as read at the last chip reset (Table 6-15). -/
  mode : Bool := false
  prev : PairSt := .solo
  roleB : Bool := false
  conflict : Bool := false
  missed : BitVec 4 := 0
  /-- A valid beat came in the interval in progress (R186). -/
  beatSeen : Bool := false
  epoch : W32 := 0
  /-- PARTNER_SERIAL of the region header. -/
  partnerSerial : W64 := 0
  present : Bool := false
  /-- Tick since which PRT_PRSNT_N is high (R186). -/
  absentSince : Nat := 0
  leaving : Bool := false
  hbSeq : W32 := 0
  /-- The last beat sent (R322). -/
  lastBeat : Option Beat := none
  /-- Next boundary of the 100-tick heartbeat intervals (R177, R186). -/
  nextBeat : Nat := 100
  /-- Next TIME SYNC (R178). -/
  nextSync : Nat := 1000
  /-- The last valid beat of the partner. -/
  partner : Option Beat := none
  rejoinEn : Bool := true
  /-- After a chip reset in MIRRORED or REJOINING: the journal is kept until the handshake decides (R362). -/
  journalKept : Bool := false
  pairWaitBy : Nat := 0
  /-- Multiple of PAIR_WAIT at which REMIRROR_SLOW is next due (R193). -/
  slowAt : Nat := 0
  rejoinStart : Nat := 0
  /-- This member is the source of the re-mirror (R192). -/
  source : Bool := false
  bytesCopied : Nat := 0
  acks : List (W32 × AckWait) := []
  /-- JOURNAL WRITEs of the partner whose ACK waits for the end of the sweep in a slot here (R183): tag, slot. -/
  ackHeld : List (W32 × Nat) := []
  /-- Time error e still to be slewed, in sevenths of a picosecond (R178; one cyc(VD) is 4,000/7 ps). -/
  timeErr : Int := 0
  /-- The next TS edge leaves TS_NOW as it is: a deleted increment (R178). -/
  tsSkip : Bool := false
  nextSlew : Nat := 0
  take : TakePhase := .none
  takenStreams : Nat := 0
  takenOps : Nat := 0
  pairWait : W32 := 200000000
  fenceWait : W32 := 100000
  bHoldoff : W32 := 200000
  cursorTicks : W16 := 10
  nextCursor : Nat := 0
  /-- Extents of the records that the partner serves, as its stream-index entries here give them: EXTENT_LINE, EXTENT_LINES
  (R179, R182). -/
  foreign : Tbl (Nat × Nat) := []
  /-- Lines of the extent area that have arrived since this member became the rejoiner: first line of the region, number; none
  where no re-mirror is unfinished (R192, R194). -/
  landed : Option (List (Nat × Nat)) := none
  /-- Streams whose ACKED_SEQ has changed since the last CURSOR UPDATE, with their RELEASE flag. -/
  cursorDirty : List (Nat × CursorEntry) := []
  winIn : Tbl Window := []
  winOut : Tbl Window := []
  winReqs : List (W32 × WinUser) := []
  /-- Sealed-image parts received for a shadow context: context, chunk, part, units (R183). -/
  imageParts : List (Nat × Nat × Nat × List LineData) := []
  -- Partner bay (Table 6-20)
  pwrOff : Bool := false
  pwrInd : BitVec 2 := 3
  atnInd : BitVec 2 := 3
  hpIntEn : Bool := false
  presEn : Bool := false
  atnEn : Bool := false
  pairChg : Bool := false
  linkChg : Bool := false
  presChg : Bool := false
  atnPressed : Bool := false
deriving DecidableEq, Repr

end Sys2Proof.Machine
end

