-- ==== Sys2Proof/State/Output.lean ====
section
/-!
DEFINITION. State/Output.lean: what leaves the block. State keeps the outputs in order (notes/assumptions/5.md).
-/
namespace Sys2Proof.Machine

/-- Capability flags of Idern (R333). -/
inductive SpdmFlag where
  | cert | chal | measSigned | keyEx | mutAuth | encrypt | mac | hbeat | keyUpd | encap | chunk
deriving DecidableEq, Repr

/-- What a CAPABILITIES answer says (R333). -/
structure SpdmCaps where
  flags : List SpdmFlag
  ctExponent : Nat
  dataTransferSize : Nat
  maxMsgSize : Nat
deriving DecidableEq, Repr

/-- Algorithms of R333. -/
inductive SpdmAlg where
  | ecdsaP384 | sha384 | secp384r1 | aes256Gcm | spdmKeySchedule | dmtfMeasurements
deriving DecidableEq, Repr

/-- What an ALGORITHMS answer selects. -/
structure SpdmAlgs where
  baseAsym : SpdmAlg
  reqAsym : SpdmAlg
  hash : SpdmAlg
  dhe : SpdmAlg
  aead : SpdmAlg
  keySchedule : SpdmAlg
  measurementSpec : SpdmAlg
  measurementHash : SpdmAlg
deriving DecidableEq, Repr

/-- Answers of the SPDM responder (R333 to R337); `error` carries the SPDM error by name. -/
inductive SpdmRsp where
  /-- The versions offered, major and minor in a nibble each. -/
  | version (versions : List Byte)
  | capabilities (caps : SpdmCaps)
  | algorithms (algs : SpdmAlgs)
  | digests
  | certificate (offset length : Nat)
  | challengeAuth (nonce : BitVec 256)
  /-- The blocks reported, whether signed, and the raw context record where index 12 exists (Table 13-3). -/
  | measurements (indices : List Nat) (signed : Bool) (raw : List Byte)
  | keyExchange (session : Nat) (mutualAuth : Bool)
  | finish | heartbeatAck | keyUpdateAck | endSessionAck
  | chunkSendAck (seq : W16) (last : Bool)
  | chunkResponse (seq : W16)
  | encapsulated (certificate : Bool)
  | ideKm
  | vendor (code status : Byte)
  | error (what : String)
deriving DecidableEq, Repr

/-- Answers of the USDO server (R373): the value, an accepted write, the start of a segmented transfer with its length
(upload) or ready for segments (download), one segment, or an abort code. -/
inductive UsdoRsp where
  | data (bytes : List Byte)
  | written
  | openUpload (length : Nat)
  | openDownload
  | segment (bytes : List Byte) (last : Bool)
  | segmentAck
  | abort (code : W32)
deriving DecidableEq, Repr

/-- How a request of the host is completed (R225, R358, CXL.mem). -/
inductive Cpl where
  | data (bytes : List Byte)
  | poisoned (bytes : List Byte)
  | done | ur | ca | retryStatus
deriving DecidableEq, Repr

/-- Marks of a posted write: a translated address (AT = 10b, R263), poisoned data (EP, R224). -/
structure WriteMarks where
  translated : Bool := false
  poisoned : Bool := false
deriving DecidableEq, Repr

/-- How a transfer descriptor ends (R17, R271). -/
inductive XferEnd where
  | done
  | failed (code : Nat)
  | reject
deriving DecidableEq, Repr

/-- Everything that leaves Idern. -/
inductive Output where
  /-- Posted write to host memory (R214, R220). -/
  | hostWrite (addr : W64) (pasid : Option (BitVec 20)) (bytes : List Byte) (marks : WriteMarks := {})
  /-- Untranslated read of host memory (R263). -/
  | hostRead (tag : Nat) (addr : W64) (pasid : Option (BitVec 20)) (bytes : Nat)
  | msix (vector : BitVec 11)
  | intx (assert : Bool)
  /-- Completion of a host request. -/
  | cpl (c : Cpl)
  /-- CXL.mem answer to the host: line data, poison, state granted. -/
  | memData (line : LineAddr) (d : LineData) (poison : Bool)
  | memCmp (line : LineAddr) (grant : Byte)
  /-- Back-invalidation snoop to slot 0 (R240). -/
  | bisnp (op : BiSnp) (line : LineAddr)
  | biConflictAck (line : LineAddr) (tag : W16)
  /-- CXL.cache requests of the device cache (R253). -/
  | cacheRead (line : BitVec 46) (allocate : Bool)
  | cacheWrite (line : BitVec 46) (d : LineData) (mask : W64)
  /-- The device cache's answer to a CXL.cache snoop of the host (R259): whether it held the line, and whether it keeps it. -/
  | cacheSnpRsp (line : BitVec 46) (held kept : Bool)
  | atsRequest (engine : Nat) (pasid : BitVec 20) (page : Nat) (write : Bool)
  /-- The end of a transfer descriptor, to the firmware that gave it, with its tag (Table 9-6). -/
  | xferEnd (engine : Nat) (tag : W32) (how : XferEnd)
  | pageRequest (index : Nat) (pasid : BitVec 20) (page : Nat) (write : Bool)
  | atsInvalidateCpl (itag : Nat)
  | viaFrame (num ack : W64) (nak : Bool) (msgs : List ViaMsg) (key : Nat)
  | viaFill
  | girthFlit (port : Nat) (num : W64) (ack : W32) (nak : Bool) (crClass crCount : Nat) (msgs : List GirthMsg) (key : Nat)
  /-- Data a home or the device cache delivers to an interior requester (R241, R254); `space` is true for HDM lines. -/
  | interiorData (space : Bool) (line : Nat) (d : LineData) (poison : Bool)
  | pmWrite (mv : BitVec 10)
  | pmRead
  | can (cobId : Nat) (bytes : List Byte)
  /-- A USDO frame to a client node (Table 15-2). -/
  | usdo (cobId : Nat) (client : Nat) (r : UsdoRsp)
  | traceRecord (r : TraceRec) (lost : Bool)
  | spdm (session : SessionId) (r : SpdmRsp)
deriving DecidableEq, Repr

end Sys2Proof.Machine
end

