-- ==== Sys2Proof/State/Pace.lean ====
section
/-!
DEFINITION. State/Pace.lean: pace, trim loop and trestle doorbells (01_stages_and_clocks.md).
-/
namespace Sys2Proof.Machine

/-- PACE, PACE_TARGET, PACE_STATUS and the trim loop (Tables 1-2 to 1-4, R27 to R30). -/
structure Pace where
  updSeq : W16 := 0
  valid : Bool := false
  tjC : Byte := 0
  stagePs : W16 := 480
  trimEn : Bool := false
  targetPs : W16 := 360
  pmRefused : Bool := false
  vcoreMv : BitVec 10 := 750
  /-- The setpoint the outstanding request asks for, with the tick it times out at (R29, R30); PM_WAIT reads 1
  while there is one. -/
  request : Option (BitVec 10 × Nat) := none
  /-- The tick the next trim interval begins at, while TRIM_EN is 1 (R29). -/
  nextTrim : Nat := 0
  /-- The tick of the next pace measurement (R27). -/
  nextUpdate : Nat := 100
deriving DecidableEq, Repr

/-- What a trestle core last dispatched (R38, Table 1-14). -/
inductive Dispatched where
  | trap (cls : FaultClass) (source : Nat)
  | bit (n : Nat)
deriving DecidableEq, Repr

/-- A trestle core's doorbell register (R39) and its last dispatch. -/
structure Trestle where
  doorbell : W64 := 0
  last : Option Dispatched := none
  /-- RXPEND, the saddlebag channels waiting for this core (Table 16-4). -/
  rxpend : W64 := 0
deriving DecidableEq, Repr

end Sys2Proof.Machine
end

