-- ==== Sys2Proof/State/Piers.lean ====
section
/-!
DEFINITION. State/Piers.lean: pier arithmetic and stitch programs (02_pier_arithmetic.md, 03_stitch_programs.md).
-/
namespace Sys2Proof.Machine

/-- The skive stream at a pier's decoder (R60 to R63): the row it is in belongs to a stitch of a run. -/
structure SkiveStream where
  run : Nat
  slot : Nat
  stitch : W16
  expected : W16
  /-- Steps of the row that its frames have given. -/
  steps : Nat
  stopped : Bool
deriving DecidableEq, Repr

/-- A scratch allocation of a bound program (R108): context, program index, base, bytes, and for which pier's role. -/
structure ScratchAlloc where
  ctx : Nat
  prog : Nat
  role : Nat
  base : Nat
  bytes : Nat
deriving DecidableEq, Repr

/-- A pier (Table 2-1). -/
structure PierSt where
  /-- The sixteen lane accumulators, FP32 (R51). -/
  acc : List W32 := List.replicate 16 0
  /-- A weight record that waits at the array input for its operand (R44). -/
  held : Option WeightStep := none
  /-- A codebook write that waits for an LC12 step (R56). -/
  codebookWait : Option (List W32) := none
  /-- The codebook held: context, CODEBOOK offset and the role whose portion it came from (R108). -/
  codebook : Option (Nat × Nat × Nat) := none
  /-- Skive decoder slots (R58): slot number to 64-byte record. -/
  slots : Tbl (BitVec 512) := []
  stream : Option SkiveStream := none
  /-- Decoded steps that stand before the array (R62). -/
  released : List WeightStep := []
  allocs : List ScratchAlloc := []
deriving DecidableEq, Repr

/-- ROLE of a program (Table 3-1). -/
inductive Role where
  | raw | decode | prefill
deriving DecidableEq, Repr

/-- A bound program (R77 to R84, R107 to R110). -/
structure Program where
  role : Role
  stitches : List (BitVec 256)
  descs : List (BitVec 512)
  skives : List (BitVec 512)
  consts : List Byte
  scratchBytes : Nat
  /-- Scratch base of each role's allocation: role pier to offset (R108). -/
  scratchBase : Tbl Nat
  /-- Role of a fenced pier to its substitute (R110). -/
  subst : Tbl Nat
  bound : Bool
deriving DecidableEq, Repr

/-- Section entry of a sealed image (Table 4-11). -/
structure Section where
  kind : Byte
  place : Byte
  pierFirst : W16
  pierCount : W16
  offset : W64
  partBytes : W32
  deployOffset : W32
deriving DecidableEq, Repr

/-- A context's deployed model (R135 to R137, R164). -/
structure Model where
  chunkCount : Nat
  portionBytes : Nat
  modelId : BitVec 128
  keyId : W32
  tagChunk : Nat
  sections : List Section
  /-- IMG_BASE per approach pier, where the image lies in POOL memory as it was sealed (R136). -/
  imgBase : Tbl Nat
  /-- Deployed-portion base per role and pier (`placeKey`). -/
  portionBase : Tbl Nat
  programs : List Program
  /-- Vocabulary entries: offset, length; and the string area (R164). -/
  vocab : Option (List (Nat × Nat) × List Byte)
deriving DecidableEq, Repr

/-- What a run executes for (R85, R158, R159, R111). -/
inductive RunKind where
  | batch (b : Nat)
  | prefill (record : Nat)
  | raw (record : Nat)
deriving DecidableEq, Repr

/-- A run of a bound program (R85 to R87, R102, R106). -/
structure Run where
  id : Nat
  ctx : Nat
  prog : Nat
  kind : RunKind
  /-- Stitches complete on every pier. -/
  completed : List Nat := []
  /-- An OFFLOAD whose item is out: stitch, port, ITEM_TAG. -/
  items : List (Nat × Nat × Nat) := []
  laneExc : W16 := 0
  /-- Lanes whose SAMPLE or ROUTE found no candidate. -/
  noCand : W16 := 0
  /-- Girth ports fenced or absent when the run started (R106). -/
  portsDown : BitVec 6 := 0
  /-- Run slots of a raw run: offset in working memory, length (R111). -/
  slots : List (W64 × W32) := []
  coupling : W64 := 0
  /-- Contents of the SERVICE classes (Table 3-11). -/
  services : Tbl (List Byte) := []
  /-- Page-list header base of each class 5 descriptor on each pier, key 512 * descriptor + pier (R139). -/
  kvBase : Tbl Nat := []
  /-- POOL bytes the run's page lists take: context, pier, base, bytes. -/
  kvAlloc : List (Nat × Nat × Nat × Nat) := []
  /-- Lanes that hold a stream; the others run masked (R158). -/
  lanes : W16 := 0xFFFF
  /-- Parts of operands behind a partner window that have been read for the stitch to come: descriptor, part, bytes. -/
  winData : List (Nat × Nat × List Byte) := []
  /-- Commands for a raw run, to be applied at its next stitch boundary (R157): queue pair, entry. -/
  cmds : List (Nat × BitVec 512) := []
  /-- Tokens a prefill run takes (R159). -/
  count : Nat := 0
  /-- Another run of the program has output slots that overlap this one's (R112). -/
  clash : Bool := false
  /-- Collectives, BARRIERs and SIGNALs that may go on, and the tick since which they have made no progress, for
  STITCH_TIMEOUT (R87). -/
  stalled : List (Nat × Nat) := []
deriving DecidableEq, Repr

/-- Arithmetic and runs. -/
structure Piers where
  piers : Tbl PierSt := []
  /-- Deployed model of each context, by context number. -/
  models : List (Nat × Model) := []
  /-- POOL allocations: context, pier, local base, bytes (R136, R162, Table 15-11). -/
  pool : List (Nat × Nat × Nat × Nat) := []
  runs : List Run := []
  nextRun : Nat := 1
  /-- Exceptions recorded: run, stitch index, code, pier (R87). -/
  excs : List (Nat × Nat × Nat × Nat) := []
  stitchTimeout : W32 := 100000
  offloadTimeout : W32 := 1000000
deriving DecidableEq, Repr

end Sys2Proof.Machine
end

