-- ==== Sys2Proof/State/Saddlebag.lean ====
section
/-!
DEFINITION. State/Saddlebag.lean: mailbox channels (16_saddlebags.md).
-/
namespace Sys2Proof.Machine

/-- Channel c (Table 16-3). -/
structure SbChannel where
  sender : Byte := 0
  receiver : Byte := 0
  /-- SB_MSG 0 to 15. -/
  msg : List W32 := List.replicate 16 0
  busy : Bool := false
  goSeq : Byte := 0
  len : BitVec 5 := 0
  ackSeq : Byte := 0
  detail : Byte := 0
  status : Byte := 0
deriving DecidableEq, Repr

/-- Saddlebags (Tables 16-3, 16-4). -/
structure Saddlebag where
  channels : Tbl SbChannel := []
  lock : Bool := false
  hostDb : W32 := 0
  hostMask : W32 := 0xFFFFFFFF
  hostRxpend : W64 := 0
  hostIen : Bool := false
  hostVector : BitVec 11 := 0
  /-- DROPPED for the next notice of core 0 and of core 6 (R401). -/
  dropped0 : Byte := 0
  dropped6 : Byte := 0
deriving DecidableEq, Repr

end Sys2Proof.Machine
end

