-- ==== Sys2Proof/State/Security.lean ====
section
/-!
DEFINITION. State/Security.lean: SPDM sessions, contexts, key store (13_security.md). Keys are named by the number of
the DRBG draw that made them; 0 is no key (notes/assumptions/6.md).
-/
namespace Sys2Proof.Machine

/-- Lifecycle (Table 13-1). -/
inductive Lifecycle where
  | blank | provisioned | deployed | retired
deriving DecidableEq, Repr

/-- CTX_STATE (Table 13-3). -/
inductive CtxState where
  | free | created | keyed | bound
deriving DecidableEq, Repr

/-- Key slot state (R340). -/
inductive SlotState where
  | empty | live | retiring
deriving DecidableEq, Repr

/-- A key-store slot (R340). -/
structure KeySlot where
  key : Nat := 0
  st : SlotState := .empty
deriving DecidableEq, Repr

/-- CTX_ADMIT n and the context record (Tables 13-3, 13-7, R340). -/
structure Context where
  admitted : Bool := false
  hostmem : Bool := false
  st : CtxState := .free
  epoch : BitVec 2 := 0
  rotOpen : Bool := false
  burnishOpen : Bool := false
  oldPages : W32 := 0
  /-- 0: a shadow with no owner (R338). -/
  owner : Nat := 0
  cred : W64 := 0
  hostmemOn : Bool := false
  modelKey : Nat := 0
  keyId : W32 := 0
  /-- Spill counter (R343). -/
  spillCtr : W64 := 0
  /-- Spill area (Table 15-11). -/
  spillVa : W64 := 0
  spillSlots : W32 := 0
  spillSlotKib : W16 := 64
  /-- Spill slots in use. -/
  spillUsed : List Nat := []
  /-- Pages and extents withheld from allocation by a burnish (R350): pier, local base, bytes; an extent stands as 1,024,
  its first line, its lines. -/
  withheld : List (Nat × Nat × Nat) := []
  /-- Change stamp of the record, for attestation (R339). -/
  stamp : Nat := 0
deriving DecidableEq, Repr

/-- An SPDM session (R333 to R339). -/
structure Session where
  id : Nat
  /-- FINISH has been accepted. -/
  secured : Bool
  mutualAuth : Bool
  /-- Hash of the requester's leaf key; 0: not authenticated. -/
  requester : Nat
  selected : Option Nat
  /-- Of the latest signed response that covered indices 1 to 12: the context selected, the stamps of the indices (R339). -/
  covered : Option (Nat × List Nat)
  keyGen : Nat
deriving DecidableEq, Repr

/-- A chunked transfer (R333): session, handle, next sequence number, bytes so far. -/
structure Chunked where
  session : SessionId
  handle : Byte
  seq : W16
  bytes : List Byte
deriving DecidableEq, Repr

/-- A BUNDLE record received at training step 5 (R338, R346). -/
structure Bundle where
  ctx : Nat
  keyId : W32
  modelKey : Nat
  cred : W64
  owner : Nat
  hostmem : Bool
  state : BitVec 2
deriving DecidableEq, Repr

/-- The security root. -/
structure Security where
  lifecycle : Lifecycle := .deployed
  minSvn : Byte := 0
  fwSvn : Byte := 0
  sessions : List Session := []
  /-- GET_VERSION, GET_CAPABILITIES, NEGOTIATE_ALGORITHMS done on the mailbox: 0 to 3. -/
  conn : Nat := 0
  chunks : List Chunked := []
  contexts : Tbl Context := []
  /-- Key slot 2n + g. -/
  slots : Tbl KeySlot := []
  hostKey : Nat := 1
  serviceKey : Nat := 2
  scrubKey : Nat := 0
  /-- Next DRBG draw. -/
  draw : Nat := 3
  /-- Change stamps of measurement indices 2, 3, 10 and 11 (R335). -/
  stamps : Tbl Nat := []
  sweepShare : Byte := 2
  girthPeer : Tbl (BitVec 384) := []
  -- Pair key exchange (R344)
  kxStep : Nat := 0
  pairKey : Nat := 0
  bundles : List Bundle := []
  /-- Session key of each girth port, and its ratchets (R345, R347). -/
  girthKeys : Tbl Nat := []
  /-- CTX_CREATE responses waiting for the mirror (R338): JOURNAL tag, session. -/
  createWait : List (W32 × SessionId) := []
deriving DecidableEq, Repr

end Sys2Proof.Machine
end

