-- ==== Sys2Proof/State/Power.lean ====
section
/-!
DEFINITION. State/Power.lean: rails, resets, start-up and the retained block (14_power_and_startup.md).
-/
namespace Sys2Proof.Machine

/-- REGION_BASE n and REGION_SHAPE n (Tables 4-3, 4-4), fields as encoded there. -/
structure Region where
  valid : Bool := false
  owner : BitVec 2 := 0
  pierLocal : Bool := false
  granule : BitVec 2 := 0
  mirror : Bool := false
  use : BitVec 3 := 0
  dpaBase : BitVec 17 := 0
  localBase : BitVec 11 := 0
  size : BitVec 18 := 0
  pierFirst : BitVec 9 := 0
  pierCount : BitVec 9 := 0
deriving DecidableEq, Repr

/-- Where a copy of a mirror pair's lines lies: in the pier's own footprint, or in its spare portion. -/
structure Seat where
  pier : Nat
  inSpare : Bool
deriving DecidableEq, Repr

/-- A spare assignment of R125: mirror pair `pair` of region entry `entry`, and its two copies in the order reads try
them. A spare portion holds the two shares of pier `layout`, the first survivor, as they lie there. -/
structure Spare where
  entry : Nat
  pair : Nat
  first : Seat
  second : Seat
  layout : Nat
deriving DecidableEq, Repr

/-- Where the package stands between power-off and service (R357, R361). -/
inductive Phase where
  /-- MOD_RST_N low. -/
  | inReset
  /-- A start-up step of Table 14-3 is in progress. -/
  | starting
  /-- Step 7 has passed. -/
  | served
  /-- A step overran its bound (R358). -/
  | failed
deriving DecidableEq, Repr

/-- Retained block (R361); reset values are its power-on defaults. -/
structure Retained where
  pairMode : Bool := false
  cohProtocol : Bool := false
  nodeId : Byte := 0xFF
  /-- Training values of the four stacks are held (R357 step 5). -/
  trained : BitVec 4 := 0
  /-- The region table at the last LOCK (R361). -/
  regions : Option (Tbl Region) := none
  spares : List Spare := []
  prevPairState : BitVec 3 := 0
  resetTs : W64 := 0
  prevFirstFt : BitVec 12 := 0xFFF
  chipResets : W16 := 0
  cause : BitVec 4 := 1
deriving DecidableEq, Repr

/-- Power, resets and start-up (Table 14-7, R353 to R362). -/
structure Power where
  phase : Phase := .starting
  modRstN : Bool := true
  perstN : Bool := true
  /-- The start in progress is a start after power-on (Table 14-3). -/
  cold : Bool := true
  step : Nat := 1
  stepStart : Nat := 0
  done : Bool := false
  failStep : BitVec 3 := 0
  journalDiscarded : Bool := false
  recovered : Bool := false
  retained : Retained := {}
  railOk : Byte := 0
  alert : Byte := 0
  alertCode : Byte := 0
  vcoreMeasMv : W16 := 0
  /-- Deadline of the outstanding private read on the PM link (R354). -/
  pmRead : Option Nat := none
  /-- Readings of the last 1,000 ticks: tick, whole degrees C (R355). -/
  readings : List (Nat × Int) := []
  lastReading : Nat := 0
  /-- Readings have stopped for 1,000 ticks: refresh at the fast rate until they resume (R355). -/
  thermalLost : Bool := false
  /-- The instruction in the test controller (R366). -/
  jtag : JtagInstr := .bypass
deriving DecidableEq, Repr

end Sys2Proof.Machine
end

