-- ==== Sys2Proof/State/Store.lean ====
section
/-!
DEFINITION. State/Store.lean: stacked store, HBM, region table (04_stacked_store.md).
-/
namespace Sys2Proof.Machine

/-- Byte-addressed memory: (address, byte) pairs, addresses strictly rising, no entry 0; an unlisted byte is 0. -/
abbrev Mem := List Host.Cell

/-- Side information of a written line (Table 4-8). CHECK is not stored: it is a function of the rest (`checkSymbols`,
R127), and symbol errors are the operand of a read. `key` names the key the line was encrypted under
(notes/assumptions/6.md). -/
structure Side where
  /-- Written 0 and ignored; only a miscorrection sets it. -/
  spare : Bool := false
  ctxTag : BitVec 12 := 0
  epoch : BitVec 2 := 0
  poison : Bool := false
  key : Nat := 0
deriving DecidableEq, Repr

/-- A copy in progress for a mirror pair: the rebuild of R125, or with `back` the copy-back of R414. -/
structure Rebuild where
  entry : Nat
  pair : Nat
  /-- The copy that is read. -/
  src : Seat
  /-- The copy that is written beside it. -/
  dst : Seat
  layout : Nat
  back : Bool
deriving DecidableEq, Repr

/-- Device memory. A line's key is pier * 2^26 + (local address / 64); a byte's is pier * 2^32 + local address. -/
structure Store where
  /-- Plaintext of the written lines. -/
  cells : Mem := []
  /-- Side information; a line without an entry is still zero ciphertext, CTX_TAG 0, EPOCH 0, POISON 0 (R357). -/
  side : Tbl Side := []
  /-- A host-side reset has zeroed the request window: its lines without an entry read 0 (R228). -/
  windowZero : Bool := false
  /-- A host-side reset waits for the last run to end; then every unit enters self-refresh (R364). -/
  hostSleep : Bool := false
  /-- Scratch SRAM of the piers, byte key pier * 2^19 + offset (R42). -/
  scratch : Mem := []
  regions : Tbl Region := []
  lock : Bool := false
  errCode : Byte := 0
  errEntry : BitVec 6 := 0
  spares : List Spare := []
  rebuilds : List Rebuild := []
  scrubHours : Byte := 24
  /-- Next line the scrubber reads, per pier (R131). -/
  scrubPos : Tbl Nat := []
  srIdle : W16 := 1000
  /-- Self-refresh, per tier (4 * vault + tier) and sixteenth (1024 + n) (R133). -/
  selfRefresh : Tbl Bool := []
  lastAccess : Tbl Nat := []
  /-- Open row (plus 1) of a bank, key pier * 64 + bank number; 0: none (R115). -/
  openRow : Tbl Nat := []
  /-- Tick of the last refresh: of a tier or sixteenth by its number, of bank b of sixteenth n under 1088 + 64 n + b. -/
  lastRefresh : Tbl Nat := []
  /-- What each stack's temperature read-out last gave (R117). -/
  stackTemp : Tbl Byte := []
deriving DecidableEq, Repr

end Sys2Proof.Machine
end

