-- ==== Sys2Proof/State/Translate.lean ====
section
/-!
DEFINITION. State/Translate.lean: translation and transfer engines (09_translation.md).
-/
namespace Sys2Proof.Machine

/-- PTE_LEVEL l (Table 9-3). -/
structure PteLevel where
  idxLo : Byte
  idxWidth : Byte
  leafOk : Byte
  rsvTable : W64
  rsvLeaf : W64
deriving DecidableEq, Repr

/-- Why an engine runs its descriptor (R270, R274). -/
inductive XferUse where
  | spill (recd : Nat) (page : Nat)
  | readback (recd : Nat) (page : Nat)
  | longOp (slot : Nat)
  | other
deriving DecidableEq, Repr

/-- A held translation (Table 9-7). -/
structure XEntry where
  /-- First byte of the virtual range it maps. -/
  va : Nat
  hpa : BitVec 52
  size : BitVec 2
  w : Bool
  stale : Bool
deriving DecidableEq, Repr

/-- A walk in flight (R268): its walker, the page, the level whose entry is read, that entry's address, whether an invalidation has
discarded the result (R273), and how often the read has been issued again (R222). -/
structure WalkPos where
  walker : Nat
  page : Nat
  level : Nat
  at_ : Nat
  discarded : Bool := false
  retries : Nat := 0
  /-- The read waits for a free tag. -/
  toIssue : Bool := false
deriving DecidableEq, Repr

/-- A transfer descriptor in an engine (Tables 9-6, 9-7, R270, R271). -/
structure Xfer where
  op : Byte
  heat : Bool
  ctx : Nat
  cls : Nat
  va : W64
  dpa : W64
  length : Nat
  tag : W32
  use : XferUse
  /-- Resolved entries in ascending address order; the next page to resolve follows the last. -/
  entries : List XEntry
  /-- Bytes moved, a multiple of 65,536 until the end. -/
  moved : Nat
  /-- Page requests already made: page number, how many (R272). -/
  asked : List (Nat × Nat)
  /-- PRG index it waits on. -/
  waitPrg : Option Nat
  /-- A chunk is in progress. -/
  chunk : Bool
  /-- The chunk goes out untranslated (Table 9-1). -/
  bypass : Bool := false
  /-- The walk in flight of its next page. -/
  walk : Option WalkPos := none
  /-- An invalidation marked an entry STALE: stop at the next chunk boundary (R273). -/
  stopped : Bool
  /-- ATS Translation Request out: its page, and whether an invalidation has discarded its result (R273). -/
  atsPage : Option (Nat × Bool) := none
  /-- Host reads of the chunk still to be issued: address, bytes, retries made (R220, R222). -/
  toRead : List (Nat × Nat × Nat) := []
  /-- A window read of the chunk came back poisoned or refused (R195). -/
  poison : Bool := false
  /-- The HDM lines of the next chunk have been asked for through the device cache (R234). -/
  asked64 : Bool := false
  /-- Those that have come: data, poison. -/
  got : List (LineAddr × LineData × Bool) := []
  /-- The chunk's data is out; its WR_INVs may still wait at their homes (R271). -/
  written : Bool := false
deriving DecidableEq, Repr

/-- A page-request fault record, index = PRG index (R272). -/
structure Prg where
  index : Nat
  pasid : BitVec 20
  page : Nat
  write : Bool
  engines : List Nat
  deadline : Nat
deriving DecidableEq, Repr

/-- A walk-cache entry (R269), most recently used last. -/
structure WalkEntry where
  pasid : BitVec 20
  level : Nat
  vaTop : Nat
  pte : W64
deriving DecidableEq, Repr

/-- A heat counter (R275). -/
structure Heat where
  slot : Nat
  ctx : Nat
  region : Nat
  count : Nat
  reported : Bool
deriving DecidableEq, Repr

/-- An ATS invalidation accepted and not completed (R273). -/
structure AtsInv where
  itag : Nat
  engines : List Nat
deriving DecidableEq, Repr

/-- Translation. -/
structure Translate where
  levels : Byte := 4
  addrHi : Byte := 51
  pBit : Byte := 0x00
  wBit : Byte := 0x01
  uBit : Byte := 0x02
  aBit : Byte := 0x05
  dBit : Byte := 0x06
  largeBit : Byte := 0x07
  flags : Byte := 0x02
  valid : Bool := false
  errCode : Byte := 0
  level : List PteLevel := [⟨12, 9, 0, 0, 0⟩, ⟨21, 9, 1, 0, 0⟩, ⟨30, 9, 1, 0, 0⟩, ⟨39, 9, 0, 0, 0⟩, ⟨48, 9, 0, 0, 0⟩]
  /-- Context roots: ROOT and ROOT_VALID (Table 9-13). -/
  roots : Tbl (BitVec 52 × Bool) := []
  engines : Tbl (Option Xfer) := []
  /-- Engines whose descriptor translates, in submission order (R268). -/
  walkQ : List Nat := []
  /-- At most 1,024, the most recently used last. -/
  walkCache : List WalkEntry := []
  prgs : List Prg := []
  /-- Quarantined PRG indices and the ticks they leave at. -/
  prgQuar : List (Nat × Nat) := []
  /-- Outstanding Page Request Allocation, set by the host (PCIe). -/
  prAlloc : Nat := 0
  priStopped : Bool := false
  invs : List AtsInv := []
  /-- Invalidate Requests in the port's posted queue, oldest first: ITag, PASID, first byte, bytes, Global (R264). -/
  invWait : List (Nat × BitVec 20 × W64 × Nat × Bool) := []
  heats : List Heat := []
  nextDecay : Nat := 100000000
  hotBase : BitVec 52 := 0
  hotEn : Bool := false
  hotIen : Bool := false
  hotVector : BitVec 11 := 0
  hotSize : BitVec 4 := 0
  hotHead : W16 := 0
  hotW : Nat := 0
  priTimeout : W32 := 200000000
  classImage : Byte := 2
  classMigrate : Byte := 2
  hotThreshold : W32 := 32768
  decayTicks : W32 := 100000000
deriving DecidableEq, Repr

end Sys2Proof.Machine
end

