-- ==== Sys2Proof/Machine/State.lean ====
section
/-!
DEFINITION. Machine/State.lean: the state of Idern, its reset, and the reasons a step may stop for.
-/
namespace Sys2Proof.Machine

/-- Faults. Idern reports its own faults through the collector and goes on, so no command ends in one. -/
inductive Fault where
  /-- Raised by no command: every fault the spec describes is an effect on State (R315 to R329). Safe. -/
  | stuck
deriving DecidableEq, Repr

/-- Refusals. -/
inductive Refusal where
  /-- Raised by the arms of Dispatch.lean for a command without a meaning. Safe. -/
  | notModelled (mnemonic : String)
deriving DecidableEq, Repr

/-- The state of Idern: one structure per chapter of the spec, and the model's own fields at the end. -/
structure State where
  pace : Pace := {}
  /-- TS_NOW (Table 1-6). -/
  tsNow : W64 := 0
  /-- Trestle cores 0 to 7. -/
  trestle : Tbl Trestle := []
  piers : Piers := {}
  store : Store := {}
  service : Service := {}
  pair : Pair := {}
  viaduct : Viaduct := {}
  host : HostPort := {}
  coh : Coherence := {}
  xl : Translate := {}
  girth : Girth := {}
  deck : Deck := {}
  faults : Faults := {}
  sec : Security := {}
  power : Power := {}
  milell : Milell := {}
  sb : Saddlebag := {}
  obs : Observe := {}
  /-- Model's own: TS edges since reset, which every timeout counts (R36); unlike TS_NOW it is never slewed. -/
  ticks : Nat := 0
  /-- Model's own: how many free values have been taken (notes/assumptions/1.md). -/
  freeCtr : Nat := 0
  /-- Model's own: everything that has left the block, oldest first (notes/assumptions/5.md). -/
  out : List Output := []
  /-- Model's own: commands waiting, first in, first out. -/
  pending : List Instr := []
deriving DecidableEq, Repr

/-- Idern right after reset: power has come on, MOD_RST_N has risen, and start-up step 1 is in progress; every
register holds its reset value (R13, Table 14-4). -/
def State.reset : State := {}

end Sys2Proof.Machine
end

