-- ==== Sys2Proof/Machine/Table.lean ====
section
/-!
DEFINITION. Machine/Table.lean: reading and writing sparse tables and memories in their canonical form, and small list
and bit helpers.
-/
namespace Sys2Proof.Machine

/-- The value at key `k`; an unlisted key holds its default `d k`. -/
def tget {α : Type} (d : Nat → α) : Tbl α → Nat → α
  | [], k => d k
  | (j, v) :: t, k => if j = k then v else tget d t k

/-- The table with an entry for a key it does not list, before the first higher key. -/
def tput {α : Type} : Tbl α → Nat → α → Tbl α
  | [], k, v => [(k, v)]
  | (j, w) :: t, k, v => if k < j then (k, v) :: (j, w) :: t else (j, w) :: tput t k v

/-- Writes `v` at key `k` and keeps the canonical form: every earlier entry of the key goes, and a default is not listed. -/
def tset {α : Type} [DecidableEq α] (d : Nat → α) (t : Tbl α) (k : Nat) (v : α) : Tbl α :=
  if v = d k then t.filter (fun e => e.1 ≠ k) else tput (t.filter (fun e => e.1 ≠ k)) k v

/-- Changes the value at key `k`. -/
def tmod {α : Type} [DecidableEq α] (d : Nat → α) (t : Tbl α) (k : Nat) (f : α → α) : Tbl α :=
  tset d t k (f (tget d t k))

/-- Canonical form: keys strictly rising, no entry that holds its key's default. -/
def tblWf {α : Type} [DecidableEq α] (d : Nat → α) : Tbl α → Bool
  | [] => true
  | [(k, v)] => decide (v ≠ d k)
  | (k, v) :: (j, w) :: t => decide (k < j) && decide (v ≠ d k) && tblWf d ((j, w) :: t)

/-- Memory bytes: an unlisted byte reads 0. -/
def mget (m : Mem) (a : Nat) : Byte := tget (fun _ => 0) m a
def mset (m : Mem) (a : Nat) (b : Byte) : Mem := tset (fun _ => 0) m a b

/-- Canonical form of a memory. -/
def Memory.wf (m : Mem) : Bool := tblWf (fun _ => (0 : Byte)) m

/-- `n` bytes from address `a`. -/
def mgetN (m : Mem) (a : Nat) : Nat → List Byte
  | 0 => []
  | n + 1 => mget m a :: mgetN m (a + 1) n

/-- Writes bytes from address `a` on. -/
def msetN (m : Mem) (a : Nat) : List Byte → Mem
  | [] => m
  | b :: bs => msetN (mset m a b) (a + 1) bs

/-- Little-endian value of a byte list (R10). -/
def leNat : List Byte → Nat
  | [] => 0
  | b :: bs => b.toNat + 256 * leNat bs

/-- The `n` little-endian bytes of a value (R10). -/
def leBytes : Nat → Nat → List Byte
  | 0, _ => []
  | n + 1, v => BitVec.ofNat 8 v :: leBytes n (v / 256)

def le16 (l : List Byte) : W16 := BitVec.ofNat 16 (leNat (l.take 2))
def le32 (l : List Byte) : W32 := BitVec.ofNat 32 (leNat (l.take 4))
def le64 (l : List Byte) : W64 := BitVec.ofNat 64 (leNat (l.take 8))

/-- Bytes `off` to `off + n - 1` of a byte list, zeros beyond its end. -/
def slice (l : List Byte) (off n : Nat) : List Byte :=
  let t := (l.drop off).take n
  t ++ List.replicate (n - t.length) 0

/-- Bytes of a line, byte 0 first, and back. -/
def lineBytes (d : LineData) : List Byte := leBytes 64 d.toNat
def bytesLine (l : List Byte) : LineData := BitVec.ofNat 512 (leNat (l.take 64))

/-- Pads with zeros to a multiple of `n` bytes. -/
def padTo (n : Nat) (l : List Byte) : List Byte :=
  l ++ List.replicate ((n - l.length % n) % n) 0

/-- A byte list in pieces of `n` (at most `fuel` of them). -/
def chunksOf (n : Nat) : Nat → List Byte → List (List Byte)
  | 0, _ => []
  | fuel + 1, l => if l.isEmpty then [] else l.take n :: chunksOf n fuel (l.drop n)

/-- The lines that hold a byte list. -/
def toLines (l : List Byte) : List LineData := (chunksOf 64 (l.length / 64 + 1) l).map bytesLine

/-- Field of a bit vector as a number: `len` bits from bit `lo`. -/
def fld {w : Nat} (v : BitVec w) (lo len : Nat) : Nat := v.toNat / 2 ^ lo % 2 ^ len

/-- The vector with bit `b` set, and with bit `b` clear. -/
def withBit {w : Nat} (v : BitVec w) (b : Nat) : BitVec w := v ||| ((1 : BitVec w) <<< b)
def dropBit {w : Nat} (v : BitVec w) (b : Nat) : BitVec w := v &&& ~~~((1 : BitVec w) <<< b)

/-- One bit as a number. -/
def b2n (b : Bool) : Nat := if b then 1 else 0

/-- Adds without wrapping past the type's largest value. -/
def satAdd {w : Nat} (v : BitVec w) (n : Nat) : BitVec w :=
  if v.toNat + n < 2 ^ w then v + BitVec.ofNat w n else BitVec.allOnes w

/-- The first element that satisfies `p`, replaced by `f` of it. -/
def modFirst {α : Type} (p : α → Bool) (f : α → α) : List α → List α
  | [] => []
  | x :: xs => if p x then f x :: xs else x :: modFirst p f xs

/-- Every element that satisfies `p`, changed by `f`. -/
def modAll {α : Type} (p : α → Bool) (f : α → α) (l : List α) : List α :=
  l.map (fun x => if p x then f x else x)

/-- Removes the first element that satisfies `p`. -/
def dropFirst {α : Type} (p : α → Bool) : List α → List α
  | [] => []
  | x :: xs => if p x then xs else x :: dropFirst p xs

/-- The least number below `n` that satisfies `p`. -/
def findBelow (n : Nat) (p : Nat → Bool) : Option Nat := (List.range n).find? p

/-- Applies `f` for every element, in order. -/
def foldS {α : Type} (l : List α) (f : α → State → State) (s : State) : State := l.foldl (fun s x => f x s) s

end Sys2Proof.Machine
end

