-- ==== Sys2Proof/Machine/CheckCode.lean ====
section
/-!
DEFINITION. Machine/CheckCode.lean: the Reed-Solomon check code of a line over GF(2^16) (04_stacked_store.md R126, R127).
The code is linear, so what a decoder does to a stored codeword with errors depends on the errors alone.
-/
namespace Sys2Proof.Machine

/-! ### GF(2^16), polynomial 1100Bh -/

/-- Product by α. -/
def gfShift (a : W16) : W16 := if a.getLsbD 15 then (a <<< 1) ^^^ 0x100B else a <<< 1

/-- Product in the field: Horner's rule over the bits of `b`, the highest first. -/
def gfMul (a b : W16) : W16 :=
  (List.range 16).foldl (fun r i => gfShift r ^^^ (if b.getLsbD (15 - i) then a else 0)) 0

/-- α^n. -/
def alphaPow : Nat → W16
  | 0 => 1
  | n + 1 => gfShift (alphaPow n)

/-- Value at `x` of the polynomial whose coefficients are the symbols, s0 the highest. -/
def polyAt (x : W16) (syms : List W16) : W16 := syms.foldl (fun r v => gfMul r x ^^^ v) 0

/-! ### Symbols of a line (Table 4-8) -/

/-- Symbol s32: SPARE, CTX_TAG, EPOCH, POISON. -/
def sideSymbol (x : Side) : W16 :=
  BitVec.ofNat 16 (b2n x.spare * 2 ^ 15 + x.ctxTag.toNat * 8 + x.epoch.toNat * 2 + b2n x.poison)

/-- Symbols s0 to s32 of stored bytes `c` (the ciphertext, R342) and side information. -/
def messageOf (c : LineData) (x : Side) : List W16 :=
  (List.range 32).map (fun i => BitVec.ofNat 16 (fld c (16 * i) 16)) ++ [sideSymbol x]

/-- CHECK: the remainder of the message times x^3 by (x + 1)(x + α)(x + α^2) = x^3 + 7 x^2 + Eh x + 8. -/
def checkSymbols (msg : List W16) : List W16 :=
  let r := msg.foldl (fun (r : W16 × W16 × W16) v =>
    let f := v ^^^ r.1
    (r.2.1 ^^^ gfMul f 7, r.2.2 ^^^ gfMul f 14, gfMul f 8)) (0, 0, 0)
  [r.1, r.2.1, r.2.2]

/-- The 36 symbols stored for a line. -/
def codeword (c : LineData) (x : Side) : List W16 := messageOf c x ++ checkSymbols (messageOf c x)

/-! ### Decoding -/

/-- Outcome of the check code at one read (R127, R128). -/
inductive CheckOut where
  /-- The syndromes are 0. -/
  | clean
  /-- One symbol is corrected: its number and the value added to it. -/
  | corrected (sym : Nat) (val : W16)
  /-- No one symbol explains the syndromes. -/
  | uncorrectable
deriving DecidableEq, Repr

/-- The decoder: the one symbol whose error has the syndromes of `word`, if there is one. -/
def decodeWord (word : List W16) : CheckOut :=
  let s0 := polyAt 1 word
  let s1 := polyAt 2 word
  let s2 := polyAt 4 word
  if s0 = 0 && s1 = 0 && s2 = 0 then .clean
  else match (List.range 36).find? (fun i => s0 ≠ 0 && s1 = gfMul s0 (alphaPow (35 - i)) && s2 = gfMul s1 (alphaPow (35 - i))) with
    | some i => .corrected i s0
    | none => .uncorrectable

/-- Errors of a read by symbol: what is added to each. -/
def errorWord (errs : List (Fin 36 × W16)) : List W16 :=
  (List.range 36).map (fun i => errs.foldl (fun v e => if e.1.val = i then v ^^^ e.2 else v) 0)

def checkOut (errs : List (Fin 36 × W16)) : CheckOut := decodeWord (errorWord errs)

/-- Errors that stay in the symbols once the decoder has acted. -/
def residual (errs : List (Fin 36 × W16)) : List W16 :=
  match checkOut errs with
  | .corrected i v => (errorWord errs).mapIdx (fun j e => if j = i then e ^^^ v else e)
  | _ => errorWord errs

/-- Side information with an error in symbol s32. -/
def sideError (x : Side) (e : W16) : Side :=
  { x with spare := x.spare ^^ e.getLsbD 15, ctxTag := x.ctxTag ^^^ BitVec.ofNat 12 (fld e 3 12)
           epoch := x.epoch ^^^ BitVec.ofNat 2 (fld e 1 2), poison := x.poison ^^ e.getLsbD 0 }

end Sys2Proof.Machine
end

