-- ==== Sys2Proof/Machine/FaultTable.lean ====
section
/-!
DEFINITION. Machine/FaultTable.lean: the source table (Table 12-5, Table 10-9) and the reaction bits (Table 12-2).
-/
namespace Sys2Proof.Machine

/-- Reaction bits (Table 12-2). -/
def rInt : BitVec 6 := 0b000001
def rTrap : BitVec 6 := 0b000010
def rBlkrst : BitVec 6 := 0b000100
def rChiprst : BitVec 6 := 0b001000
def rPin : BitVec 6 := 0b010000
def rFence : BitVec 6 := 0b100000

/-- A row of Table 12-5: classes the source can report, kind, block, whether FENCE and BLKRST name one, and the fused
reaction sets. -/
structure SrcInfo where
  canCe : Bool := false
  canUc : Bool := false
  canFt : Bool := false
  level : Bool := false
  block : Option Block := none
  fenceOk : Bool := false
  blkrstOk : Bool := false
  ce : BitVec 6 := 0
  uc : BitVec 6 := 0
  ft : BitVec 6 := 0

/-- Domain number as a block. -/
def domBlock (d : Nat) : Block := .domain (Fin.ofNat 332 d)

/-- Row of Table 12-5 for a girth-port source, in Table 10-9 order. -/
def portSrc (n i : Nat) : SrcInfo :=
  let b := some (Block.port (Fin.ofNat 6 n))
  if i = 0 then { canCe := true, block := b, fenceOk := true, ce := rInt }
  else if i = 3 ∨ i = 4 then { canUc := true, block := b, fenceOk := true, uc := rInt }
  else { canUc := true, block := b, fenceOk := true, uc := rInt ||| rTrap ||| rFence }

/-- The row of Table 12-5 that names source `n`. -/
def srcInfo (n : Nat) : SrcInfo :=
  let ftAll := rInt ||| rTrap ||| rPin ||| rChiprst
  if n < 320 then
    { canCe := true, canUc := true, block := some (domBlock n), fenceOk := true, blkrstOk := true, ce := rInt, uc := rInt }
  else if n < 640 then
    { canUc := true, block := some (domBlock (n - 320)), fenceOk := true, blkrstOk := true, uc := rInt }
  else if n < 960 then { canUc := true, uc := rInt ||| rTrap }
  else if n < 1280 then
    { canCe := true, canUc := true, block := some (domBlock (n - 960)), fenceOk := true, blkrstOk := true,
      ce := rInt, uc := rInt ||| rTrap ||| rFence }
  else if n < 1344 then { canCe := true, canUc := true, ce := rInt, uc := rInt ||| rTrap }
  else if n < 1348 then
    { canFt := true, block := some (domBlock (320 + (n - 1344))), fenceOk := true,
      ft := rInt ||| rTrap ||| rPin ||| rFence }
  else if n < 1384 then { canUc := true, uc := rInt ||| rTrap }
  else if n < 1779 then { canUc := true, uc := rInt }
  else if n < 1811 then
    { canCe := true, canUc := true, block := some (domBlock (324 + (n - 1779) / 2 / 4)), fenceOk := true,
      ce := rInt, uc := rInt ||| rTrap ||| rFence }
  else if n < 2195 then { canCe := true, canFt := true, ce := rInt, ft := ftAll }
  else if n < 2579 then { canUc := true, uc := rInt }
  else if n < 2708 then { canCe := true, canFt := true, ce := rInt, ft := ftAll }
  else if n < 2772 then
    { canCe := true, canUc := true, block := some (.engine (Fin.ofNat 64 (n - 2708))), blkrstOk := true,
      ce := rInt, uc := rInt ||| rTrap ||| rBlkrst }
  else if n < 2836 then { canUc := true, uc := rInt }
  else if n < 2852 then
    if n % 2 = 0 then { canCe := true, canFt := true, ce := rInt, ft := ftAll } else { canFt := true, ft := ftAll }
  else if n < 2868 then
    let i := (n - 2852) % 4
    { canCe := i = 1 || i = 2, canUc := true, level := i = 1, block := some (domBlock (328 + (n - 2852) / 4)),
      fenceOk := true, ce := if i = 1 || i = 2 then rInt else 0, uc := rInt ||| rTrap ||| rFence }
  else if n < 2916 then portSrc ((n - 2868) / 8) ((n - 2868) % 8)
  else if n < 2923 then
    if n = 2918 ∨ n = 2921 then { canCe := true, ce := rInt } else { canUc := true, level := n = 2916, uc := rInt }
  else if n < 2930 then
    { canCe := n = 2923 || n = 2927, canUc := n ≠ 2927 && n ≠ 2928, canFt := n = 2928, level := n = 2923,
      block := some .pair, fenceOk := true, ce := if n = 2923 || n = 2927 then rInt else 0,
      uc := if n = 2925 then rInt ||| rTrap else if n ≠ 2927 && n ≠ 2928 then rInt else 0,
      ft := if n = 2928 then rInt ||| rTrap ||| rPin else 0 }
  else if n < 2932 then { canUc := true, uc := rInt }
  else if n = 2932 then { canCe := true, ce := rInt }
  else if n = 2933 then { canCe := true, canFt := true, ce := rInt, ft := ftAll }
  else if n < 2940 then
    { canCe := n = 2934, canUc := true, level := n = 2934 || n = 2935, ce := if n = 2934 then rInt else 0,
      uc := if n = 2934 || n = 2935 || n = 2938 then rInt ||| rTrap else rInt }
  else if n = 2940 then { canCe := true, canFt := true, ce := rInt, ft := ftAll }
  else if n = 2941 then { canFt := true, ft := ftAll }
  else if n = 2942 then { canCe := true, canUc := true, level := true, ce := rInt, uc := rInt }
  else if n = 2943 then { canCe := true, canUc := true, ce := rInt, uc := rInt }
  else {}

/-- The switched domain that holds source `n`, if any (R317). -/
def srcDomain (n : Nat) : Option Nat :=
  if n < 1280 then some (n % 320)
  else if n < 1344 then some (320 + (n - 1280) / 16)
  else if n < 1348 then some (320 + (n - 1344))
  else if n < 1384 then some (320 + (n - 1348) / 9)
  else if n < 1779 then none
  else if n < 1811 then some (324 + (n - 1779) / 2 / 4)
  else if n < 2852 then none
  else if n < 2868 then some (328 + (n - 2852) / 4)
  else none

/-- Source `n` at reset: fused reaction sets, everything else 0 (Table 12-3). -/
def srcReset (n : Nat) : FaultSource :=
  { reactCe := (srcInfo n).ce, reactUc := (srcInfo n).uc, reactFt := (srcInfo n).ft }

/-- The source can report the class. -/
def SrcInfo.can (i : SrcInfo) : FaultClass → Bool
  | .ce => i.canCe
  | .uc => i.canUc
  | .ft => i.canFt

/-- The highest class the source can report (R315). -/
def SrcInfo.highest (i : SrcInfo) : FaultClass := if i.canFt then .ft else if i.canUc then .uc else .ce

/-- A reaction set as R320 stores it: no FENCE or BLKRST without a block, TRAP with FENCE or BLKRST, PIN and TRAP in an
FT set, and RSV for a class the source cannot report. -/
def normReact (i : SrcInfo) (c : FaultClass) (v : BitVec 6) : BitVec 6 :=
  if i.can c then
    let v := if i.fenceOk then v else v &&& ~~~rFence
    let v := if i.blkrstOk then v else v &&& ~~~rBlkrst
    let v := if c = .ft then v ||| rPin ||| rTrap else v
    if v &&& (rFence ||| rBlkrst) = 0 then v else v ||| rTrap
  else 0

end Sys2Proof.Machine
end

