-- ==== Sys2Proof/Machine/Ops.lean ====
section
/-!
DEFINITION. Machine/Ops.lean: the operations every chapter shares: outputs, counters, trace, interrupts, emergency
messages, the collector's latch, doorbells, notices, the chip reset, free values, time.
-/
namespace Sys2Proof.Machine

/-! ### Outputs and free values -/

/-- Something leaves the block. -/
def emit (o : Output) (s : State) : State := { s with out := s.out ++ [o] }

/-- Takes the next free value: its index, and the state with the index used up. -/
def drawFree (s : State) : Nat × State := (s.freeCtr, { s with freeCtr := s.freeCtr + 1 })

/-! ### Counters (R410, R411) -/

/-- Adds `n` to counter `k`; it saturates at all ones. -/
def countN (k n : Nat) (s : State) : State :=
  { s with obs := { s.obs with counters := tmod (fun _ => 0) s.obs.counters k (satAdd · n) } }

def count (k : Nat) (s : State) : State := countN k 1 s

/-- The count of an ignored register write at a BAR0 offset (R411). -/
def countIgnored (off : Nat) (s : State) : State :=
  if off < 0x400000 then
    (if 0xB0000 ≤ off ∧ off < 0xB4000 then count (2700 + (off - 0xB0000) / 0x100) s
     else if 0xC0000 ≤ off ∧ off < 0xD0000 then count 2770 s
     else count (2624 + off / 0x10000) s)
  else if off < 0x600000 then count 2688 s
  else if off < 0x608000 then count 2689 s
  else s

/-! ### Time -/

/-- One TS edge passes with no command waiting (notes/assumptions/4.md). -/
def tick (s : State) : State :=
  let held := s.pair.tsSkip || s.power.phase = .inReset
  { s with ticks := s.ticks + 1, tsNow := if held then s.tsNow else s.tsNow + 1
           pair := { s.pair with tsSkip := false } }

/-- A deadline has come (R36). -/
def due (d : Nat) (s : State) : Bool := decide (d ≤ s.ticks)

/-- Expiry of a timeout of `n` ticks that starts now: the n-th TS edge after the first edge after the event (R36). -/
def after (n : Nat) (s : State) : Nat := s.ticks + 1 + n

/-- Logic outside VAUX runs: MOD_RST_N is high and no entry into reset holds it (R361). -/
def alive (s : State) : Bool := s.power.phase ≠ .inReset

/-- Writes of registers and dictionary entries take effect: not in reset, and not in the safe state (R328). -/
def writable (s : State) : Bool := alive s && !s.faults.safe

/-! ### Host requests -/

/-- A host-side reset is in progress (R228). -/
def resetBusy (s : State) : Bool := s.host.flr.isSome || s.host.cxlReset.isSome

/-- Bus Master Enable as it acts: D3hot acts as if it were clear (Table 7-2). -/
def bmeOn (s : State) : Bool := s.host.bme && !s.host.d3hot

/-- Idern may issue requests to host memory (R227, R228, R328). -/
def canRequest (s : State) : Bool :=
  s.host.dlUp && bmeOn s && !resetBusy s && !s.faults.safe && s.power.phase = .served

/-- CXL.cache carries requests: it needs the 256-byte flit mode (R199). -/
def cacheLink (s : State) : Bool := canRequest s && s.host.flit256

/-- The host port serves configuration and memory requests: start-up step 7 has passed and the link is up (R358). -/
def hostServes (s : State) : Bool := s.host.dlUp && s.power.phase = .served

/-- Configuration requests are served, also in the safe state and while a failed IDE stream is down (R229, R328, R358). -/
def cfgOpen (s : State) : Bool := s.host.phyUp && s.power.phase = .served

/-- Writes of BAR0 registers are carried out (R225, R328, R358): the port serves, Memory Space Enable is 1, the function is
in D0, and the safe state does not drop them. -/
def bar0Open (s : State) : Bool := hostServes s && s.host.mse && !s.host.d3hot && !s.faults.safe

/-- Accesses of doorbells and BAR4 are carried out: no host-side reset is in progress either (Table 7-13). -/
def barOpen (s : State) : Bool := bar0Open s && !resetBusy s

/-- INTA mode lets an INTx message leave: MSI-X Enable and Interrupt Disable clear (R219), a link that carries traffic, no
host-side reset (R226, R228), and not the safe state (R328). -/
def mayIntx (s : State) : Bool :=
  !s.host.msixEn && !s.host.intxDisable && s.host.dlUp && !resetBusy s && !s.faults.safe

/-- A bit of the AER Uncorrectable Error Status register is logged (PCIe). -/
def aerLog (bit : Nat) (s : State) : State := { s with host := { s.host with aerUncorr := withBit s.host.aerUncorr bit } }

/-- UR: logged in AER and counted (R225, R358). -/
def answerUr (s : State) : State := emit (.cpl .ur) (count 2549 (aerLog 20 s))

/-- Answers an access of a BAR that is not carried out (Table 7-13, R328, R358); `bytes` is a read's length. `queue` marks
queue-pair doorbells and BAR4, which answer 0 and drop writes during a host-side reset. -/
def refuseAccess (queue : Bool) (bytes : Option Nat) (s : State) : State :=
  let zeros := fun (s : State) => match bytes with
    | some n => emit (.cpl (.data (List.replicate n 0))) s
    | none => s
  if !alive s || !s.host.dlUp then s
  else if s.power.phase ≠ .served || !s.host.mse || s.host.d3hot then answerUr s
  else if s.faults.safe then zeros s
  else if queue && resetBusy s then zeros (count 2555 (aerLog 20 s))
  else s

/-- A posted write to host memory; the host port counts its bytes. -/
def hostWrite (addr : W64) (pasid : Option (BitVec 20)) (bytes : List Byte) (s : State) (marks : WriteMarks := {}) : State :=
  countN 2545 bytes.length (emit (.hostWrite addr pasid bytes marks) s)

/-! ### Interrupts (R219) -/

/-- One vector's entry; vectors are masked at reset (PCIe). -/
def msixGet (s : State) (v : Nat) : MsixEntry := tget (fun _ => {}) s.host.msix v
def msixSet (v : Nat) (e : MsixEntry) (s : State) : State :=
  { s with host := { s.host with msix := tset (fun _ => {}) s.host.msix v e } }

/-- An interrupt event on a vector (R219). Nothing leaves for a host that may be sent no request (R226 to R228, R328): an
MSI-X vector then pends. -/
def interrupt (vec : BitVec 11) (s : State) : State :=
  let v := vec.toNat
  if s.host.msixEn then
    let e := msixGet s v
    if e.masked || s.host.msixMask || !canRequest s then msixSet v { e with pend := true } s
    else emit (.msix vec) s
  else
    let st := withBit s.host.intxStatus v
    let s1 := { s with host := { s.host with intxStatus := st } }
    if mayIntx s && s.host.intxStatus = 0 then
      emit (.intx true) { s1 with host := { s1.host with intxAsserted := true } }
    else s1

/-! ### Trace (R404 to R409) -/

/-- Unit identifiers used by events (Table 11-3). -/
def uCollector : BitVec 9 := 0x1EC
def uObserve : BitVec 9 := 0x1EE
def uHost : BitVec 9 := 0x1E8
def uViaduct : BitVec 9 := 0x1EA
def uCore (c : Nat) : BitVec 9 := BitVec.ofNat 9 (0x190 + c)
def uPort (n : Nat) : BitVec 9 := BitVec.ofNat 9 (0x1E0 + n)
def uRoot : BitVec 9 := 0x1ED

/-- The codes of Table 17-2. -/
def traceEvents : List Nat :=
  [0x01, 0x02, 0x03, 0x04, 0x05, 0x06, 0x07, 0x08, 0x09, 0x10, 0x11, 0x12, 0x13, 0x14, 0x18, 0x20, 0x21, 0x22, 0x28,
   0x30, 0x31, 0x32, 0x33, 0x38, 0x39, 0x40, 0x41, 0x48]

/-- The host ring is stalled (R408). -/
def ringStalled (s : State) : Bool := !bmeOn s || !s.host.dlUp || resetBusy s || s.faults.safe

/-- A stalled ring skips the records it has not taken (R406, R408). -/
def Observe.skipRing (stalled : Bool) (o : Observe) : Observe :=
  if o.bufEn && stalled && decide (o.ringPos < o.store.length) then
    { o with ringPos := o.store.length, ringLost := true }
  else o

/-- How many records every enabled destination has taken (R406). -/
def Observe.taken (o : Observe) : Nat :=
  if o.portEn && o.bufEn then min o.portPos o.ringPos
  else if o.portEn then o.portPos
  else if o.bufEn then o.ringPos
  else 0

/-- Frees those records. -/
def Observe.free (o : Observe) : Observe :=
  { o with store := o.store.drop o.taken, portPos := o.portPos - o.taken, ringPos := o.ringPos - o.taken }

/-- Frees the records that every enabled destination that is not stalled has taken; a stalled ring skips (R406). -/
def traceTrim (s : State) : State :=
  let skipped := if s.obs.bufEn && ringStalled s then s.obs.store.length - s.obs.ringPos else 0
  countN 2768 skipped { s with obs := (s.obs.skipRing (ringStalled s)).free }

/-- An event reaches the observation unit (R405, R406). -/
def trace (ev : Nat) (unit : BitVec 9) (a b : Nat) (s : State) : State :=
  if !traceEvents.contains ev || !s.obs.eventEn.getLsbD ev then s
  else if 2048 ≤ s.obs.store.length then
    count 2765 { s with obs := { s.obs with portLost := true, ringLost := true } }
  else
    let r : TraceRec := ⟨BitVec.ofNat 8 ev, unit, s.obs.nextSeq, s.tsNow, BitVec.ofNat 64 a, BitVec.ofNat 64 b⟩
    traceTrim (count 2764
      { s with obs := { s.obs with store := s.obs.store ++ [r], nextSeq := s.obs.nextSeq + 1 } })

/-! ### Doorbells (R39) -/

def trestleGet (s : State) (c : Nat) : Trestle := tget (fun _ => {}) s.trestle c
def trestleSet (c : Nat) (t : Trestle) (s : State) : State :=
  { s with trestle := tset (fun _ => {}) s.trestle c t }

/-- Sets doorbell bit `b` of trestle core `c`. -/
def ringDoorbell (c b : Nat) (s : State) : State :=
  let t := trestleGet s c
  trestleSet c { t with doorbell := withBit t.doorbell b } s

/-- A trestle core runs: the safe state halts cores 0 and 2 to 7 (R328). -/
def coreRuns (c : Nat) (s : State) : Bool := alive s && (c = 1 || !s.faults.safe)

/-- The core runs and has no dispatch pending. -/
def coreFree (c : Nat) (s : State) : Bool := coreRuns c s && (trestleGet s c).doorbell = 0

/-- Doorbell bit `b` of the core is dispatched to its handler. -/
def dispatchBit (c b : Nat) (s : State) : State :=
  let t := trestleGet s c
  trestleSet c { t with doorbell := dropBit t.doorbell b, last := some (.bit b) } s

/-! ### The collector's registers -/

def srcGet (s : State) (n : Nat) : FaultSource := tget srcReset s.faults.sources n
def srcSet (n : Nat) (x : FaultSource) (s : State) : State :=
  { s with faults := { s.faults with sources := tset srcReset s.faults.sources n x } }

def pdGet (s : State) (d : Nat) : Pd := tget (fun _ => {}) s.deck.pds d
def pdPut (d : Nat) (p : Pd) (s : State) : State :=
  { s with deck := { s.deck with pds := tset (fun _ => {}) s.deck.pds d p } }

/-- STATE of Table 11-9. -/
def PdState.code : PdState → Nat
  | .on => 0 | .closing => 1 | .off => 2 | .waking => 3 | .fenced => 4

/-- The domain's own unit, which reports its changes of state (Table 17-2). -/
def uDomain (d : Nat) : BitVec 9 :=
  BitVec.ofNat 9 (if d < 320 then d else if d < 324 then 0x140 + 16 * (d - 320) else if d < 328 then 0x180 + 4 * (d - 324)
    else 0x100 + 16 * (d - 328))

/-- A domain's new fields; a change of STATE is a DOMAIN_STATE event (Table 17-2). -/
def pdSet (d : Nat) (p : Pd) (s : State) : State :=
  let old := (pdGet s d).st
  if old = p.st then pdPut d p s
  else trace 0x08 (uDomain d) (d + 65536 * old.code + 1048576 * p.st.code) 0 (pdPut d p s)

/-- The collector samples source `n`: the domain that holds it is ON (R317). -/
def sampled (s : State) (n : Nat) : Bool :=
  match srcDomain n with
  | none => true
  | some d => (pdGet s d).st = .on

/-- LIVE of source `n` (R316, R317). -/
def live (s : State) (n : Nat) : Bool := (srcGet s n).asserted ≠ 0 && sampled s n

def FaultSource.status (x : FaultSource) : FaultClass → Bool
  | .ce => x.ce
  | .uc => x.uc
  | .ft => x.ft
def FaultSource.react (x : FaultSource) : FaultClass → BitVec 6
  | .ce => x.reactCe
  | .uc => x.reactUc
  | .ft => x.reactFt
def FaultSource.setStatus (x : FaultSource) : FaultClass → FaultSource
  | .ce => { x with ce := true }
  | .uc => { x with uc := true }
  | .ft => { x with ft := true }
/-- Any status bit of the source is set (FC_PEND). -/
def FaultSource.any (x : FaultSource) : Bool := x.ce || x.uc || x.ft

/-- A set status bit of the source whose class's reaction set holds PIN (R325). -/
def FaultSource.pins (x : FaultSource) : Bool :=
  (x.ce && x.reactCe &&& rPin ≠ 0) || (x.uc && x.reactUc &&& rPin ≠ 0) || (x.ft && x.reactFt &&& rPin ≠ 0)

/-- ERR_OUT is asserted (R325, R328, R358, R365): a source holds it, the safe state does, chip reset and the start-up
steps before step 3 do, and a failed start does. -/
def errOut (s : State) : Bool :=
  s.faults.safe || s.faults.sources.any (fun e => e.2.pins) ||
    (match s.power.phase with
     | .inReset | .failed => true
     | .starting => s.power.step < 3
     | .served => false)

def portGet (s : State) (n : Nat) : GirthPort := tget (fun _ => {}) s.girth.ports n
def portSet (n : Nat) (p : GirthPort) (s : State) : State :=
  { s with girth := { s.girth with ports := tset (fun _ => {}) s.girth.ports n p } }

/-! ### Emergency messages (R377, R378) -/

/-- The CANopen error register 1001h (R378). -/
def errorReg (s : State) : Byte :=
  let any := fun n => (srcGet s n).any
  BitVec.ofNat 8 (b2n (s.faults.sources.any (fun e => e.2.any)) + 4 * b2n (any 2935 || any 2936)
    + 8 * b2n (any 2934 || any 2938) + 16 * b2n (any 2942)
    + 128 * b2n (s.faults.safe || s.faults.sources.any (fun e => e.2.ft)))

/-- EMCY messages are served: a configured node, booted, not in NMT Stopped (R371, R372). -/
def emcyServed (s : State) : Bool :=
  s.milell.nodeInForce ≠ 0xFF && s.milell.booted && s.milell.nmt ≠ .stopped

/-- Sends the oldest waiting EMCY message if the inhibit time has passed (1015h, in units of 100 us). -/
def emcySend (s : State) : State :=
  match s.milell.emcyQ with
  | [] => s
  | m :: rest =>
    if emcyServed s && decide (s.milell.emcyAfter ≤ s.ticks) && (!s.faults.safe || m.bytes.take 2 = [0x05, 0xFF]) then
      emit (.can (0x80 + s.milell.nodeInForce.toNat) m.bytes)
        { s with milell := { s.milell with emcyQ := rest, emcyAfter := after (s.milell.inhibit.toNat * 10000) s } }
    else s

/-- An EMCY event: its record in 1003h, and its message where EMCY is served (R377); `first` puts it ahead of every
waiting message (the safe-state message). -/
def emcy (code source : Nat) (mfg : List Byte) (first : Bool) (s : State) : State :=
  let m := s.milell
  let s := { s with milell :=
    { m with errors := (BitVec.ofNat 32 (code + 65536 * source) :: m.errors).take 16 } }
  if !emcyServed s then s
  else if 64 ≤ m.emcyQ.length && !first then count 2698 s
  else
    let msg : Emcy := ⟨leBytes 2 code ++ [errorReg s] ++ slice mfg 0 6 ++ [0, 0, 0]⟩
    let q := if first then msg :: m.emcyQ else m.emcyQ ++ [msg]
    emcySend { s with milell := { s.milell with emcyQ := q } }

/-! ### Saddlebag doorbells and notices (R396, R398, R401) -/

def chanGet (s : State) (c : Nat) : SbChannel := tget (fun _ => {}) s.sb.channels c
def chanSet (c : Nat) (x : SbChannel) (s : State) : State :=
  { s with sb := { s.sb with channels := tset (fun _ => {}) s.sb.channels c x } }

/-- A doorbell bit of the host changes from 0 to 1: an unmasked one raises an interrupt event while IEN is 1 (R398). -/
def ringHost (c : Nat) (s : State) : State :=
  let b := c % 32
  let s1 := { s with sb := { s.sb with hostDb := withBit s.sb.hostDb b, hostRxpend := withBit s.sb.hostRxpend c } }
  if !s.sb.hostDb.getLsbD b && !s.sb.hostMask.getLsbD b && s.sb.hostIen then interrupt s.sb.hostVector s1 else s1

/-- A notice of core 0 or core 6 on its channel to the host, if one is bound (R401, Table 16-6). -/
def notice (core kind word1 : Nat) (s : State) : State :=
  let bound := fun c =>
    let x := chanGet s c
    x.sender = BitVec.ofNat 8 (0x10 + core) && x.receiver = 0x01
  match findBelow 64 bound with
  | none => s
  | some c =>
    let x := chanGet s c
    let dropped := if core = 0 then s.sb.dropped0 else s.sb.dropped6
    let setDropped := fun (v : Byte) (s : State) =>
      if core = 0 then { s with sb := { s.sb with dropped0 := v } } else { s with sb := { s.sb with dropped6 := v } }
    if x.busy then setDropped (satAdd dropped 1) s
    else
      let words : List W32 :=
        [BitVec.ofNat 32 (kind * 2 ^ 24 + dropped.toNat * 2 ^ 16), BitVec.ofNat 32 word1,
         s.tsNow.truncate 32, (s.tsNow >>> 32).truncate 32, 0, 0, 0, 0] ++ x.msg.drop 8
      ringHost c (setDropped 0 (chanSet c { x with msg := words, len := 8, busy := true, goSeq := x.goSeq + 1 } s))

/-! ### Measurement stamps (R335, R339) -/

/-- Measurement index `i` changes: attestations that cover it lapse. -/
def restamp (i : Nat) (s : State) : State :=
  { s with sec := { s.sec with stamps := tmod (fun _ => 0) s.sec.stamps i (· + 1) } }

def ctxGet (s : State) (n : Nat) : Context := tget (fun _ => {}) s.sec.contexts n
/-- Writes a context record; its measurement changes when a field of Table 13-3 does. -/
def ctxSet (n : Nat) (x : Context) (s : State) : State :=
  let o := ctxGet s n
  let same := o.st = x.st && o.hostmemOn = x.hostmemOn && o.rotOpen = x.rotOpen && o.epoch = x.epoch &&
    o.burnishOpen = x.burnishOpen && o.keyId = x.keyId && o.owner = x.owner
  let x := if same then x else { x with stamp := x.stamp + 1 }
  { s with sec := { s.sec with contexts := tset (fun _ => {}) s.sec.contexts n x } }

/-! ### Pair state changes -/

def PairSt.code : PairSt → Nat
  | .solo => 0 | .pairing => 1 | .mirrored => 2 | .degraded => 3 | .rejoining => 4

/-- The pair registers in a state just entered: PAIR_CHG, a new epoch in DEGRADED, no role in SOLO (R196). -/
def Pair.enter (st : PairSt) (p : Pair) : Pair :=
  { p with st := st, pairChg := true, epoch := if st = .degraded then p.epoch + 1 else p.epoch
           roleB := p.roleB && st ≠ .solo }

/-- PAIR_STATUS.STATE changes: trace, notice of core 6, PAIR_CHG and its interrupt, measurement 11 (R196, R335, R401). -/
def setPair (st : PairSt) (s : State) : State :=
  if s.pair.st = st then s
  else
    let p := s.pair.enter st
    let s1 := trace 0x10 (uCore 6) (s.pair.st.code + 16 * st.code + 256 * b2n p.roleB + 2 ^ 32 * p.epoch.toNat) 0
      (restamp 11 { s with pair := p })
    let s2 := notice 6 3 st.code s1
    if p.hpIntEn then interrupt s.host.hpVector s2 else s2

/-! ### Chip reset (R360, R361, Table 14-4) -/

/-- Every tier (0 to 1,023) and sixteenth (1,024 to 1,087) in self-refresh. -/
def allSelfRefresh : Tbl Bool := (List.range 1088).map (fun u => (u, true))

/-- The key-store part of a context record, which a chip reset keeps; registers take their reset values. -/
def Context.keyPart (c : Context) : Context :=
  { owner := c.owner, cred := c.cred, hostmemOn := c.hostmemOn, modelKey := c.modelKey, keyId := c.keyId,
    spillCtr := c.spillCtr, stamp := c.stamp + 1 }

/-- Girth ports after a reset: only what GP_PRSNT_N shows stays. -/
def portsIn (s : State) : Tbl GirthPort :=
  (List.range 6).foldl (fun t n => tset (fun _ => {}) t n { present := (portGet s n).present }) []

/-- Chip reset entry and the reset of all logic outside VAUX (R361). With MOD_RST_N high start-up begins at once. -/
def chipReset (cause : BitVec 4) (s : State) : State :=
  let r := s.power.retained
  let r' := { r with cause := cause, prevFirstFt := s.faults.firstFt, prevPairState := BitVec.ofNat 3 s.pair.st.code,
                     resetTs := s.tsNow, chipResets := satAdd r.chipResets 1 }
  let present := s.pair.present
  let pairSt : PairSt := if r.pairMode && present then .pairing else .solo
  let s1 : State :=
    { pending := s.pending, out := s.out, ticks := s.ticks, freeCtr := s.freeCtr
      store := { cells := s.store.cells, side := s.store.side, windowZero := s.store.windowZero
                 selfRefresh := allSelfRefresh }
      sec := { lifecycle := s.sec.lifecycle, minSvn := s.sec.minSvn, hostKey := s.sec.hostKey,
               serviceKey := s.sec.serviceKey, draw := s.sec.draw, slots := s.sec.slots,
               contexts := s.sec.contexts.map (fun e => (e.1, e.2.keyPart)),
               stamps := s.sec.stamps.map (fun e => (e.1, e.2 + 1)) }
      coh := { moesi := r.cohProtocol }
      pair := { st := pairSt, mode := r.pairMode, present := present, pairWaitBy := after 200000000 s
                roleB := s.pair.roleB && pairSt = .pairing
                nextBeat := s.ticks + 100, nextSync := s.ticks + 1000 }
      girth := { ports := portsIn s }
      faults := { nextSweep := s.ticks + 1000 }
      milell := { nodeId := r.nodeId, nodeInForce := r.nodeId }
      power := { phase := if s.power.modRstN then .starting else .inReset, modRstN := s.power.modRstN,
                 perstN := s.power.perstN, cold := false, retained := r', stepStart := s.ticks, jtag := s.power.jtag
                 lastReading := s.ticks }
      pace := { nextUpdate := s.ticks + 100 }
      xl := { nextDecay := s.ticks + 100000000 } }
  trace 0x05 uObserve cause.toNat 0 s1

/-- The beat with FAILING set: the other fields are those of the last beat (R322). -/
def failingBeat (s : State) : Beat :=
  match s.pair.lastBeat with
  | some b => { b with hbSeq := s.pair.hbSeq, failing := true }
  | none =>
    { hbSeq := s.pair.hbSeq, state := BitVec.ofNat 8 s.pair.st.code, role := BitVec.ofNat 8 (b2n s.pair.roleB),
      leaving := false, failing := true, live := true, pairEpoch := s.pair.epoch, freeRecords := 0, freeLines := 0,
      regionLines := 0, ownSerial := Config.serial, fencedPiers := 0, fencedStacks := 0, fencedPorts := 0 }

/-- Key of the viaduct frame of a number (R344, R345): 0 the training key; a session key ratchets every 2^35 frames. -/
def viaKey (s : State) (num : W64) : Nat := if s.sec.pairKey = 0 then 0 else s.sec.pairKey * 2 ^ 32 + num.toNat / 2 ^ 35

/-- CHIPRST and entry to the safe state signal the viaduct adapter (R322): in MIRRORED or REJOINING the FAILING beat
goes out ahead of every queued message first, and what follows waits for it. -/
def handover (next : Option (BitVec 4)) (s : State) : State :=
  if s.faults.handover.isSome then s
  else if s.pair.st = .mirrored || s.pair.st = .rejoining then
    { s with faults := { s.faults with handover := some next }
             viaduct := { s.viaduct with health := [.beat (failingBeat s)], time := [], cursor := [], journal := [],
                                         window := [] }
             pair := { s.pair with hbSeq := s.pair.hbSeq + 1 } }
  else
    match next with
    | some c => chipReset c s
    | none => s

/-! ### Latching a fault (R318, R319) -/

def clsCode : FaultClass → Nat
  | .ce => 1 | .uc => 2 | .ft => 3

/-- EMCY of a latched event: the class enabled by EMCY_MASK, and WIRE (R377). -/
def emcyOf (n : Nat) (c : FaultClass) (fresh wire : Bool) (detail : Nat) (s : State) : State :=
  let mfg := leBytes 2 n ++ leBytes 4 detail
  let s := if fresh && s.milell.emcyMask.getLsbD (clsCode c - 1) then emcy (0xFF00 + clsCode c) n mfg false s else s
  if wire then emcy 0xFF04 n mfg false s else s

/-- The collector has taken its fused reaction sets (Table 14-3 step 3). -/
def reactsNow (s : State) : Bool :=
  match s.power.phase with
  | .inReset => false
  | .starting => decide (3 ≤ s.power.step)
  | .failed => decide (3 ≤ s.power.failStep.toNat)
  | .served => true

/-- The reactions the collector carries out when a status bit goes from 0 to 1 (Table 12-2); PIN is `errOut`. A failed
start only a chip reset from outside starts again (R358): its own source resets nothing. -/
def react (n : Nat) (c : FaultClass) (r : BitVec 6) (vec : BitVec 11) (s : State) : State :=
  if s.faults.safe || !reactsNow s then s
  else
    let s := if r &&& rInt ≠ 0 then interrupt vec s else s
    let s := if r &&& rTrap ≠ 0 then { s with faults := { s.faults with traps := s.faults.traps ++ [(c, n)] } } else s
    if r &&& rChiprst ≠ 0 && s.faults.handover.isNone && !(n = 2941 && s.power.phase = .failed) then handover (some 3) s else s

/-- A source after an event of class `c`: its status bit, DETAIL, COUNT, WIRE and, for the first status bit, FIRST_TS
(R318). -/
def FaultSource.event (c : FaultClass) (wire : Bool) (detail : Nat) (ts : W64) (x : FaultSource) : FaultSource :=
  { x.setStatus c with detail := BitVec.ofNat 32 detail, count := satAdd x.count 1, wire := x.wire || wire
                       firstTs := if x.any then x.firstTs else ts }

/-- The collector's registers after an event; FIRST_FT takes the first fatal source (R318). -/
def latchRegs (n : Nat) (c : FaultClass) (wire : Bool) (detail : Nat) (s : State) : State :=
  let s1 := srcSet n ((srcGet s n).event c wire detail s.tsNow) s
  if c = .ft && s.faults.firstFt = 0xFFF then { s1 with faults := { s1.faults with firstFt := BitVec.ofNat 12 n } } else s1

/-- The class an event is latched in: a wire fault has the highest class its source can report (R315). -/
def latchClass (n : Nat) (c : FaultClass) (wire : Bool) : FaultClass := if wire then (srcInfo n).highest else c

/-- The collector latches an event of source `n` in class `c` (R315 to R319). A source in a domain that is not ON is
not sampled, and a source has no pair for a class it cannot report. -/
def latch (n : Nat) (cls : FaultClass) (wire : Bool) (detail : Nat) (s : State) : State :=
  let c := latchClass n cls wire
  let x := srcGet s n
  if !sampled s n || !(srcInfo n).can c then s
  else
    let s1 := emcyOf n c (!x.status c) (wire && !x.wire) detail
      (trace 0x01 uCollector (n + 4096 * clsCode c + 16384 * b2n wire) detail (latchRegs n c wire detail s))
    if x.status c then s1 else react n c (x.react c) x.vector s1

/-- A unit raises its source: pulse kind (R316). -/
def raise (n : Nat) (c : FaultClass) (detail : Nat) (s : State) : State := latch n c false detail s

/-- A level source's condition begins (an event) or ends (R316). -/
def raiseLevel (n : Nat) (c : FaultClass) (on : Bool) (detail : Nat) (s : State) : State :=
  let x := srcGet s n
  let b := clsCode c - 1
  let was := x.asserted.getLsbD b
  if on && !was then latch n c false detail (srcSet n { x with asserted := withBit x.asserted b } s)
  else if !on && was then srcSet n { x with asserted := dropBit x.asserted b } s
  else s

end Sys2Proof.Machine
end

