-- ==== Sys2Proof/Machine/Directory.lean ====
section
/-!
DEFINITION. Machine/Directory.lean: homes, directory entries and requesters (08_keystones_and_cache.md R232 to R236).
-/
namespace Sys2Proof.Machine

/-! ### Homes (R232, R236) -/

/-- The hash of R232. -/
def homeHash (l : Nat) : Nat :=
  l % 64 ^^^ l / 64 % 64 ^^^ l / 4096 % 64 ^^^ l / 262144 % 64 ^^^ l / 16777216 % 64 ^^^ l / 1073741824 % 4

/-- Quarter that serves the lines of quarter `q` (KS_QMAP). -/
def serving (s : State) (q : Nat) : Nat := fld s.coh.serve (2 * q) 2

def ownQuarter (l : LineAddr) : Nat := homeHash l.toNat / 16

/-- Keystone that serves a line now. -/
def homeOf (s : State) (l : LineAddr) : Nat := serving s (ownQuarter l) * 16 + homeHash l.toNat % 16

def dirSet (l : LineAddr) : Nat := l.toNat / 64 % 32768
def dirTag (l : LineAddr) : BitVec 11 := BitVec.ofNat 11 (l.toNat / 2097152)
def dirBase (s : State) (l : LineAddr) : Nat := homeOf s l * 524288 + dirSet l * 16

def dirAt (s : State) (k : Nat) : DirEntry := tget (fun _ => {}) s.coh.dir k
def dirPut (k : Nat) (e : DirEntry) (s : State) : State :=
  { s with coh := { s.coh with dir := tset (fun _ => {}) s.coh.dir k e } }

/-- The line an entry stands for: its low six bits follow from the keystone, the quarter, the set and the tag. -/
def lineOfEntry (k : Nat) (e : DirEntry) : LineAddr :=
  let hi := e.tag.toNat * 32768 + k / 16 % 32768
  let h := e.quarter.toNat * 16 + k / 524288 % 16
  BitVec.ofNat 32 (hi * 64 + (h ^^^ homeHash (hi * 64)))

/-- The entry that tracks a line. -/
def dirFind (s : State) (l : LineAddr) : Option (Nat × DirEntry) :=
  ((List.range 16).map (fun w => (dirBase s l + w, dirAt s (dirBase s l + w)))).find?
    (fun e => e.2.valid && e.2.tag = dirTag l && e.2.quarter.toNat = ownQuarter l)

/-- An entry with no presence is I and not in use. -/
def DirEntry.norm (e : DirEntry) : DirEntry := if e.presence = 0 then {} else e

/-- The line's entry takes its next state. -/
def dirUpdate (l : LineAddr) (e : DirEntry) (s : State) : State :=
  match dirFind s l with
  | some (k, o) => dirPut k ({ e with valid := true, tag := o.tag, quarter := o.quarter } : DirEntry).norm s
  | none => s

/-- A slot leaves an entry (Table 8-4, CEVICT): X(A) becomes I, F(A) and O(A) become S. -/
def DirEntry.without (e : DirEntry) (a : Nat) : DirEntry :=
  let e1 := { e with presence := dropBit e.presence a }
  if (e.st = .x || e.st = .fo) && e.owner.toNat = a then { e1 with st := if e1.presence = 0 then .i else .s, owner := 0 }
  else if e1.presence = 0 then { e1 with st := .i, owner := 0 } else e1

def DirEntry.has (e : DirEntry) (a : Nat) : Bool := e.presence.getLsbD a
def DirEntry.slots (e : DirEntry) : List Nat := (List.range 9).filter e.has
def DirEntry.owned (e : DirEntry) (moesi : Bool) : Bool := e.st = .x || (e.st = .fo && moesi)

def dpaOf (l : LineAddr) : Nat := l.toNat * 64

/-! ### Requesters -/

/-- Number of a source in Table 12-5's order (1384 onward) and in a girth snoop's ROUTE. -/
def reqNum : Requester → Nat
  | .slot i => i.val
  | .engine e => 9 + e.val
  | .pier p => 73 + p.val
  | .hostIo => 393
  | .window => 394
  | .service => 395

def reqOfNum (n : Nat) : Option Requester :=
  if h : n < 9 then some (.slot ⟨n, h⟩)
  else if n < 73 then some (.engine (Fin.ofNat 64 (n - 9)))
  else if n < 393 then some (.pier (Fin.ofNat 320 (n - 73)))
  else if n = 393 then some .hostIo
  else if n = 394 then some .window
  else if n = 395 then some .service
  else none

/-- Slot of a caching agent. -/
def reqAgent : Requester → Option Nat
  | .slot i => some i.val
  | _ => none

/-! ### Lines that agents hold (R234, R235) -/

/-- The entry of the line at a DPA, where an agent may hold it. -/
def tracked (s : State) (dpa : Nat) : Option DirEntry :=
  if s.coh.dir.isEmpty then none
  else (dirFind s (BitVec.ofNat 32 (dpa / 64))).bind (fun e => if e.2.presence = 0 then none else some e.2)

/-- The line's current data is with an agent outside the block: the host or a chiplet owns it. -/
def outsideOwner (s : State) (dpa : Nat) : Option Nat :=
  (tracked s dpa).bind (fun e =>
    if e.owned s.coh.moesi && e.owner.toNat ≤ 6 then some e.owner.toNat else none)

/-- Requester of a memory access that caches nothing; none for a home's own accesses and the host's CXL.mem requests. -/
def memReqOf : MemRequester → Option Requester
  | .pierEngine p _ => some (.pier p)
  | .transferEngine e _ => some (.engine e)
  | .window _ => some .window
  | .hostIo => some .hostIo
  | .service => some .service
  | _ => none

/-- The quarter that serves the line is mid-move or out of service: the requester holds its request (R251). -/
def homeAway (s : State) (l : LineAddr) : Bool :=
  let q := serving s (ownQuarter l)
  s.coh.qmoves.any (fun m => m.q = q) || s.coh.qFenced.getLsbD q

/-- Its home would not take a request of the line to memory at once: an agent may hold it, a write-back of it waits, another
request is before it, or its home moves (R241, R243, R247, R251). -/
def homeKnows (s : State) (dpa : Nat) : Bool :=
  let l : LineAddr := BitVec.ofNat 32 (dpa / 64)
  (tracked s dpa).isSome || s.coh.txns.any (fun t => t.line = l) || s.coh.evict.any (fun b => b.line = l && !b.written) ||
    s.coh.retried.any (fun x => x.line = l) || s.coh.victims.any (fun v => v.line = l) ||
    s.coh.posted.any (fun p => p.line = l) || homeAway s l

end Sys2Proof.Machine
end

