-- ==== Sys2Proof/Machine/Memory.lean ====
section
/-!
DEFINITION. Machine/Memory.lean: region table, address mapping, lines of device memory, mirrors, scrub and refresh
(04_stacked_store.md; keys by R341, R342).
-/
namespace Sys2Proof.Machine

/-! ### Region table (R119 to R122) -/

def regionGet (t : Tbl Region) (n : Nat) : Region := tget (fun _ => {}) t n

def unit2M : Nat := 2097152

/-- Granule in bytes (Table 4-3). -/
def Region.granBytes (r : Region) : Nat :=
  match r.granule.toNat with
  | 0 => 256 | 1 => 4096 | 2 => 65536 | _ => unit2M

def Region.baseB (r : Region) : Nat := r.dpaBase.toNat * unit2M
def Region.bytes (r : Region) : Nat := r.size.toNat * unit2M
def Region.share (r : Region) : Nat := r.bytes / r.pierCount.toNat
def Region.first (r : Region) : Nat := r.pierFirst.toNat
def Region.count (r : Region) : Nat := r.pierCount.toNat
def Region.localB (r : Region) : Nat := r.localBase.toNat * unit2M
def Region.footprint (r : Region) : Nat := if r.mirror then 3 * r.share else r.share
def Region.hasPier (r : Region) (p : Nat) : Bool := r.first ≤ p && p < r.first + r.count
def Region.isPool (r : Region) : Bool := r.valid && r.owner = 1
def Region.isJournal (r : Region) : Bool := r.valid && r.owner = 2 && r.use = 1
def Region.isWindow (r : Region) : Bool := r.valid && r.owner = 2 && r.use = 0

/-- Two regions' pier sets meet. -/
def Region.meets (a b : Region) : Bool := a.first < b.first + b.count && b.first < a.first + a.count

/-- Two ranges overlap. -/
def overlaps (a n b m : Nat) : Bool := a < b + m && b < a + n

/-- Units of 2 MiB in a pier's local space. -/
def localUnits (p : Nat) : Nat := if p < 256 then 128 else 1536

/-- The valid entries, with their numbers. -/
def validRegions (t : Tbl Region) : List (Nat × Region) := t.filter (fun e => e.2.valid)

/-- The first failing check of Table 4-6, 0 for none. -/
def regionCheck (t : Tbl Region) (n : Nat) (r : Region) : Nat :=
  let endU := r.dpaBase.toNat + r.size.toNat
  let others := (validRegions t).filter (fun e => e.1 ≠ n)
  let inStore := decide (r.dpaBase.toNat < 32768)
  if 131072 < endU || (inStore && 32768 < endU) then 1
  else if !(if inStore then r.first + r.count ≤ 256 else 256 ≤ r.first && r.first + r.count ≤ 320) then 2
  else if r.size = 0 || r.count = 0 || r.size.toNat % r.count ≠ 0 || (r.mirror && r.count % 2 = 1) then 3
  else if localUnits r.first * unit2M < r.localB + r.footprint then 4
  else if others.any (fun e => overlaps r.baseB r.bytes e.2.baseB e.2.bytes) then 5
  else if others.any (fun e => r.meets e.2 && overlaps r.localB r.footprint e.2.localB e.2.footprint) then 6
  else if r.owner = 3 || 1 < r.use.toNat || (r.owner ≠ 2 && (r.mirror || r.use ≠ 0)) then 7
  else 0

/-- Fields of a REGION_BASE word (Table 4-3) over the shape an entry holds. -/
def withBase (r : Region) (v : W64) : Region :=
  { r with owner := BitVec.ofNat 2 (fld v 61 2), pierLocal := v.getLsbD 60, granule := BitVec.ofNat 2 (fld v 58 2)
           mirror := v.getLsbD 57, use := BitVec.ofNat 3 (fld v 54 3), dpaBase := BitVec.ofNat 17 (fld v 21 17) }

/-- Fields of a REGION_SHAPE word (Table 4-4). -/
def withShape (r : Region) (v : W64) : Region :=
  { r with localBase := BitVec.ofNat 11 (fld v 50 11), size := BitVec.ofNat 18 (fld v 32 18)
           pierFirst := BitVec.ofNat 9 (fld v 16 9), pierCount := BitVec.ofNat 9 (fld v 0 9) }

def regionPut (n : Nat) (r : Region) (s : State) : State :=
  { s with store := { s.store with regions := tset (fun _ => {}) s.store.regions n r, windowZero := false } }

def regionErr (code n : Nat) (s : State) : State :=
  { s with store := { s.store with errCode := BitVec.ofNat 8 code, errEntry := BitVec.ofNat 6 n } }

/-- A write of REGION_BASE n with VALID 1 (R121). -/
def regionSet (n : Nat) (v : W64) (s : State) : State :=
  let r := regionGet s.store.regions n
  if s.store.lock || r.valid then countIgnored (0x30000 + 16 * n) s
  else
    let r1 := withBase r v
    let code := regionCheck s.store.regions n r1
    restamp 10 (regionErr code n (regionPut n { r1 with valid := code = 0 } s))

/-- A write that clears VALID alone, or of REGION_BASE with VALID 0 in an entry not in use (R121). -/
def regionClear (n : Nat) (s : State) : State :=
  if s.store.lock then countIgnored (0x30000 + 16 * n) s
  else restamp 10 (regionPut n { regionGet s.store.regions n with valid := false } s)

/-- The table allows the lock (R122). -/
def lockable (t : Tbl Region) : Bool :=
  let sv := (validRegions t).filter (fun e => e.2.owner = 2)
  sv.length = 2 && sv.any (fun e => e.2.use = 0 && e.2.size = 1024) && sv.any (fun e => e.2.use = 1 && e.2.mirror)

/-- An attempt to set LOCK: none where it is refused. The retained block takes the table (R361). -/
def tryLock (s : State) : Option State :=
  if s.store.lock then some s
  else if lockable s.store.regions then
    some (restamp 10
      { s with store := { s.store with lock := true, errCode := 0, errEntry := 0 }
               power := { s.power with retained :=
                 { s.power.retained with regions := some s.store.regions, spares := s.store.spares } } })
  else none

/-- LOCK refused: ERR_CODE 08h (R122). ERR_ENTRY is 0, since no single entry is at fault (DESIGN CHOICE,
notes/assumptions/89.md). -/
def lockRefused (s : State) : State := regionErr 8 0 s

/-- Idern sets LOCK, or refuses to (R122): for a context that is created by no command that could be rejected. -/
def setLock (s : State) : State := (tryLock s).getD (lockRefused s)

def execRegionValidSet (n : Fin 64) (base : W64) (s : State) : Host.Outcome State Fault Refusal :=
  .next (if writable s then regionSet n base s else s)

def execRegionValidClear (n : Fin 64) (s : State) : Host.Outcome State Fault Refusal :=
  .next (if writable s then regionClear n s else s)

/-- REGION_LOCK (R122). -/
def execRegionLock (s : State) : Host.Outcome State Fault Refusal :=
  .next (if writable s then setLock s else s)

/-! ### Mapping (R120, R124, R125) -/

/-- A byte of a pier's local space. -/
structure Place where
  pier : Nat
  addr : Nat
deriving DecidableEq, Repr

/-- Where a DPA lies: entry, region, index in the set and offset in the share. -/
structure Hit where
  entry : Nat
  region : Region
  k : Nat
  off : Nat
deriving DecidableEq, Repr

/-- The map of R120. -/
def mapDpa (t : Tbl Region) (dpa : Nat) : Option Hit :=
  match (validRegions t).find? (fun e => e.2.baseB ≤ dpa && dpa < e.2.baseB + e.2.bytes) with
  | none => none
  | some (n, r) =>
    let o := dpa - r.baseB
    let g := r.granBytes
    if r.pierLocal then some ⟨n, r, o / r.share, o % r.share⟩
    else some ⟨n, r, o / g % r.count, o / g / r.count * g + o % g⟩

/-- The other member of a mirror pair. -/
def mate (r : Region) (k : Nat) : Nat := (k + r.count / 2) % r.count

/-- Number of the mirror pair of index `k`. -/
def pairOf (r : Region) (k : Nat) : Nat := k % (r.count / 2)

/-- Primary and second copy by R120. -/
def primaryPlace (h : Hit) : Place := ⟨h.region.first + h.k, h.region.localB + h.off⟩
def secondPlace (h : Hit) : Place := ⟨h.region.first + mate h.region h.k, h.region.localB + h.region.share + h.off⟩

/-- The copy of a pair's line on pier `p`. -/
def copyOn (h : Hit) (p : Nat) : Place := if p = h.region.first + h.k then primaryPlace h else secondPlace h

/-- The copy at a seat; a spare portion is laid out as the shares of pier `layout`. -/
def seatPlace (h : Hit) (layout : Nat) (x : Seat) : Place :=
  if x.inSpare then ⟨x.pier, (copyOn h layout).addr + 2 * h.region.share⟩ else copyOn h x.pier

/-- Seats of the two copies of pair `pr`, in the order reads try them, and the layout of its spare portions: by the spare
assignment in force, by R120 for index `k` otherwise. -/
def seatsOf (s : State) (entry : Nat) (r : Region) (k : Nat) : Seat × Seat × Nat :=
  match s.store.spares.find? (fun a => a.entry = entry && a.pair = pairOf r k) with
  | some a => (a.first, a.second, a.layout)
  | none => (⟨r.first + k, false⟩, ⟨r.first + mate r k, false⟩, r.first + k)

/-- The copy in progress of a pair. -/
def rebuildOf (s : State) (entry pair : Nat) : Option Rebuild :=
  s.store.rebuilds.find? (fun b => b.entry = entry && b.pair = pair)

/-- Places of the copies in the order reads try them; during a rebuild only its source is read (R124, R125, R414). -/
def readPlaces (s : State) (h : Hit) : List Place :=
  if !h.region.mirror then [primaryPlace h]
  else match rebuildOf s h.entry (pairOf h.region h.k) with
    | some b => [seatPlace h b.layout b.src]
    | none =>
      let (a, b, l) := seatsOf s h.entry h.region h.k
      [seatPlace h l a, seatPlace h l b]

/-- Places a write goes to: both copies, or a rebuild's source and destination. -/
def writePlaces (s : State) (h : Hit) : List Place :=
  if !h.region.mirror then [primaryPlace h]
  else match rebuildOf s h.entry (pairOf h.region h.k) with
    | some b => [seatPlace h b.layout b.src, seatPlace h b.layout b.dst]
    | none =>
      let (a, b, l) := seatsOf s h.entry h.region h.k
      [seatPlace h l a, seatPlace h l b]

/-- The region entry whose share or copy holds a byte of a pier's local space. -/
def regionOfLocal (t : Tbl Region) (p a : Nat) : Option (Nat × Region) :=
  (validRegions t).find? (fun e => e.2.hasPier p && e.2.localB ≤ a && a < e.2.localB + e.2.footprint)

/-- The DPA of a byte in a pier's own share. -/
def dpaOfLocal (t : Tbl Region) (p a : Nat) : Option Nat :=
  (regionOfLocal t p a).map (fun (_, r) =>
    let off := a - r.localB
    let g := r.granBytes
    if r.pierLocal then r.baseB + (p - r.first) * r.share + off
    else r.baseB + (off / g * r.count + (p - r.first)) * g + off % g)

/-! ### Lines (R126 to R130, R341, R342) -/

/-- The pier's memory is in service (R134; a domain that is not ON answers DOMAIN_OFF, Table 11-5). -/
def memUp (s : State) (p : Nat) : Bool := (pdGet s p).st = .on

def lineKey (p a : Nat) : Nat := p * 67108864 + a / 64
def byteKey (p a : Nat) : Nat := p * 4294967296 + a

def sideGet (s : State) (p a : Nat) : Side := tget (fun _ => {}) s.store.side (lineKey p a)

/-- A context's keys. -/
def slotKey (s : State) (ctx epoch : Nat) : Nat :=
  (tget (fun _ => {}) s.sec.slots (2 * ctx + epoch % 2) : KeySlot).key

/-- The epoch is live (R341). -/
def epochLive (c : Context) (e : BitVec 2) : Bool := e = c.epoch || (c.rotOpen && e = c.epoch - 1)

/-- The key that decrypts a line of region `r` with side information `x`: none where R341 refuses the read. -/
def readKey (s : State) (r : Region) (x : Side) : Option Nat :=
  if r.owner = 0 then some s.sec.hostKey
  else if r.owner = 2 then some s.sec.serviceKey
  else
    let k := slotKey s x.ctxTag.toNat x.epoch.toNat
    if epochLive (ctxGet s x.ctxTag.toNat) x.epoch && k ≠ 0 then some k else none

/-- The stored plaintext of a line as key `k` decrypts it; `l` is the line address of the tweak. -/
def decrypt (s : State) (p a k l : Nat) : LineData :=
  let x := sideGet s p a
  if x.key = 0 then
    (if s.store.windowZero && ((regionOfLocal s.store.regions p a).any (fun e => e.2.isWindow)) then 0 else Config.zeroLine k l)
  else
    let d := bytesLine (mgetN s.store.cells (byteKey p (a / 64 * 64)) 64)
    if x.key = k then d else Config.wrongKey x.key k l d

/-- Data and poison of a line. -/
structure Line where
  data : LineData
  poison : Bool
deriving DecidableEq, Repr

def poisonedZeros : Line := ⟨0, true⟩

/-- The line address of a place, for the tweak: both copies of a mirrored line share the primary's. -/
def tweakOf (s : State) (p a : Nat) : Nat := ((dpaOfLocal s.store.regions p a).getD 0) / 64

/-- A line at a place as it stands, with the key refused or not. -/
def lineAt (s : State) (r : Region) (p a l : Nat) : Option Line :=
  match readKey s r (sideGet s p a) with
  | none => none
  | some k => some ⟨decrypt s p a k l, (sideGet s p a).poison⟩

/-- Stores a whole line with its side information. -/
def putLine (p a : Nat) (d : LineData) (x : Side) (s : State) : State :=
  { s with store := { s.store with
      cells := msetN s.store.cells (byteKey p (a / 64 * 64)) (lineBytes d)
      side := tset (fun _ => {}) s.store.side (lineKey p a) x } }

/-- Context a requester acts for. -/
def reqCtx : MemRequester → Option Nat
  | .pierEngine _ c | .transferEngine _ c | .window c => some c
  | _ => none

/-- R130 checks the tag for pier engines, transfer engines and windows (R195). -/
def reqTagged : MemRequester → Option Nat
  | .pierEngine _ c | .transferEngine _ c | .window c => some c
  | _ => none

/-- The "other" counter of the requesting unit (R411). -/
def reqOther : MemRequester → Nat
  | .pierEngine p _ => 4 * p.val + 3
  | .transferEngine e _ => 1601 + 2 * e.val
  | .keystone k => 1283 + 4 * k.val
  | .hostMem | .hostIo => 2555
  | .window _ => 2581
  | .service => 2611

/-- Refresh unit of a local address (R132, R133). -/
def refreshUnitOf (p a : Nat) : Nat := if p < 256 then 4 * p + a / 2048 % 4 else 1024 + (p - 256)

/-- Bank of a local address (Tables 4-1, 4-2) and its row. -/
def bankOf (p a : Nat) : Nat :=
  p * 64 + (if p < 256 then a / 2048 % 4 * 16 + a / 8192 % 16 else a / 64 % 4 * 16 + a / 4096 % 16)
def rowOf (p a : Nat) : Nat := if p < 256 then a / 131072 % 2048 else a / 65536 % 65536

/-- An access opens its row, wakes its tier or sixteenth and restarts its idle time (R115, R133). -/
def touch (p a : Nat) (s : State) : State :=
  let u := refreshUnitOf p a
  { s with store := { s.store with
      openRow := tset (fun _ => 0) s.store.openRow (bankOf p a) (rowOf p a + 1)
      selfRefresh := tset (fun _ => false) s.store.selfRefresh u false
      lastAccess := tset (fun _ => 0) s.store.lastAccess u s.ticks } }

/-- What a read does to the stored line and what it reports (Table 4-9); what is left in error after the decoder acted is
stored. Errors left in data symbols lie in ciphertext, so the data they give is free. -/
def checkLine (p a : Nat) (errs : List (Fin 36 × W16)) (s : State) : State :=
  let (n, s0) := drawFree s
  let x := sideGet s p a
  let left := residual errs
  let dataBad := (left.take 32).any (· ≠ 0)
  let old := bytesLine (mgetN s.store.cells (byteKey p (a / 64 * 64)) 64)
  let d := if dataBad then Config.freeLine n else old
  let x1 := sideError x (left.getD 32 0)
  let x2 := { x1 with key := if dataBad && x.key = 0 then 1 else x.key }
  let counted := if x2.poison then count (4 * p + 3) else id
  match checkOut errs with
  | .clean => counted (if left.all (· = 0) then s else putLine p a d x2 s0)
  | .corrected _ _ => counted (raise p .ce (a / 64) (if left.all (· = 0) then s else putLine p a d x2 s0))
  | .uncorrectable => raise p .uc (a / 64) (putLine p a d { x2 with poison := true } s0)

/-- A read is refused: a requester that acts for a context meets another context's POOL line (R130), or the line has no
key that may read it (R341). -/
def tagRefuses (s : State) (r : Region) (ctx : Option Nat) (p a : Nat) : Bool :=
  let x := sideGet s p a
  (r.owner = 1 && (ctx.map (fun c => decide (x.ctxTag.toNat ≠ c))).getD false) || (readKey s r x).isNone

/-- A read at one place (R128, R130, R341): the line delivered. -/
def readPlace (r : Region) (req : MemRequester) (p a l : Nat) (errs : List (Fin 36 × W16)) (s : State) : Line × State :=
  let s1 := checkLine p a errs (touch p a s)
  if tagRefuses s1 r (reqTagged req) p a then
    (poisonedZeros, count (4 * p + 3) (raise (640 + p) .uc ((reqCtx req).getD 0) s1))
  else ((lineAt s1 r p a l).getD poisonedZeros, s1)

/-- An unmapped access (R123). -/
def unmapped (req : MemRequester) (s : State) : State := count (reqOther req) (raise 2930 .uc 0 s)

/-- A read of the line at a DPA (R123, R124, R128, R134). -/
def memRead (dpa : Nat) (req : MemRequester) (errs : List (Fin 36 × W16)) (s : State) : Line × State :=
  match mapDpa s.store.regions dpa with
  | none => (poisonedZeros, unmapped req s)
  | some h =>
    match (readPlaces s h).filter (fun c => memUp s c.pier) with
    | [] => (poisonedZeros, s)
    | [c] => readPlace h.region req c.pier c.addr (dpa / 64) errs s
    | c :: c2 :: _ =>
      let (ln, s1) := readPlace h.region req c.pier c.addr (dpa / 64) errs s
      if !ln.poison then (ln, s1)
      else
        let (ln2, s2) := readPlace h.region req c2.pier c2.addr (dpa / 64) [] s1
        (ln2, putLine c.pier c.addr ln2.data { sideGet s2 c2.pier c2.addr with poison := ln2.poison } s2)

/-- Bytes of `new` where the mask has its bit, of `old` elsewhere. -/
def mergeLine (old new : LineData) (mask : W64) : LineData :=
  bytesLine ((List.range 64).map (fun i =>
    if mask.getLsbD i then BitVec.ofNat 8 (fld new (8 * i) 8) else BitVec.ofNat 8 (fld old (8 * i) 8)))

/-- Key of a line's track count (R235). -/
def trackKey (s : State) (l : LineAddr) : Option Nat :=
  (mapDpa s.store.regions (dpaOf l)).map (fun h =>
    let c := primaryPlace h
    c.pier * 2048 + c.addr / unit2M)

def trackGet (s : State) (k : Nat) : W16 := tget (fun _ => 0) s.coh.track k

/-- The 2 MiB of a line has tracked lines: a pier engine's access goes to the line's home (R235). -/
def viaHome (s : State) (dpa : Nat) : Bool := (trackKey s (BitVec.ofNat 32 (dpa / 64))).any (fun k => trackGet s k ≠ 0)

/-- The line's home accepts a request (R411). -/
def homeCount (dpa : Nat) (s : State) : State := count (1280 + 4 * homeOf s (BitVec.ofNat 32 (dpa / 64))) s

/-- What a line holds for a requester that caches nothing (R234, R235, R241): memory, an owner's copy where an agent owns
the line, overlaid with stores whose WR_INV has not completed. -/
def coherent (s : State) (dpa : Nat) (mem : Line) : Line :=
  if s.coh.dir.isEmpty && s.coh.evict.isEmpty && s.coh.posted.isEmpty then mem
  else
    let l : LineAddr := BitVec.ofNat 32 (dpa / 64)
    let base := match outsideOwner s dpa with
      | some a => ⟨Config.agentLine a (dpa / 64) (s.ticks + s.freeCtr), false⟩
      | none =>
        match s.coh.trestleLines.find? (fun e => e.1 = dpa / 64 && (e.2.st = .m || (e.2.st = .f && s.coh.moesi)) &&
            !s.coh.evict.any (fun b => b.line = l && b.slot = 8)) with
        | some e => ⟨e.2.data, e.2.poison⟩
        | none =>
          match (s.coh.evict.filter (fun b => b.line = l && !b.written)).getLast? with
          | some b => ⟨b.data, b.poison⟩
          | none => mem
    (s.coh.posted.filter (fun p => p.line = l)).foldl (fun x p => ⟨mergeLine x.data p.data p.mask, x.poison || p.poison⟩) base

/-- The line at a DPA as it stands, without an access: what a read of a sound line would deliver. -/
def peekLine (s : State) (dpa : Nat) : Line :=
  match mapDpa s.store.regions dpa with
  | none => poisonedZeros
  | some h =>
    let ls := ((readPlaces s h).filter (fun c => memUp s c.pier)).map
      (fun c => (lineAt s h.region c.pier c.addr (dpa / 64)).getD poisonedZeros)
    coherent s dpa ((ls.find? (fun l => !l.poison)).getD (ls.headD poisonedZeros))

/-- Side information a write of context `ctx` gives a line (R129, R341). -/
def writeSide (s : State) (r : Region) (ctx : Nat) : Side :=
  if r.owner = 1 then
    let e := (ctxGet s ctx).epoch
    { ctxTag := BitVec.ofNat 12 ctx, epoch := e, key := slotKey s ctx e.toNat }
  else { key := if r.owner = 0 then s.sec.hostKey else s.sec.serviceKey }

/-- A write at one place; a partial write merges into the stored line and keeps its poison (R115, R129). A write under
a context without a key is dropped (notes/assumptions/14.md). -/
def writePlace (r : Region) (ctx p a l : Nat) (d : LineData) (mask : W64) (poison : Bool) (s : State) : State :=
  let x := writeSide s r ctx
  let s1 := touch p a s
  if x.key = 0 then s1
  else if mask = BitVec.allOnes 64 then putLine p a d { x with poison := poison } s1
  else
    let old := (lineAt s1 r p a l).getD poisonedZeros
    putLine p a (mergeLine old.data d mask) { x with poison := old.poison || poison } s1

/-- A write of a line at a DPA for context `ctx` (R123, R124, R129, R134). -/
def memWriteFor (ctx dpa : Nat) (req : MemRequester) (d : LineData) (mask : W64) (poison : Bool) (s : State) : State :=
  match mapDpa s.store.regions dpa with
  | none => unmapped req s
  | some h =>
    match (writePlaces s h).filter (fun c => memUp s c.pier) with
    | [] => count (reqOther req) s
    | cs => foldS cs (fun c => writePlace h.region ctx c.pier c.addr (dpa / 64) d mask poison) s

def memWrite (dpa : Nat) (req : MemRequester) (d : LineData) (mask : W64) (poison : Bool) (s : State) : State :=
  memWriteFor ((reqCtx req).getD 0) dpa req d mask poison s

/-- Context tag of the line at a DPA, and its region. -/
def lineTag (s : State) (dpa : Nat) : Option (Region × Nat) :=
  (mapDpa s.store.regions dpa).map (fun h =>
    let c := primaryPlace h
    (h.region, (sideGet s c.pier c.addr).ctxTag.toNat))

/-- A store of a requester that caches nothing, as a WR_INV (R234): one that the line's home can serve at once reaches
memory, another waits for the home. -/
def storeFor (ctx dpa : Nat) (req : MemRequester) (d : LineData) (mask : W64) (poison : Bool) (s : State) : State :=
  match memReqOf req with
  | some r =>
    -- writes through a window are accepted in the order they were sent (R195)
    if homeKnows s dpa || (r = .window && s.coh.posted.any (fun p => p.requester = .window)) then
      { s with coh := { s.coh with posted := s.coh.posted ++ [⟨r, ctx, BitVec.ofNat 32 (dpa / 64), d, mask, poison, none⟩] } }
    else memWriteFor ctx dpa req d mask poison (homeCount dpa s)
  | none => memWriteFor ctx dpa req d mask poison s

/-- MEMORY_WRITE (R129). -/
def execMemoryWrite (dpa : Dpa) (req : MemRequester) (data : LineData) (mask : W64) (poison : Bool) (s : State) :
    Host.Outcome State Fault Refusal :=
  .next (if alive s then memWrite (dpa.toNat / 64 * 64) req data mask poison s else s)

/-- CHECK of a line as it is stored (R126, R127, R342): the symbols of its ciphertext and side information. A line of zero
ciphertext has zero data symbols. -/
def storedCheck (s : State) (p a : Nat) : List W16 :=
  let x := sideGet s p a
  let d := bytesLine (mgetN s.store.cells (byteKey p (a / 64 * 64)) 64)
  checkSymbols (messageOf (if x.key = 0 then 0 else Config.cipherLine x.key (tweakOf s p a) d) x)

/-! ### Byte runs of service and engine accesses -/

/-- `n` bytes from a DPA as the service reads them. -/
def peekBytes (s : State) (dpa n : Nat) : List Byte :=
  let first := dpa / 64
  let lines := (List.range ((dpa + n + 63) / 64 - first)).flatMap (fun i => lineBytes (peekLine s ((first + i) * 64)).data)
  slice lines (dpa % 64) n

/-- Any line of a byte run delivers poison. -/
def peekPoison (s : State) (dpa n : Nat) : Bool :=
  (List.range ((dpa + n + 63) / 64 - dpa / 64)).any (fun i => (peekLine s ((dpa / 64 + i) * 64)).poison)

/-- The copy in force of the line at a DPA refuses a requester. -/
def dpaRefuses (s : State) (dpa : Nat) (ctx : Option Nat) : Bool :=
  match mapDpa s.store.regions dpa with
  | some h => ((readPlaces s h).filter (fun c => memUp s c.pier)).head?.any (fun c => tagRefuses s h.region ctx c.pier c.addr)
  | none => true

/-- One line as a requester that caches nothing reads it with RD_CUR: the access itself (R123, R124, R128, R130), and what
an agent holds of the line where the read is not refused (R234). -/
def readLine (req : MemRequester) (dpa : Nat) (s : State) : Line × State :=
  let (ln, s1) := memRead dpa req [] (if (memReqOf req).isSome then homeCount dpa s else s)
  (if dpaRefuses s1 dpa (reqTagged req) then ln else coherent s1 dpa ln, s1)

/-- A requester reads `n` bytes from a DPA: the bytes, whether a line came with poison, and the state. -/
def readRun (req : MemRequester) (dpa n : Nat) (s : State) : List Byte × Bool × State :=
  let r := (List.range ((dpa + n + 63) / 64 - dpa / 64)).foldl (fun (acc : List Byte × Bool × State) i =>
    let (ln, s1) := readLine req ((dpa / 64 + i) * 64) acc.2.2
    (acc.1 ++ lineBytes ln.data, acc.2.1 || ln.poison, s1)) ([], false, s)
  (slice r.1 (dpa % 64) n, r.2.1, r.2.2)

/-- Writes a byte run at a DPA, line by line. -/
def pokeBytes (req : MemRequester) (dpa : Nat) (l : List Byte) (s : State) : State :=
  foldS (List.range ((dpa + l.length + 63) / 64 - dpa / 64))
    (fun i s =>
      let base := (dpa / 64 + i) * 64
      let at_ := fun j => base + j - dpa
      let inside := fun j => decide (dpa ≤ base + j ∧ base + j < dpa + l.length)
      let d := bytesLine ((List.range 64).map (fun j => if inside j then l.getD (at_ j) 0 else 0))
      let mask := BitVec.ofNat 64 (leNat ((List.range 8).map (fun b =>
        BitVec.ofNat 8 ((List.range 8).foldl (fun m k => m + b2n (inside (8 * b + k)) * 2 ^ k) 0))))
      storeFor ((reqCtx req).getD 0) base req d mask false s) s

/-- A line of a pier's own memory as its engine reads it for context `c`: zeros with poison where the memory is out of
service, unmapped, or refused by R130 or R341. -/
def engineLine (s : State) (p a c : Nat) : Line :=
  match regionOfLocal s.store.regions p a with
  | none => poisonedZeros
  | some (_, r) =>
    let dpa := (dpaOfLocal s.store.regions p a).getD 0
    let mem := (lineAt s r p a (tweakOf s p a)).getD poisonedZeros
    if !memUp s p || tagRefuses s r (some c) p a then poisonedZeros
    else if viaHome s dpa then coherent s dpa mem
    else mem

/-- What the engine's read of a line does beside delivering it: the access opens its row (R115, R133); a refused one is
reported (R130), an unmapped one raised (R123), a poisoned line counted (R128). -/
def engineAccess (p c a : Nat) (s : State) : State :=
  match regionOfLocal s.store.regions p a with
  | none => unmapped (.pierEngine (Fin.ofNat 320 p) (Fin.ofNat 4096 c)) s
  | some (_, r) =>
    if !memUp s p then s
    else
      let dpa := (dpaOfLocal s.store.regions p a).getD 0
      let s1 := touch p a (if viaHome s dpa then homeCount dpa s else s)
      if tagRefuses s r (some c) p a then count (4 * p + 3) (raise (640 + p) .uc c s1)
      else if (sideGet s p a).poison then count (4 * p + 3) s1
      else s1

/-- One byte of a pier's own memory. -/
def engineByte (s : State) (p a c : Nat) : Byte :=
  BitVec.ofNat 8 (fld (engineLine s p a c).data (8 * (a % 64)) 8)

/-- The engine writes one byte run of a pier's own memory for context `c`. -/
def engineWrite (p a c : Nat) (l : List Byte) (s : State) : State :=
  foldS (List.range ((a + l.length + 63) / 64 - a / 64))
    (fun i s =>
      let base := (a / 64 + i) * 64
      match regionOfLocal s.store.regions p base with
      | none => unmapped (.pierEngine (Fin.ofNat 320 p) (Fin.ofNat 4096 c)) s
      | some (_, r) =>
        if !memUp s p then count (4 * p + 3) s
        else
          let inside := fun j => decide (a ≤ base + j ∧ base + j < a + l.length)
          let d := bytesLine ((List.range 64).map (fun j => if inside j then l.getD (base + j - a) 0 else 0))
          let mask := BitVec.ofNat 64 ((List.range 64).foldl (fun m k => m + b2n (inside k) * 2 ^ k) 0)
          let dpa := (dpaOfLocal s.store.regions p base).getD 0
          if viaHome s dpa then storeFor c (dpa / 64 * 64) (.pierEngine (Fin.ofNat 320 p) (Fin.ofNat 4096 c)) d mask false s
          else writePlace r c p base (tweakOf s p base) d mask false s) s

/-! ### Rebuilds of mirror pairs (R125, R414) -/

/-- Copies `n` bytes of lines with their side information from one pier's local range to another's. -/
def copyLines (p a q b n : Nat) (s : State) : State :=
  let lo := lineKey p a
  let hi := lo + n / 64
  let dest := lineKey q b
  let inFrom := fun k => decide (lo ≤ k ∧ k < hi)
  let inTo := fun k => decide (dest ≤ k ∧ k < dest + n / 64)
  let side := s.store.side
  let kept := side.filter (fun e => !inTo e.1)
  let moved := side.filter (fun e => inFrom e.1)
  let cells0 := s.store.cells.filter (fun e => !(decide (byteKey q b ≤ e.1 ∧ e.1 < byteKey q b + n)))
  let s0 := { s with store := { s.store with side := kept, cells := cells0 } }
  foldS moved (fun e s =>
    let i := (e.1 - lo) * 64
    let data := bytesLine (mgetN cells0 (byteKey p (a + i)) 64)
    putLine q (b + i) data e.2 s) s0

/-- Copies a pair's lines from one seat to another: between the two footprints each share goes to the other's place,
otherwise the two shares keep their order. -/
def copySeats (b : Rebuild) (s : State) : State :=
  let r := regionGet s.store.regions b.entry
  let base := fun (x : Seat) => r.localB + (if x.inSpare then 2 * r.share else 0)
  if b.src.inSpare || b.dst.inSpare then
    copyLines b.src.pier (base b.src) b.dst.pier (base b.dst) (2 * r.share) s
  else
    copyLines b.src.pier (r.localB + r.share) b.dst.pier r.localB r.share
      (copyLines b.src.pier r.localB b.dst.pier (r.localB + r.share) r.share s)

/-- Starts the rebuild of the pair of index `k` from its surviving copy (R125 steps 1 and 2); a pair without one, or
without an unused spare portion, stays unprotected. -/
def startRebuild (entry k : Nat) (survivor : Option Seat) (s : State) : State :=
  let r := regionGet s.store.regions entry
  let layout : Option Nat := match s.store.spares.find? (fun a => a.entry = entry && a.pair = pairOf r k) with
    | some a => some a.layout
    | none => survivor.map (fun x => x.pier)
  let taken := (s.store.spares.filter (·.entry = entry)).flatMap (fun a => [a.first, a.second]) ++
    (s.store.rebuilds.filter (·.entry = entry)).map (·.dst)
  let used := fun (p : Nat) => taken.any (fun (x : Seat) => x.pier = p && x.inSpare)
  let cands := ((List.range r.count).filter (fun i => i ≠ k && i ≠ mate r k)).map (r.first + ·)
  match survivor, layout, cands.find? (fun p => memUp s p && !used p) with
  | some x, some l, some p =>
    { s with store := { s.store with rebuilds := s.store.rebuilds ++ [⟨entry, pairOf r k, x, ⟨p, true⟩, l, false⟩] } }
  | _, _, _ => raise 2931 .uc entry s

/-- A pair loses the copies on pier `lost`: a copy in progress to or from that pier ends, and the pair is rebuilt from
the copy that is left. A copy that a cut copy-back had not finished is none. -/
def losePair (lost entry k : Nat) (s : State) : State :=
  let r := regionGet s.store.regions entry
  let (a, b, _) := seatsOf s entry r k
  let cut := (rebuildOf s entry (pairOf r k)).filter (fun c => c.src.pier = lost || c.dst.pier = lost)
  if a.pier ≠ lost && b.pier ≠ lost && cut.isNone then s
  else
    let stale := fun (x : Seat) => cut.any (fun c => c.back && c.dst = x)
    let s1 := { s with store := { s.store with rebuilds := s.store.rebuilds.filter (fun c => some c ≠ cut) } }
    if (rebuildOf s1 entry (pairOf r k)).isSome then s1
    else startRebuild entry k ([a, b].find? (fun x => x.pier ≠ lost && memUp s x.pier && !stale x)) s1

/-- Rebuilds that a lost pier makes necessary, pair by pair of every mirrored region. -/
def rebuildFor (lost : Nat) (s : State) : State :=
  foldS ((validRegions s.store.regions).filter (fun e => e.2.mirror && e.2.hasPier lost))
    (fun e s => foldS (List.range (e.2.count / 2)) (fun k => losePair lost e.1 k) s) s

/-- MIRROR_REBUILD_END (R125 steps 3 and 4, R414): the first copy in progress whose two piers are in service completes.
A rebuild becomes the pair's spare assignment, also in the retained block. The spare portion is as long as the rebuild
table of R120 says, though a footprint ends one share earlier (DESIGN CHOICE, notes/assumptions/80.md). -/
def execMirrorRebuildEnd (s : State) : Host.Outcome State Fault Refusal :=
  .next <|
    match s.store.rebuilds.find? (fun b => memUp s b.src.pier && memUp s b.dst.pier) with
    | none => s
    | some b =>
      let s1 := copySeats b { s with store := { s.store with rebuilds := s.store.rebuilds.erase b } }
      if b.back then s1
      else
        let put := fun (l : List Spare) =>
          l.filter (fun a => !(a.entry = b.entry && a.pair = b.pair)) ++ [⟨b.entry, b.pair, b.src, b.dst, b.layout⟩]
        { s1 with store := { s1.store with spares := put s1.store.spares }
                  power := { s1.power with retained := { s1.power.retained with spares := put s1.power.retained.spares } } }

/-! ### Scrub and refresh (R131 to R133) -/

/-- Lines of a pier's memory. -/
def pierLines (p : Nat) : Nat := if p < 256 then 4194304 else 50331648

/-- PATROL_SCRUB (R131): Table 4-9 with nothing delivered; it pauses on a tier or stack in self-refresh. -/
def execPatrolScrub (pier : Pier) (errs : List (Fin 36 × W16)) (s : State) : Host.Outcome State Fault Refusal :=
  .next <|
    let p := pier.val
    let n := tget (fun _ => 0) s.store.scrubPos p
    let a := n * 64
    if !alive s || !memUp s p || tget (fun _ => false) s.store.selfRefresh (refreshUnitOf p a) then s
    else
      let s1 := checkLine p a errs (touch p a s)
      { s1 with store := { s1.store with scrubPos := tset (fun _ => 0) s1.store.scrubPos p ((n + 1) % pierLines p) } }

/-- Number of a refresh unit. -/
def unitIdx : RefreshUnit → Nat
  | .tier v t => 4 * v.val + t.val
  | .sixteenth n => 1024 + n.val

/-- Pier that owns a refresh unit. -/
def unitPier : RefreshUnit → Nat
  | .tier v _ => v.val
  | .sixteenth n => 256 + n.val

/-- A bank belongs to the refresh unit. -/
def bankInUnit (u : RefreshUnit) (b : Nat) : Bool :=
  match u with
  | .tier v t => b / 64 = v.val && b % 64 / 16 = t.val
  | .sixteenth n => b / 64 = 256 + n.val

def unitAsleep (u : RefreshUnit) (s : State) : Bool := tget (fun _ => false) s.store.selfRefresh (unitIdx u)

/-- Unit of a refresh, its number among refreshes, and the banks it closes. -/
def targetUnit : RefreshTarget → RefreshUnit
  | .unit u => u
  | .bank n _ => .sixteenth n

def targetIdx : RefreshTarget → Nat
  | .unit u => unitIdx u
  | .bank n b => 1088 + 64 * n.val + b.val

def bankInTarget (t : RefreshTarget) (b : Nat) : Bool :=
  match t with
  | .unit u => bankInUnit u b
  | .bank n k => b = 64 * (256 + n.val) + k.val

/-- The temperature that the stack of a sixteenth reports (R117, R132). -/
def stackReading (u : RefreshUnit) (reading : Option Byte) (s : State) : State :=
  match u, reading with
  | .sixteenth n, some v => { s with store := { s.store with stackTemp := tset (fun _ => 0) s.store.stackTemp (n.val / 16) v } }
  | _, _ => s

/-- REFRESH (R115, R117, R132): the rows of the tier, sixteenth or bank are refreshed, which closes them. -/
def execRefresh (cmd : RefreshCmd) (s : State) : Host.Outcome State Fault Refusal :=
  .next <|
    let unit := targetUnit cmd.target
    if !alive s || unitAsleep unit s then s
    else
      stackReading unit cmd.reading { s with store := { s.store with
        openRow := s.store.openRow.filter (fun e => !bankInTarget cmd.target e.1)
        lastRefresh := tset (fun _ => 0) s.store.lastRefresh (targetIdx cmd.target) s.ticks } }

/-- Every tier and sixteenth enters self-refresh. -/
def sleepAll (s : State) : State := { s with store := { s.store with selfRefresh := allSelfRefresh, openRow := [] } }

/-- After a host-side reset everything enters self-refresh when the last run has ended (R133, R364). -/
def sleepIfQuiet (s : State) : State :=
  if s.store.hostSleep && s.piers.runs.isEmpty then
    let s1 := sleepAll s
    { s1 with store := { s1.store with hostSleep := false } }
  else s

/-- SELF_REFRESH_ENTRY (R133): idle for SR_IDLE ticks; 0 disables it. -/
def execSelfRefreshEntry (unit : RefreshUnit) (s : State) : Host.Outcome State Fault Refusal :=
  .next <|
    let u := unitIdx unit
    let idle := s.store.srIdle.toNat
    if alive s && idle ≠ 0 && due (tget (fun _ => 0) s.store.lastAccess u + 1 + idle) s && !unitAsleep unit s then
      { s with store := { s.store with
          selfRefresh := tset (fun _ => false) s.store.selfRefresh u true
          openRow := s.store.openRow.filter (fun e => !bankInUnit unit e.1) } }
    else s

/-- SELF_REFRESH_EXIT (R133): a unit in service leaves self-refresh; the safe state keeps it (R328). -/
def execSelfRefreshExit (unit : RefreshUnit) (s : State) : Host.Outcome State Fault Refusal :=
  .next <|
    let u := unitIdx unit
    if alive s && !s.faults.safe && unitAsleep unit s && memUp s (unitPier unit) then
      { s with store := { s.store with
          selfRefresh := tset (fun _ => false) s.store.selfRefresh u false
          lastAccess := tset (fun _ => 0) s.store.lastAccess u s.ticks } }
    else s

end Sys2Proof.Machine
end

