-- ==== Sys2Proof/Machine/DeviceCache.lean ====
section
/-!
DEFINITION. Machine/DeviceCache.lean: placement, allocation and merge entries of the device cache
(08_keystones_and_cache.md R252 to R257).
-/
namespace Sys2Proof.Machine

/-- Slice, set and table key of a line (R252). -/
def dcSlice (l : Nat) : Nat := l % 16 ^^^ l / 16 % 16 ^^^ l / 256 % 16 ^^^ l / 4096 % 16
def dcSet (l : Nat) : Nat := l / 16 % 4096
def dcKey (slice set way : Nat) : Nat := slice * 131072 + set * 32 + way

def dcEmpty : DcLine := ⟨false, 0, .none, 0⟩
def dcAt (s : State) (k : Nat) : DcLine := tget (fun _ => dcEmpty) s.coh.dc k
def dcPut (k : Nat) (x : DcLine) (s : State) : State :=
  { s with coh := { s.coh with dc := tset (fun _ => dcEmpty) s.coh.dc k x } }

/-- The way that holds a line, whatever class allocated it. -/
def dcFind (s : State) (space : Bool) (line : Nat) : Option (Nat × DcLine) :=
  let b := dcKey (dcSlice line) (dcSet line) 0
  ((List.range 24).map (fun w => (b + w, dcAt s (b + w)))).find?
    (fun e => e.2.st ≠ .none && e.2.space = space && e.2.line.toNat = line)

/-- Invalidates a line. -/
def dcDrop (space : Bool) (line : Nat) (s : State) : State :=
  match dcFind s space line with
  | some (k, _) => dcPut k dcEmpty s
  | none => s

/-- The slice's quarter is in service (R308): otherwise its slices have no eligible way and stores go straight home. -/
def sliceUp (s : State) (slice : Nat) : Bool := (pdGet s (324 + slice / 4)).st = .on

/-- Eligible ways of a class in a slice, ascending (R255). -/
def eligibleWays (s : State) (slice c : Nat) : List Nat :=
  let mask := fun c => tget (fun _ => (0 : BitVec 24)) s.coh.wayMask c
  (List.range 24).filter (fun w => sliceUp s slice &&
    ((mask c).getLsbD w || !(List.range 16).any (fun d => (mask d).getLsbD w)))

/-- One advance of a slice's LFSR (R256). -/
def lfsrStep (v : W16) : W16 :=
  let f := v.getLsbD 15 ^^ v.getLsbD 13 ^^ v.getLsbD 12 ^^ v.getLsbD 10
  (v <<< 1) ||| BitVec.ofNat 16 (b2n f)

def lfsrGet (s : State) (slice : Nat) : W16 := tget (fun _ => (0xACE1 : W16)) s.coh.lfsr slice

/-- Installs a line for a class: an LFSR draw among its eligible ways (R256). It answers whether the line is in the cache,
and the HDM line it replaced, if any. -/
def dcInstall (cls : Nat) (x : DcLine) (s : State) : Bool × Option LineAddr × State :=
  let l := x.line.toNat
  match dcFind s x.space l with
  | some (k, _) => (true, none, dcPut k x s)
  | none =>
    let sl := dcSlice l
    let ws := eligibleWays s sl cls
    if ws.isEmpty then (false, none, s)
    else
      let v := lfsrStep (lfsrGet s sl)
      let s1 := { s with coh := { s.coh with lfsr := tset (fun _ => (0xACE1 : W16)) s.coh.lfsr sl v } }
      let k := dcKey sl (dcSet l) (ws.getD (v.toNat * ws.length / 65536) 0)
      let old := dcAt s1 k
      (true, if old.st ≠ .none && old.space then some (BitVec.ofNat 32 old.line.toNat) else none, dcPut k x s1)

/-- Updates the copy of a line when its store is accepted at its home (R254, R257). -/
def dcUpdate (space : Bool) (line : Nat) (d : LineData) (mask : W64) (s : State) : State :=
  match dcFind s space line with
  | some (k, x) => dcPut k { x with data := mergeLine x.data d mask } s
  | none => s

/-- The merge entry belongs to the line. -/
def Merge.isOf (m : Merge) (space : Bool) (line : Nat) : Bool := m.space = space && m.line.toNat = line

/-- Data of a line as the cache's requesters see it: overlaid with stores not yet accepted (R257). -/
def dcOverlay (s : State) (space : Bool) (line : Nat) (d : LineData) : LineData :=
  ((s.coh.draining ++ s.coh.merges).filter (fun m => m.isOf space line)).foldl (fun d m => mergeLine d m.data m.mask) d

/-- A merge entry drains to its line's home: a CXL.cache write for a host line, a WR_INV to come for an HDM line. -/
def drainMerge (m : Merge) (s : State) : State :=
  let s1 := { s with coh := { s.coh with merges := dropFirst (· = m) s.coh.merges } }
  let s2 := count (1538 + 4 * m.slice) s1
  if m.space then { s2 with coh := { s2.coh with draining := s2.coh.draining ++ [m] } }
  else dcUpdate false m.line.toNat m.data m.mask (emit (.cacheWrite m.line m.data m.mask) s2)

/-- The entry can drain now: a host line's write needs the link. -/
def canDrain (m : Merge) (s : State) : Bool := m.space || cacheLink s

/-- Drains every entry that satisfies `p` and can drain. -/
def drainWhere (p : Merge → Bool) (s : State) : State :=
  foldS (s.coh.merges.filter (fun m => p m && canDrain m s)) drainMerge s

/-- A fence is complete: no entry that was there when it was issued and held a store of its requester is left (R258). -/
def fenceDone (s : State) (n : Nat) : Bool :=
  !(s.coh.merges ++ s.coh.draining).any (fun m => m.fencedBy.contains n)

/-- Ends the fences that are complete. -/
def endFences (s : State) : State :=
  { s with coh := { s.coh with fences := s.coh.fences.filter (fun c => !fenceDone s c.1) } }

/-! ### Lines for transfer engines (R234) -/

def xferGet (s : State) (e : Nat) : Option Xfer := tget (fun _ => none) s.xl.engines e
def xferSet (e : Nat) (x : Option Xfer) (s : State) : State :=
  { s with xl := { s.xl with engines := tset (fun _ => none) s.xl.engines e x } }

/-- A line of the engine's chunk has come through the cache. -/
def xferGot (e : Nat) (l : LineAddr) (d : LineData) (poison : Bool) (s : State) : State :=
  match xferGet s e with
  | some x => xferSet e (some { x with got := x.got ++ [(l, d, poison)] }) s
  | none => s

/-- A store enters a merge entry (R257): none where all 256 entries of the slice are in use and none can drain. -/
def dcStoreIn (cls : Nat) (space : Bool) (line : BitVec 46) (d : LineData) (mask : W64) (s : State) : Option State :=
  let sl := dcSlice line.toNat
  let put := fun (m : Merge) (s : State) =>
    if (m.mask = BitVec.allOnes 64 || !sliceUp s sl) && canDrain m s then endFences (drainMerge m s) else s
  match s.coh.merges.find? (fun m => m.isOf space line.toNat) with
  | some m =>
    let m' : Merge := { m with mask := m.mask ||| mask, data := mergeLine m.data d mask
                               classes := if m.classes.contains cls then m.classes else m.classes ++ [cls] }
    some (put m' { s with coh := { s.coh with merges := modFirst (· = m) (fun _ => m') s.coh.merges } })
  | none =>
    let used := s.coh.merges.filter (fun m => m.slice = sl)
    let s1 : Option State :=
      if used.length < 256 && (sliceUp s sl || space || cacheLink s) then some s
      else (used.find? (fun m => canDrain m s)).map (fun m => endFences (drainMerge m s))
    s1.map (fun s1 =>
      let m : Merge := ⟨sl, space, line, mask, mergeLine 0 d mask, [cls], s1.ticks, []⟩
      put m { s1 with coh := { s1.coh with merges := s1.coh.merges ++ [m] } })

end Sys2Proof.Machine
end

