-- ==== Sys2Proof/Machine/GirthLink.lean ====
section
/-!
DEFINITION. Machine/GirthLink.lean: sending messages on a girth port: classes, credits, flits (10_girth_ports.md R280 to
R283). A flit carries one message (notes/assumptions/19.md).
-/
namespace Sys2Proof.Machine

/-- Class of a message (Tables 10-2, 10-4) and the slots it takes. -/
def GirthMsg.cls : GirthMsg → Nat
  | .item _ => 1
  | .snp _ _ _ _ _ => 2
  | .cmp _ _ _ _ | .wbAck _ | .retry _ | .goRetry _ | .nack _ _ => 3
  | .data _ _ _ _ => 4
  | _ => 5

def GirthMsg.slots : GirthMsg → Nat
  | .item _ => 9
  | .data _ _ _ _ => 5
  | .hello _ _ | .credit _ => 2
  | .kx step => if step = 0x20 then 3 else if step = 0x21 || step = 0x22 then 8 else if step = 0x23 then 7 else 1
  | _ => 1

/-- The port's link carries flits: from step 3 of Table 10-8 until it stops or is fenced. -/
def GirthPort.linked (p : GirthPort) : Bool :=
  ((p.st = .training && 3 ≤ p.step) || p.st = .init || p.st = .up || p.st = .quiescing) && p.retrain.isNone

/-- The message can go: its credits are held (before the CREDIT exchange ends, port control needs none). -/
def GirthPort.canSend (p : GirthPort) (m : GirthMsg) : Bool :=
  p.linked && p.held.length < 512 &&
    ((m.cls = 5 && p.st ≠ .up && p.st ≠ .quiescing) || m.slots ≤ p.credits.getD (m.cls - 1) 0)

/-- Key of a port's flit of a number (R344, R345, R347): 0 where flits are plain; a session key ratchets every 2^47 flits. -/
def girthKey (s : State) (n : Nat) (num : W64) : Nat :=
  if (portGet s n).encOn then tget (fun _ => 0) s.sec.girthKeys n * 2 ^ 17 + num.toNat / 2 ^ 47 else 0

/-- The credit the next flit returns (R283): the lowest class with freed slots, and how many; class 0 for none. -/
def GirthPort.creditBack (p : GirthPort) : Nat × Nat :=
  match (List.range 5).find? (fun c => 0 < p.rxOwed.getD c 0) with
  | some c => (c + 1, min 4095 (p.rxOwed.getD c 0))
  | none => (0, 0)

/-- A flit goes to the chiplet. -/
def sendFlit (n : Nat) (h : HeldFlit) (s : State) : State :=
  emit (.girthFlit n h.num h.ack h.nak h.crClass h.crCount h.msgs h.key) s

/-- One message leaves in a flit of its own, with the ACK, the NAK and the credit that are due, and is held for replay
(R281, R283). -/
def girthFlitOut (n : Nat) (msgs : List GirthMsg) (s : State) : State :=
  let p := portGet s n
  let c := p.creditBack
  let h : HeldFlit := ⟨p.txNum, p.rxLast.truncate 32, p.nak, c.1, c.2, msgs, girthKey s n p.txNum, 0⟩
  let back := fun (l : List Nat) (f : Nat → Nat) => if c.1 = 0 then l else l.set (c.1 - 1) (f (l.getD (c.1 - 1) 0))
  let p' := { p with txNum := p.txNum + 1, held := p.held ++ [h], nak := false
                     rxOwed := back p.rxOwed (· - c.2), rxCredits := back p.rxCredits (· + c.2) }
  count (2496 + 8 * n) (sendFlit n h (portSet n p' s))

/-- Sends what credits and the replay limit allow; a class without credits holds back only its own messages. -/
def girthPump (n : Nat) : Nat → State → State
  | 0, s => s
  | fuel + 1, s =>
    let p := portGet s n
    match p.outq.find? (fun m => p.canSend m && !(p.outq.takeWhile (· ≠ m)).any (fun b => b.cls = m.cls)) with
    | none => s
    | some m =>
      let free := m.cls = 5 && p.st ≠ .up && p.st ≠ .quiescing
      let credits := if free then p.credits else p.credits.set (m.cls - 1) (p.credits.getD (m.cls - 1) 0 - m.slots)
      girthPump n fuel (girthFlitOut n [m] (portSet n { p with outq := p.outq.erase m, credits := credits } s))

/-- Queues a message and sends what can go. -/
def girthSend (n : Nat) (m : GirthMsg) (s : State) : State :=
  let p := portGet s n
  if p.linked || p.retrain.isSome then
    let s1 := portSet n { p with outq := p.outq ++ [m] } s
    girthPump n (p.outq.length + 1) s1
  else s

end Sys2Proof.Machine
end

