-- ==== Sys2Proof/Machine/Route.lean ====
section
/-!
DEFINITION. Machine/Route.lean: where units lie on the deck and the two route-table banks (11_deck.md R296 to R298, R306).
-/
namespace Sys2Proof.Machine

/-- Deck node at a column and row (R296). -/
def nodeAt (x y : Nat) : Nat := 16 * y + x

/-- Node of a primary unit or of a shared attachment by its identifier (Tables 11-1 to 11-3); 0 for a reserved one. -/
def homeNode (u : Nat) : Nat :=
  if u < 128 then nodeAt (u % 16) (2 + u / 16)
  else if u < 256 then nodeAt (u % 16) (6 + u / 16)
  else if u < 320 then
    let s := (u - 256) / 16
    let j := (u - 256) % 16
    if s < 2 then nodeAt (8 * s + j % 8) (j / 8) else nodeAt (8 * (s - 2) + j % 8) (22 + j / 8)
  else if u < 384 then nodeAt ((u - 320) % 16) (10 + (u - 320) / 16)
  else if u < 400 then nodeAt (4 * ((u - 384) % 4) + 2) (10 + (u - 384) / 4)
  else if u < 408 then
    match u - 400 with
    | 0 => nodeAt 7 12 | 1 => nodeAt 6 12 | 2 => nodeAt 4 11 | 3 => nodeAt 12 11
    | 4 => nodeAt 8 7 | 5 => nodeAt 8 15 | 6 => nodeAt 15 11 | _ => nodeAt 9 12
  else if 416 ≤ u && u < 480 then nodeAt ((u - 416) % 16) (10 + (u - 416) / 16)
  else if 480 ≤ u && u < 486 then
    let n := u - 480
    nodeAt (if n ≤ 2 then 0 else 15) (match n % 3 with | 0 => 3 | 1 => 9 | _ => 18)
  else
    match u with
    | 0x1E8 => nodeAt 0 11 | 0x1E9 => nodeAt 8 11 | 0x1EA => nodeAt 15 16 | 0x1EB => nodeAt 0 12
    | 0x1EC => nodeAt 7 12 | 0x1ED => nodeAt 9 13 | 0x1EE => nodeAt 10 13 | _ => 0

/-- The identifier is not reserved (Table 11-3). -/
def validUnit (u : Nat) : Bool :=
  u < 408 || (416 ≤ u && u < 486) || (0x1E8 ≤ u && u ≤ 0x1EE)

/-- Power domain of a unit; none in the deck domain (R307). -/
def unitDomain (u : Nat) : Option Nat :=
  if u < 320 then some u
  else if u < 384 then some (320 + (u - 320) / 16)
  else if u < 400 then some (324 + (u - 384) / 4)
  else none

/-- The bank stamped at injection. -/
def bankNow (s : State) : Tbl Nat := if s.deck.routeVer then s.deck.bank1 else s.deck.bank0

/-- Hop count of R300 between the nodes of two units, by the bank in force. -/
def hops (s : State) (u v : Nat) : Nat :=
  let a := tget homeNode (bankNow s) u
  let b := tget homeNode (bankNow s) v
  let dist := fun (x y : Nat) => (x - y) + (y - x)
  dist (a % 16) (b % 16) + dist (a / 16) (b / 16)

/-- Writes a map into the inactive bank; the change of version follows (R306 steps 1, 2). -/
def routeWrite (m : Tbl Nat) (s : State) : State :=
  let d := { s.deck with reconfBusy := true }
  { s with deck := if d.routeVer then { d with bank0 := m } else { d with bank1 := m } }

/-- The keystones of the quarters `qs` map to the nodes of quarter `to` (R306). -/
def routeQuarters (qs : List Nat) (dest : Nat) (m : Tbl Nat) : Tbl Nat :=
  qs.foldl (fun m q => (List.range 16).foldl (fun m i => tset homeNode m (320 + 16 * q + i) (homeNode (320 + 16 * dest + i))) m) m

/-- A route change: a second one waits until the first has retired its old bank. -/
def routeChange (qs : List Nat) (dest : Nat) (s : State) : State :=
  let written := if s.deck.routeVer then s.deck.bank0 else s.deck.bank1
  let base := if s.deck.reconfBusy then s.deck.pendingMap.getLastD written else bankNow s
  let m := routeQuarters qs dest base
  if s.deck.reconfBusy then { s with deck := { s.deck with pendingMap := s.deck.pendingMap ++ [m] } } else routeWrite m s

/-! ### Packets (R299 to R302) -/

/-- CURRENT of the local ports: VER that an injected packet carries. It switches as the change of version is broadcast, ahead of
ROUTE_VER, which moves when the old bank retires (R306). -/
def currentVer (s : State) : Bool := s.deck.routeVer != s.deck.reconfBusy

/-- What a packet of one VN may cause (R301). -/
def Vn.mayCause : Vn → Vn → Bool
  | .req, .snp | .req, .rsp | .req, .dat | .snp, .rsp | .snp, .dat => true
  | _, _ => false

def Packet.flits (p : Packet) : Nat := 1 + p.dataFlits

/-- Destination node: DEST_UNIT in bank VER. -/
def Packet.target (p : Packet) (s : State) : Nat := tget homeNode (if p.ver then s.deck.bank1 else s.deck.bank0) p.dest

/-- The units that may send guaranteed packets: trestle cores 0 and 6, and the collector's message port (R302). -/
def mayGuarantee (unit : Nat) : Bool := unit = 0x190 || unit = 0x196 || unit = 0x1EC

/-- Two flights share a buffer: 8 flits for each VN of an input port, and 2 for guaranteed flits (R301, R303). -/
def Flight.sameBuffer (f g : Flight) : Bool :=
  f.node = g.node && f.port = g.port && f.packet.guar = g.packet.guar && (f.packet.guar || f.packet.vn = g.packet.vn)

/-- Credits left for the buffer that `f` would enter. -/
def credits (f : Flight) (l : List Flight) : Nat :=
  (if f.packet.guar then 2 else 8) - ((l.filter f.sameBuffer).map (·.packet.flits)).foldl (· + ·) 0

/-- Next node and its input port on the way to `dest`: along the row, then along the column (R300). -/
def nextStop (node dest : Nat) : Nat × Nat :=
  if node % 16 < dest % 16 then (node + 1, 1)
  else if dest % 16 < node % 16 then (node - 1, 2)
  else if node / 16 < dest / 16 then (node + 16, 3)
  else (node - 16, 4)

/-- A flight leaves its router for the next one where it heads its buffer and the link has credit; the router counts its flits. -/
def hopFlight (f : Flight) (s : State) : State :=
  let l := s.deck.flights
  let (node, port) := nextStop f.node (f.packet.target s)
  let g : Flight := ⟨f.packet, node, port⟩
  if f.node = f.packet.target s || l.find? f.sameBuffer ≠ some f || credits g l < f.packet.flits then s
  else countN (1728 + 2 * f.node) f.packet.flits { s with deck := { s.deck with flights := dropFirst (· = f) l ++ [g] } }

/-- A packet enters the source router's local port where it has credit; behind an earlier one of its source and VN it waits. -/
def admitPacket (p : Packet) (s : State) : State :=
  let f : Flight := ⟨p, tget homeNode (bankNow s) p.src, 0⟩
  if s.deck.unsent.any (fun q => q.src = p.src && q.vn = p.vn) || credits f s.deck.flights < p.flits then
    { s with deck := { s.deck with unsent := s.deck.unsent ++ [p] } }
  else { s with deck := { s.deck with flights := s.deck.flights ++ [f] } }

/-- Packets under way move on by one router, and packets that waited for credit go in, in the order they were sent. -/
def deckMoves (s : State) : State :=
  let s1 := foldS s.deck.flights hopFlight s
  foldS s1.deck.unsent admitPacket { s1 with deck := { s1.deck with unsent := [] } }

/-- A unit sends a packet: it carries the CURRENT version; GUAR of a unit that may not send guaranteed packets is cleared and
counted at its router (R302, R411). A request that solicits a response reserves room for it first. -/
def sendPacket (p : Packet) (reply : Bool) (s : State) : State :=
  let s1 := deckMoves s
  let bad := p.guar && !mayGuarantee p.src
  let q := { p with ver := currentVer s1, guar := p.guar && !bad, vn := if p.guar then .ctl else p.vn
                    dataFlits := if p.guar then 0 else p.dataFlits }
  let s2 := if bad then count (1728 + 2 * tget homeNode (bankNow s1) p.src + 1) s1 else s1
  admitPacket q { s2 with deck := { s2.deck with
    reserved := if reply then s2.deck.reserved ++ [(p.src, p.ttag)] else s2.deck.reserved } }

/-- Routers that a flight still passes, its present one first. -/
def routersLeft (dest : Nat) : Nat → Nat → List Nat
  | 0, node => [node]
  | fuel + 1, node => if node = dest then [node] else node :: routersLeft dest fuel (nextStop node dest).1

/-- A flight reaches its destination: the routers on its way count its flits. -/
def landFlight (f : Flight) (s : State) : State :=
  foldS (routersLeft (f.packet.target s) 38 f.node) (fun n s => countN (1728 + 2 * n) f.packet.flits s)
    { s with deck := { s.deck with flights := dropFirst (· = f) s.deck.flights } }

/-- The packet of a source, destination, VN and TTAG reaches its destination; earlier ones of that flow have arrived before it
(R301). -/
def takePacket (src dest : Nat) (vn : Vn) (ttag : Nat) (s : State) : State :=
  let s0 := deckMoves s
  let flow := fun (p : Packet) => p.src = src && p.dest = dest && p.vn = vn
  let mine := s0.deck.flights.filter (fun f => flow f.packet)
  match mine.find? (fun f => f.packet.ttag = ttag) with
  | none => { s0 with deck := { s0.deck with unsent := dropFirst (fun p => flow p && p.ttag = ttag) s0.deck.unsent } }
  | some f => landFlight f (foldS (mine.takeWhile (· ≠ f)) landFlight s0)

/-- The room reserved for a response is used. -/
def takeReply (src ttag : Nat) (s : State) : State :=
  { s with deck := { s.deck with reserved := dropFirst (· = (src, ttag)) s.deck.reserved } }

/-- No flit of the bank to be retired is under way (R306 step 3). -/
def oldFlitsGone (s : State) : Bool :=
  !s.deck.flights.any (fun f => f.packet.ver = s.deck.routeVer) && !s.deck.unsent.any (fun p => p.ver = s.deck.routeVer)

/-- ROUTE_RETIRE (R306 steps 3, 4): the AND over all nodes has completed, which needs every router free of old flits. -/
def execRouteRetire (s : State) : Host.Outcome State Fault Refusal :=
  .next <|
    if !alive s || !s.deck.reconfBusy || !oldFlitsGone s then s
    else
      let s1 := trace 0x09 uObserve (b2n !s.deck.routeVer) 0
        { s with deck := { s.deck with reconfBusy := false, routeVer := !s.deck.routeVer } }
      match s1.deck.pendingMap with
      | [] => s1
      | m :: rest => routeWrite m { s1 with deck := { s1.deck with pendingMap := rest } }

end Sys2Proof.Machine
end

