-- ==== Sys2Proof/Machine/Coherence.lean ====
section
/-!
DEFINITION. Machine/Coherence.lean: homes, directory, requests, snoops, responses, completions, write-backs, retries,
timeouts and quarter moves (08_keystones_and_cache.md R232 to R251; girth checks R285 to R287).
-/
namespace Sys2Proof.Machine

/-- The keystone's requests and events count here. -/
def ksCount (k i : Nat) (s : State) : State := count (1280 + 4 * k + i) s


/-! ### Requesters -/

/-- Girth port of a slot. -/
def portOf (slot : Nat) : Option Nat := if 1 ≤ slot && slot ≤ 6 then some (slot - 1) else none

/-- A chiplet's message can reach its home: the port is UP or QUIESCING. -/
def portTalks (s : State) (slot : Nat) : Bool :=
  match portOf slot with
  | none => true
  | some n => (portGet s n).st = .up || (portGet s n).st = .quiescing

/-! ### Memory at the home -/

/-- Writes agent data of a line to memory under the line's own tag. -/
def homeWrite (l : LineAddr) (d : LineData) (mask : W64) (poison : Bool) (s : State) : State :=
  let k : Keystone := Fin.ofNat 64 (homeOf s l)
  memWriteFor (((lineTag s (dpaOf l)).map (·.2)).getD 0) (dpaOf l) (.keystone k) d mask poison s

/-- The vault accepts the line's waiting write-backs, oldest first (R247: no request goes to memory ahead of them). -/
def drainEvicts (l : LineAddr) (s : State) : State :=
  let s1 := foldS (s.coh.evict.filter (fun b => b.line = l && !b.written))
    (fun b => homeWrite l b.data (BitVec.allOnes 64) b.poison) s
  { s1 with coh := { s1.coh with evict := modAll (fun b => b.line = l) (fun b => { b with written := true }) s1.coh.evict } }

/-- The home reads a line. -/
def homeRead (l : LineAddr) (s : State) : Line × State :=
  memRead (dpaOf l) (.keystone (Fin.ofNat 64 (homeOf s l))) [] (drainEvicts l s)

/-! ### What a request asks of the other agents (Table 8-4) -/

/-- The request the home serves: UPG outside its two rows is an RD_X (R241). -/
def effective (moesi : Bool) (e : DirEntry) (a : Option Nat) (r : CohReq) : CohReq :=
  match r, a with
  | .upg, some a =>
    if e.has a && (e.st = .s || (e.st = .fo && (!moesi || e.owner.toNat ≠ a))) then .upg else .rdX
  | r, _ => r

/-- Snoops of a request. The requester's own copy is not snooped, but for WR_INV, where only slot 7 keeps its copy. -/
def snoopsFor (moesi : Bool) (e : DirEntry) (a : Option Nat) (r : CohReq) : List (Nat × SnpOp) :=
  let o := e.owner.toNat
  let toOwner := fun (op : SnpOp) => if some o = a then [] else [(o, op)]
  let others := (e.slots.filter (fun i => some i ≠ a)).map (fun i => (i, SnpOp.inv))
  match r with
  | .rdS => if e.st = .fo || e.st = .x then toOwner .s else []
  | .rdX => if e.st = .x then toOwner .inv else others
  | .upg => others
  | .rdCur => if e.owned moesi then toOwner .cur else []
  | .wrInv _ _ _ => (e.slots.filter (fun i => !(i = 7 && a = some 7))).map (fun i => (i, SnpOp.inv))
  | .flush =>
    (if e.has 0 then [(0, SnpOp.inv)] else []) ++ (if e.owned moesi && o ≠ 0 then [(o, SnpOp.clean)] else [])

/-- The request needs a directory entry of its own. -/
def CohReq.allocates : CohReq → Bool
  | .rdS | .rdX | .upg => true
  | _ => false

/-! ### Transactions (R243) -/

def busyTxn (s : State) (l : LineAddr) : Option Txn := s.coh.txns.find? (fun t => t.line = l)
def busy (s : State) (l : LineAddr) : Bool := (busyTxn s l).isSome
def setTxn (t : Txn) (s : State) : State :=
  { s with coh := { s.coh with txns := modFirst (fun u => u.line = t.line) (fun _ => t) s.coh.txns } }

/-- Everything a transaction waits for from agents has come: it may have to count the line first (R235). -/
def settle (t : Txn) (s : State) : State :=
  if t.phase ≠ .snooping || !t.awaiting.isEmpty || !t.awaitWb.isEmpty then setTxn t s
  else if t.req.allocates && !t.counted && (mapDpa s.store.regions (dpaOf t.line)).isSome then
    let s1 := setTxn { t with phase := .tracking } s
    { s1 with coh := { s1.coh with trackInc := s1.coh.trackInc ++ [t.line] } }
  else setTxn { t with phase := .ready } s

/-- A line's entry has lost its last presence (R235). -/
def untrack (l : LineAddr) (s : State) : State :=
  if (mapDpa s.store.regions (dpaOf l)).isSome then
    { s with coh := { s.coh with trackDec := s.coh.trackDec ++ [l] } }
  else s

/-- The victim of a full set (R239): fewest presence bits, then the lowest way; a busy line's entry is never one. -/
def victimWay (s : State) (l : LineAddr) : Option Nat :=
  let bits := fun (e : DirEntry) => e.slots.length
  ((List.range 16).map (dirBase s l + ·)).foldl (fun best k =>
    let e := dirAt s k
    if busy s (lineOfEntry k e) then best
    else match best with
      | none => some k
      | some b => if bits e < bits (dirAt s b) then some k else best) none

def forcedMode (s : State) : Bool := s.coh.forcedSw || s.coh.forcedHw

/-- Makes room for a line in its set (R239): the state with the line's new entry in place, or none where the request has
to wait. In FORCED mode the request still waits for the victim's answers. -/
def dirRoom (l : LineAddr) (s : State) : Option State :=
  let ph : DirEntry := { valid := true, quarter := BitVec.ofNat 2 (ownQuarter l), tag := dirTag l }
  match ((List.range 16).map (dirBase s l + ·)).find? (fun k => !(dirAt s k).valid) with
  | some k => some (dirPut k ph s)
  | none =>
    match victimWay s l with
    | none => none
    | some k =>
      let e := dirAt s k
      let vl := lineOfEntry k e
      let snoops := e.slots.map (fun i => ({ slot := i, op := .inv } : Snoop))
      let inSlots := s.coh.victims.filter (fun v => v.waiter.isNone && !v.sweep && homeOf s v.line = homeOf s l)
      if forcedMode s then
        let s1 := dirPut k ph s
        some { s1 with coh := { s1.coh with victims := s1.coh.victims ++ [⟨vl, snoops, some l, e, [], false⟩] } }
      else if inSlots.length < 16 then
        let s1 := dirPut k ph s
        some { s1 with coh := { s1.coh with victims := s1.coh.victims ++ [⟨vl, snoops, none, e, [], false⟩] } }
      else none

/-- The set the line falls in holds an entry that failed its check (R236). -/
def badSetKey (s : State) (l : LineAddr) : Nat := homeOf s l * 32768 + dirSet l

/-- Starts the snoops of a transaction whose line has its entry, or needs none. -/
def startSnoops (t : Txn) (s : State) : State :=
  let e := ((dirFind s t.line).map (·.2)).getD {}
  let bad := s.coh.badSets.contains (badSetKey s t.line)
  let onDemand := t.req.allocates && s.coh.sweeping.any (fun q => q.1 = ownQuarter t.line) && e.presence = 0 && s.host.dlUp
  let before : DirEntry := if bad then {} else e
  let req := effective s.coh.moesi before (reqAgent t.requester) t.req
  let list : List (Nat × SnpOp) :=
    if bad then (List.range 9).map (fun i => (i, SnpOp.inv))
    else (if onDemand then [(0, SnpOp.inv)] else []) ++ snoopsFor s.coh.moesi e (reqAgent t.requester) req
  settle { t with before := before, counted := e.presence ≠ 0, unknown := bad, req := req, phase := .snooping
                  awaiting := list.map (fun x => { slot := x.1, op := x.2 }) }
    { s with coh := { s.coh with badSets := s.coh.badSets.filter (· ≠ badSetKey s t.line) } }

/-- A transaction in its waiting phase tries to go on: out of the line's own victim slot, into a directory entry. -/
def tryStart (t : Txn) (s : State) : State :=
  if t.phase ≠ .waiting then s
  else if s.coh.victims.any (fun v => v.line = t.line || v.waiter = some t.line) then s
  else if !t.req.allocates || (dirFind s t.line).isSome then startSnoops t s
  else
    match dirRoom t.line s with
    | none => s
    | some s1 => if s1.coh.victims.any (fun v => v.waiter = some t.line) then s1 else startSnoops t s1

/-- Something freed: every waiting transaction tries again, oldest first. -/
def wakeWaiting (s : State) : State := foldS s.coh.txns tryStart s

/-! ### Acceptance and RETRY (R243, R244, R287) -/

/-- Reason of a NACK under R287, none where the request may go on. -/
def girthNack (s : State) (n ctx : Nat) (l : LineAddr) : Option Nat :=
  let p := portGet s n
  if !p.items.any (fun i => i.sent && i.ctx = ctx) then some 1
  else match lineTag s (dpaOf l) with
    | none => some 3
    | some (r, tag) =>
      if (r.owner = 1 && tag = ctx) || (r.owner = 0 && p.hostHdm) then none else some 2

/-- A port's outstanding request ends. -/
def endPortTxn (n : Nat) (txn : BitVec 12) (s : State) : State :=
  let p := portGet s n
  let left := p.cmpWait.map (fun w => (w.1, w.2.1, w.2.2.1.filter (· ≠ txn), w.2.2.2))
  portSet n { p with txns := p.txns.filter (fun t => t.txn ≠ txn), cmpWait := left } s

/-- The home accepts a request. -/
def accept (r : Requester) (ctx : Nat) (l : LineAddr) (req : CohReq) (txn : BitVec 12) (s : State) : State :=
  let t : Txn := { line := l, requester := r, req := req, ctx := ctx, txn := txn, before := {}, awaiting := []
                   data := none, phase := .waiting }
  tryStart t (ksCount (homeOf s l) 0 { s with coh := { s.coh with txns := s.coh.txns ++ [t] } })

/-- A request of a source that holds four retried ones: RETRY without a credit, counted and raised (R244). -/
def overCredit (r : Requester) (l : LineAddr) (s : State) : State :=
  let s1 := raise (1384 + reqNum r) .uc (homeOf s l) (ksCount (homeOf s l) 3 (ksCount (homeOf s l) 1 s))
  match (reqAgent r).bind portOf with
  | some n => girthSend n (.retry l) s1
  | none => s1

/-- A request at its home: accepted, refused into the line's waiting order, or refused without a credit. -/
def homeRequest (r : Requester) (l : LineAddr) (acc : State → State) (s : State) : State :=
  let k := homeOf s l
  let mine := s.coh.retried.filter (fun x => x.requester = r && homeOf s x.line = k)
  match s.coh.retried.find? (fun x => x.requester = r && x.line = l && !x.isWb) with
  | some x =>
    if x.go then acc { s with coh := { s.coh with retried := dropFirst (· = x) s.coh.retried } } else s
  | none =>
    if 4 ≤ mine.length then overCredit r l s
    else
      let kept := (s.coh.retried.filter (fun x => x.go && !x.isWb && homeOf s x.line = k)).length
      let used := (s.coh.txns.filter (fun t => homeOf s t.line = k)).length
      if busy s l || 128 ≤ used + kept || s.coh.retried.any (fun x => x.line = l && !x.isWb) then
        { s with coh := { s.coh with retried := s.coh.retried ++ [{ line := l, requester := r, isWb := false }] } }
      else acc s

/-- No home knows the request any more: its quarter was fenced. -/
def lostTxn (s : State) (r : Requester) (l : LineAddr) (txn : BitVec 12) : Bool :=
  !s.coh.txns.any (fun t => t.requester = r && t.line = l && t.txn = txn) &&
    !s.coh.away.any (fun h => h.requester = r && h.line = l && h.txn = txn) &&
    !s.coh.retried.any (fun x => x.requester = r && x.line = l && !x.isWb)

/-- A request goes to its home, or is held once while its home moves (R251 steps 1, 4). -/
def atHome (h : HeldReq) (s : State) : State :=
  if homeAway s h.line then
    if s.coh.away.any (fun x => x.requester = h.requester && x.line = h.line && x.txn = h.txn) then s
    else { s with coh := { s.coh with away := s.coh.away ++ [h] } }
  else homeRequest h.requester h.line (accept h.requester h.ctx h.line h.req h.txn) s

/-- A request of an agent or a non-caching requester: the girth checks, then the home (R243, R244, R287). -/
def cohRequest (r : Requester) (ctx : Nat) (l : LineAddr) (req : CohReq) (txn : BitVec 12) (op : Byte) (s : State) :
    State :=
  let go := atHome ⟨r, ctx, l, req, txn⟩
  match (reqAgent r).bind portOf with
  | none => go s
  | some n =>
    let p := portGet s n
    let resend := s.coh.retried.any (fun x => x.requester = r && x.line = l && !x.isWb) ||
      (p.txns.any (fun t => t.txn = txn && t.line = l && t.op = op) && lostTxn s r l txn)
    if !portTalks s (n + 1) then s
    else if resend then go s
    else if p.txns.any (fun t => t.txn = txn) then raise (2868 + 8 * n + 2) .uc 0 s
    else
      match girthNack s n ctx l with
      | some reason =>
        raise (2868 + 8 * n + 3) .uc reason (count (2496 + 8 * n + 3) (girthSend n (.nack txn (BitVec.ofNat 8 reason)) s))
      | none => go (portSet n { p with txns := p.txns ++ [⟨txn, l, op⟩] } s)

/-- The trestle line store has room for a line (R233): it holds it, has asked for it, or holds and has asked for fewer than
512. -/
def storeRoom (s : State) (l : LineAddr) : Bool :=
  let mine := fun (r : Requester) (q : CohReq) => reqAgent r = some 8 && q.allocates
  let asked := ((s.coh.txns.filter (fun t => mine t.requester t.req)).map (·.line) ++
    (s.coh.away.filter (fun h => mine h.requester h.req)).map (·.line) ++
    (s.coh.retried.filter (fun x => reqAgent x.requester = some 8 && !x.isWb)).map (·.line)).filter
      (fun k => !s.coh.trestleLines.any (fun e => e.1 = k.toNat))
  s.coh.trestleLines.any (fun e => e.1 = l.toNat) || asked.contains l ||
    s.coh.trestleLines.length + asked.eraseDups.length < 512

/-- RD_S (R241). A slot-7 read serves a fill of the device cache; the trestle store takes no 513th line (R233). -/
def execRdS (slot : Fin 9) (ctx : Ctx) (line : LineAddr) (txn : BitVec 12) (s : State) : Host.Outcome State Fault Refusal :=
  .next <|
    let i := slot.val
    let ok := alive s && (i ≠ 7 || s.coh.fills.any (fun f => f.line = line && !f.cur)) &&
      (i ≠ 8 || storeRoom s line)
    if ok then cohRequest (.slot slot) ctx.val line .rdS txn 1 s else s

/-- RD_X (R241). The device cache never asks for ownership (R253). -/
def execRdX (slot : Fin 9) (ctx : Ctx) (line : LineAddr) (txn : BitVec 12) (s : State) : Host.Outcome State Fault Refusal :=
  .next <|
    let i := slot.val
    let ok := alive s && i ≠ 7 &&
      (i ≠ 8 || storeRoom s line)
    if ok then cohRequest (.slot slot) ctx.val line .rdX txn 2 s else s

/-- UPG (R241). -/
def execUpg (slot : Fin 9) (ctx : Ctx) (line : LineAddr) (txn : BitVec 12) (s : State) : Host.Outcome State Fault Refusal :=
  .next (if alive s && slot.val ≠ 7 && (slot.val ≠ 8 || storeRoom s line) then cohRequest (.slot slot) ctx.val line .upg txn 3 s else s)

/-- RD_CUR (R241): of the device cache for a fill that does not allocate, of the host's CXL.io path for a BAR4 read. -/
def execRdCur (r : Requester) (ctx : Ctx) (line : LineAddr) (txn : BitVec 12) (s : State) :
    Host.Outcome State Fault Refusal :=
  .next <|
    let ok := alive s && ((reqAgent r) ≠ some 7 || s.coh.fills.any (fun f => f.line = line && f.cur)) &&
      (r ≠ .hostIo || s.coh.ioReads.contains line)
    if ok then cohRequest r ctx.val line .rdCur txn 4 s else s

/-- WR_INV (R241). Slot 7 writes the oldest drained entry of the line, a requester that caches nothing its oldest store of
the line that waits for the home. -/
def execWrInv (r : Requester) (ctx : Ctx) (line : LineAddr) (data : LineData) (mask : W64) (poison : Bool)
    (txn : BitVec 12) (s : State) : Host.Outcome State Fault Refusal :=
  .next <|
    if !alive s then s
    else if (reqAgent r) = some 7 then
      match s.coh.draining.find? (fun m => m.isOf true line.toNat) with
      | some m => cohRequest r ctx.val line (.wrInv m.data m.mask false) txn 4 s
      | none => s
    else
      match s.coh.posted.find? (fun p => p.requester = r && (p.line = line || r = .window)) with
      | some p =>
        if p.line ≠ line then s else
        cohRequest r p.ctx line (.wrInv p.data p.mask p.poison) txn 4 s
      | none => cohRequest r ctx.val line (.wrInv data mask poison) txn 4 s

/-- FLUSH (R241, R217): the host port's VIS GLOBAL flush of one line, as the host path's request. -/
def execFlush (line : LineAddr) (s : State) : Host.Outcome State Fault Refusal :=
  .next (if alive s then cohRequest .hostIo 0 line .flush 0 0 s else s)

/-- A clean line has been dropped at its home (Table 8-4). -/
def cevictHome (a : Nat) (l : LineAddr) (s : State) : State :=
  match dirFind s l with
  | none => s
  | some (_, e) =>
    if !e.has a then s
    else
      let e1 := e.without a
      let s1 := dirUpdate l e1 s
      wakeWaiting (if e1.presence = 0 then untrack l s1 else s1)

/-- The device cache tells the home that it has dropped a line, or owes it that while the home holds four of its retried
requests (R238, R244). A home in a move has lost its directory (R251). -/
def cacheEvicts (l : LineAddr) (s : State) : State :=
  let k := homeOf s l
  if homeAway s l then s
  else if 4 ≤ (s.coh.retried.filter (fun x => reqAgent x.requester = some 7 && homeOf s x.line = k)).length then
    { s with coh := { s.coh with owed := s.coh.owed ++ [l] } }
  else homeRequest (.slot 7) l (fun s => cevictHome 7 l (ksCount (homeOf s l) 0 s)) s

/-- The device cache installs a line; in FORCED mode the line it replaces is evicted at its home (R238, R256). -/
def cacheInstall (cls : Nat) (x : DcLine) (s : State) : State :=
  match dcInstall cls x s with
  | (_, some l, s1) => if forcedMode s then cacheEvicts l s1 else s1
  | (_, none, s1) => s1

/-- CEVICT (R238, R241). It has no completion. -/
def evictArrives (slot : Fin 9) (line : LineAddr) (s : State) : State :=
    if !alive s || homeAway s line || !portTalks s slot.val then s
    else
      let s1 :=
        if slot.val = 8 then
          { s with coh := { s.coh with trestleLines := s.coh.trestleLines.filter (fun e => e.1 ≠ line.toNat) } }
        else if slot.val = 7 then dcDrop true line.toNat { s with coh := { s.coh with owed := s.coh.owed.filter (· ≠ line) } }
        else s
      homeRequest (.slot slot) line (fun s => cevictHome slot.val line (ksCount (homeOf s line) 0 s)) s1

def execCevict (slot : Fin 9) (line : LineAddr) (s : State) : Host.Outcome State Fault Refusal :=
  .next (evictArrives slot line s)

/-- The busy transaction, or the victim, of the line awaits the WB of slot `a` (R247, R248). -/
def wbAwaited (s : State) (l : LineAddr) (a : Nat) : Bool :=
  ((busyTxn s l).any (fun t => t.awaitWb.contains a)) || s.coh.victims.any (fun v => v.line = l && v.awaitWb.contains a)

/-- RETRY (R244): the home refuses; it takes one credit of the source. -/
def execRetry (r : Requester) (line : LineAddr) (s : State) : Host.Outcome State Fault Refusal :=
  .next <|
    match s.coh.retried.find? (fun x => x.requester = r && x.line = line && !x.told) with
    | none => s
    | some x =>
      let s1 := ksCount (homeOf s line) 1
        { s with coh := { s.coh with retried := modFirst (· = x) (fun x => { x with told := true }) s.coh.retried } }
      match (reqAgent r).bind portOf with
      | some n => girthSend n (.retry line) s1
      | none => s1

/-- GO_RETRY (R244, R247): the line, an entry or a buffer entry is free for the earliest waiter, and is kept for it. -/
def execGoRetry (line : LineAddr) (s : State) : Host.Outcome State Fault Refusal :=
  .next <|
    let k := homeOf s line
    let here := fun (x : Retried) => decide (homeOf s x.line = k)
    let kept := (s.coh.retried.filter (fun x => x.go && !x.isWb && here x)).length
    let used := (s.coh.txns.filter (fun t => homeOf s t.line = k)).length
    let bufs := (s.coh.evict.filter (fun b => !b.own && homeOf s b.line = k)).length +
      (s.coh.retried.filter (fun x => x.go && x.isWb && here x)).length
    let reqW := s.coh.retried.find? (fun x => x.line = line && !x.isWb)
    let wbW := s.coh.retried.find? (fun x => x.isWb && here x && !x.go)
    let pick : Option Retried :=
      match wbW with
      | some x => if x.line = line && x.told && bufs < 32 then some x else none
      | none => none
    let pick := pick.orElse (fun _ => s.coh.retried.find? (fun x => x.isWb && x.line = line && x.told && !x.go &&
      ((reqAgent x.requester).map (wbAwaited s line)).getD false))
    let pick := pick.orElse (fun _ =>
      match reqW with
      | some x => if x.told && !x.go && !busy s line && used + kept < 128 then some x else none
      | none => none)
    match pick with
    | none => s
    | some x =>
      let s1 := { s with coh := { s.coh with
        retried := modFirst (· = x) (fun x => { x with go := true }) s.coh.retried } }
      match (reqAgent x.requester).bind portOf with
      | some n => girthSend n (.goRetry line) s1
      | none => s1

/-! ### Responses of agents (R246 to R250) -/

/-- What an agent answers a snoop with. -/
inductive SnpRsp where
  | i | iWb
  | s (dirty : Option LineData) (poison : Bool)
  | fwd (data : LineData) (dirty poison : Bool)
deriving DecidableEq, Repr

/-- A snooped slot's bit goes (RSP_I, RSP_I_WB, timeout). -/
def Txn.lose (t : Txn) (a : Nat) : Txn :=
  { t with before := { t.before with presence := dropBit t.before.presence a }
           ownerGone := t.ownerGone || ((t.before.st = .x || t.before.st = .fo) && t.before.owner.toNat = a) }

/-- A transaction takes an answer of slot `a`. -/
def Txn.answer (t : Txn) (a : Nat) (r : SnpRsp) (buf : Option EvictBuf) : Txn :=
  match r with
  | .i => t.lose a
  | .iWb =>
    match buf with
    | some b => { t.lose a with data := some (b.data, true, b.poison) }
    | none => { t.lose a with awaitWb := t.awaitWb ++ [a] }
  | .s (some d) p => { t with data := some (d, true, p) }
  | .s none _ => t
  | .fwd d dirty p => { t with data := some (d, dirty, p), fwdBy := some a }

/-- The invalidations of a victim are answered: it leaves, and what waited goes on (R239). -/
def endVictim (l : LineAddr) (s : State) : State :=
  match s.coh.victims.find? (fun v => v.line = l) with
  | none => s
  | some v =>
    if !v.awaiting.isEmpty || !v.awaitWb.isEmpty then s
    else
      let s0 := { s with coh := { s.coh with victims := dropFirst (· = v) s.coh.victims } }
      let s1 := if v.sweep then s0 else untrack l s0
      match v.waiter.bind (busyTxn s1) with
      | some t => wakeWaiting (if t.phase = .waiting then startSnoops t s1 else s1)
      | none => wakeWaiting s1

/-- A victim takes an answer of slot `a` (R239): dirty data goes to memory, a write-back in flight is waited for. -/
def victimAnswers (v : Victim) (a : Nat) (r : SnpRsp) (waits : Bool) (s : State) : State :=
  let v1 := { v with awaiting := dropFirst (fun x => decide (x.slot = a) && x.sent) v.awaiting
                     awaitWb := if waits then v.awaitWb ++ [a] else v.awaitWb }
  let s1 := { s with coh := { s.coh with victims := modFirst (· = v) (fun _ => v1) s.coh.victims } }
  endVictim v.line (match r with
    | .fwd d true p => homeWrite v.line d (BitVec.allOnes 64) p s1
    | .s (some d) p => homeWrite v.line d (BitVec.allOnes 64) p s1
    | _ => s1)

/-- What may still come from slot `a` for the line after its timeout (R250). -/
def lateOf (s : State) (l : LineAddr) (a : Nat) : Option LateMark := s.coh.late.find? (fun m => m.line = l && m.slot = a)

/-- Notes what may still come of a timed-out snoop; nothing leaves no mark. -/
def setLate (l : LineAddr) (a : Nat) (rsp wb : Bool) (s : State) : State :=
  { s with coh := { s.coh with late := s.coh.late.filter (fun m => !(m.line = l && m.slot = a)) ++
      (if rsp || wb then [⟨l, a, rsp, wb⟩] else []) } }

/-- Step 1 to 4 of R250 for a snoop of slot `a` that has no answer. -/
def silentSlot (l : LineAddr) (a : Nat) (isLate : Bool) (s : State) : State :=
  let k := homeOf s l
  let s1 := homeWrite l 0 0 true (drainEvicts l s)
  let s2 := raise (1348 + 9 * (k / 16) + a) .uc k s1
  let s3 := if isLate then setLate l a true true s2 else s2
  let isIt := fun (x : Snoop) => decide (x.slot = a)
  let other := endVictim l { s3 with coh := { s3.coh with
    victims := modFirst (fun v => v.line = l)
      (fun v => { v with awaiting := dropFirst isIt v.awaiting, awaitWb := v.awaitWb.filter (· ≠ a) }) s3.coh.victims } }
  match busyTxn s3 l with
  | some t =>
    if t.awaiting.any isIt || t.awaitWb.contains a then
      settle { t.lose a with awaiting := dropFirst isIt t.awaiting, awaitWb := t.awaitWb.filter (· ≠ a), timedOut := true } s3
    else other
  | none => other

/-- A snoop of the line for slot `a` has waited past its deadline (R250). -/
def lateSnoop (s : State) (l : LineAddr) (a : Nat) : Bool :=
  let late := fun (x : Snoop) => decide (x.slot = a) && x.sent && due x.deadline s
  (match busyTxn s l with
    | some t => t.awaiting.any late
    | none => false) || s.coh.victims.any (fun v => v.line = l && v.awaiting.any late)

/-- A response nothing waits for: a late one is discarded and counted (R250), and after an RSP_I_WB so is its WB; another
breaks the protocol (R287). -/
def strayAnswer (l : LineAddr) (a : Nat) (isWb : Bool) (s : State) : State :=
  match (lateOf s l a).filter (·.rsp) with
  | some m => ksCount (homeOf s l) 2 (setLate l a false (isWb && m.wb) s)
  | none =>
    match portOf a with
    | some n => if portTalks s a then raise (2868 + 8 * n + 2) .uc 0 s else s
    | none => s

/-- An agent's answer reaches the home: a transaction's, a victim's, or one that nothing waits for. -/
def respond (l : LineAddr) (a : Nat) (r : SnpRsp) (s : State) : State :=
  let isIt := fun (x : Snoop) => decide (x.slot = a) && x.sent
  let isBuf := fun (b : EvictBuf) => decide (b.line = l) && decide (b.slot = a)
  let buf := s.coh.evict.find? isBuf
  let taken := { s with coh := { s.coh with evict := modFirst isBuf (fun b => { b with pend := false }) s.coh.evict } }
  let other : State :=
    match s.coh.victims.find? (fun v => v.line = l && v.awaiting.any isIt) with
    | some v => victimAnswers v a r (r = .iWb && buf.isNone) s
    | none => strayAnswer l a (r = .iWb) s
  match busyTxn s l with
  | some t =>
    if t.awaiting.any isIt then
      let t1 := Txn.answer { t with awaiting := dropFirst isIt t.awaiting } a r buf
      settle t1 (if r = .iWb then taken else s)
    else other
  | none => other

/-- Answers of the host, of a chiplet or of an interior agent as a command; after its deadline the time-out comes first and
the answer is a late one. -/
def agentAnswers (a : Nat) (l : LineAddr) (r : SnpRsp) (s : State) : State :=
  if alive s && portTalks s a then respond l a r (if lateSnoop s l a then silentSlot l a true s else s) else s

/-- RSP_I (R248). -/
def execRspI (slot : Fin 9) (line : LineAddr) (s : State) : Host.Outcome State Fault Refusal :=
  .next (agentAnswers slot.val line .i s)

/-- RSP_I_WB (R248). -/
def execRspIWb (slot : Fin 9) (line : LineAddr) (s : State) : Host.Outcome State Fault Refusal :=
  .next (agentAnswers slot.val line .iWb s)

/-- RSP_S (R241, R285): kept shared, with the dirty line where the home wants it. -/
def execRspS (slot : Fin 9) (line : LineAddr) (dirty : Option LineData) (poison : Bool) (s : State) :
    Host.Outcome State Fault Refusal :=
  .next (agentAnswers slot.val line (.s dirty poison) s)

/-- RSP_FWD (R246). -/
def execRspFwd (slot : Fin 9) (line : LineAddr) (data : LineData) (dirty poison : Bool) (s : State) :
    Host.Outcome State Fault Refusal :=
  .next (agentAnswers slot.val line (.fwd data dirty poison) s)

/-! ### Snoops reach the agents (R245, R259, R285, R294) -/

/-- The device cache answers from its state; the line's merge entry then drains as a new write (R259). -/
def dcSnoop (space : Bool) (ln : Nat) (op : SnpOp) (s : State) : SnpRsp × State :=
  let s1 := drainWhere (fun m => m.isOf space ln) s
  match dcFind s1 space ln with
  | none => (.i, s1)
  | some (k, x) =>
    match op with
    | .s => if x.st = .s then (.s none false, s1) else (.fwd x.data false false, dcPut k { x with st := .s } s1)
    | .inv => (if x.st = .s then .i else .fwd x.data false false, dcPut k dcEmpty s1)
    | .cur => (.fwd x.data false false, s1)
    | .clean => (.s none false, s1)

/-- The trestle line store answers (R233): F/O and M under MOESI are dirty, M under MESIF too. A line whose WB it has sent it
no longer has to give (R248); poison goes with the data (R249). -/
def storeSnoop (l : LineAddr) (op : SnpOp) (s : State) : SnpRsp × State :=
  let sent := s.coh.evict.any (fun b => b.line = l && b.slot = 8) ||
    s.coh.retried.any (fun x => x.isWb && x.line = l && reqAgent x.requester = some 8)
  match s.coh.trestleLines.find? (fun e => e.1 = l.toNat) with
  | none => (.i, s)
  | some (_, x) =>
    if sent then (.iWb, s) else
    let dirty := x.st = .m || (x.st = .f && s.coh.moesi)
    let dflt : Nat → TrestleLine := fun _ => ⟨.none, 0, false⟩
    let put := fun (g : Grant) =>
      { s with coh := { s.coh with trestleLines := tset dflt s.coh.trestleLines l.toNat { x with st := g } } }
    let drop := { s with coh := { s.coh with trestleLines := s.coh.trestleLines.filter (fun e => e.1 ≠ l.toNat) } }
    match op with
    | .s =>
      if x.st = .s then (.s none false, s)
      else (.fwd x.data dirty x.poison, put (if dirty && s.coh.moesi then .f else .s))
    | .inv => (if x.st = .s then .i else .fwd x.data dirty x.poison, drop)
    | .cur => (if x.st = .s then .s none false else .fwd x.data dirty x.poison, s)
    | .clean => (.s (if dirty then some x.data else none) x.poison, if dirty then put (if x.st = .m then .e else .s) else s)

/-- The hold of R245 keeps this snoop back: it takes away the ownership or forwarding that the last grant gave the slot. -/
def snoopHeld (s : State) (l : LineAddr) (a : Nat) (op : SnpOp) : Bool :=
  let e : DirEntry := match s.coh.victims.find? (fun v => v.line = l) with
    | some v => v.before
    | none => ((busyTxn s l).map (·.before)).getD {}
  s.coh.holds.contains (l, a) && op ≠ .cur && e.owner.toNat = a && (e.st = .fo || (e.st = .x && op ≠ .clean))

/-- BISnpData, BISnpInv and BISnpCur for the snoops of slot 0 (R240). -/
def SnpOp.bi : SnpOp → BiSnp
  | .s => .data | .inv | .clean => .inv | .cur => .cur

def SnpOp.code : SnpOp → Byte
  | .s => 1 | .inv => 2 | .cur => 3 | .clean => 4

/-- The home wants an owner's dirty data for memory (R285). -/
def wantsData (s : State) (t : Option Txn) (op : SnpOp) : Bool :=
  match op, t with
  | .clean, _ => true
  | .s, some t => !s.coh.moesi && t.before.st = .x
  | .inv, some t => match t.req with
    | .wrInv _ _ _ => true
    | _ => t.unknown
  | .inv, none => true
  | _, _ => false

/-- A snoop of the home goes to its agent. -/
def sendSnoop (op : SnpOp) (a : Nat) (l : LineAddr) (s : State) : State :=
  let isIt := fun (x : Snoop) => decide (x.slot = a) && decide (x.op = op) && !x.sent
  let t := (busyTxn s l).filter (fun t => t.awaiting.any isIt)
  let mark := fun (xs : List Snoop) => modFirst isIt (fun x => { x with sent := true, deadline := after s.coh.homeTimeout.toNat s }) xs
  let s1? : Option (State × DirEntry) :=
    match t with
    | some t => some (setTxn { t with awaiting := mark t.awaiting } s, t.before)
    | none => (s.coh.victims.find? (fun v => v.line = l && v.awaiting.any isIt)).map (fun v =>
        ({ s with coh := { s.coh with
          victims := modFirst (· = v) (fun v => { v with awaiting := mark v.awaiting }) s.coh.victims } }, v.before))
  match s1? with
  | none => s
  | some (s1, e) =>
    if snoopHeld s l a op then s
    else if a = 0 then (if s.host.dlUp then emit (.bisnp op.bi l) s1 else s1)
    else if a = 7 then
      let (r, s2) := dcSnoop true l.toNat op s1
      respond l 7 r s2
    else if a = 8 then
      let (r, s2) := storeSnoop l op s1
      respond l 8 r s2
    else
      let p := portGet s (a - 1)
      let owner := e.owner.toNat = a && e.owned s.coh.moesi
      if p.st = .fenced && owner then silentSlot l a false s1
      else if p.st = .off || p.st = .fenced then respond l a .i s1
      else
        let route : W16 := match t with
          | some t => if t.req = .rdS || t.req = .rdX || t.req = .rdCur then BitVec.ofNat 16 (reqNum t.requester) else 0xFFFF
          | none => 0xFFFF
        girthSend (a - 1) (.snp op.code l route ((t.map (fun t => t.txn.setWidth 16)).getD 0) (wantsData s t op)) s1

/-- A CXL.cache snoop of the host (R259): the slice answers from its state and invalidates or downgrades its copy, which is
at most shared; a pending entry drains as a new write. -/
def hostSnoop (op : SnpOp) (line : BitVec 46) (s : State) : State :=
  if !cacheLink s then s
  else
    let held := (dcFind s false line.toNat).isSome
    emit (.cacheSnpRsp line held (held && op ≠ .inv)) (dcSnoop false line.toNat op s).2

/-- The next line the sweep of a moved quarter snoops (R251): from `n` on, in a committed HDM range, and not tracked by its
new home. -/
def sweepLine (s : State) (q n : Nat) : Option Nat :=
  let from_ := fun (d : HdmDecoder) =>
    let lo := max n (d.dpa / 64)
    let hi := d.dpa / 64 + d.size.toNat / 2 ^ d.iw.toNat / 64
    (findBelow (hi - lo) (fun i =>
      ownQuarter (BitVec.ofNat 32 (lo + i)) = q && (dirFind s (BitVec.ofNat 32 (lo + i))).isNone)).map (lo + ·)
  if !s.host.dlUp then none
  else (s.host.hdm.filter (fun d => d.2.committed)).foldl (fun (best : Option Nat) d =>
    match best, from_ d.2 with
    | some a, some b => some (min a b)
    | none, x => x
    | x, none => x) none

/-- The sweep of a moved quarter sends its next SNP_INV to slot 0 (R251), in ascending order (DESIGN CHOICE,
notes/assumptions/98.md). -/
def sweepSnoop (line : LineAddr) (s : State) : State :=
  match s.coh.sweeping.find? (fun q => sweepLine s q.1 q.2 = some line.toNat) with
  | none => s
  | some q =>
    if busy s line || s.coh.victims.any (fun v => v.line = line) || homeAway s line then s
    else sendSnoop .inv 0 line { s with coh := { s.coh with
      sweeping := modFirst (· = q) (fun q => (q.1, line.toNat + 1)) s.coh.sweeping
      victims := s.coh.victims ++ [{ line := line, awaiting := [{ slot := 0, op := .inv }], waiter := none, sweep := true }] } }

/-- A snoop command: of a home for an agent, or of the host for the device cache. -/
def snoop (op : SnpOp) (copy : SnpTo) (line : BitVec 46) (s : State) : State :=
  match copy with
  | .agent slot => sendSnoop op slot.val (line.setWidth 32) s
  | .hostLine => hostSnoop op line s

/-- SNP_S (R259, R285). -/
def execSnpS (copy : SnpTo) (line : BitVec 46) (s : State) : Host.Outcome State Fault Refusal :=
  .next (if alive s then snoop .s copy line s else s)

/-- SNP_INV (R251, R259, R285): of slot 0 also the next snoop of a quarter move's sweep. -/
def execSnpInv (copy : SnpTo) (line : BitVec 46) (s : State) : Host.Outcome State Fault Refusal :=
  .next <|
    if !alive s then s
    else match copy with
      | .agent 0 => sweepSnoop (line.setWidth 32) (snoop .inv copy line s)
      | _ => snoop .inv copy line s

/-- SNP_CUR (R259, R285). -/
def execSnpCur (copy : SnpTo) (line : BitVec 46) (s : State) : Host.Outcome State Fault Refusal :=
  .next (if alive s then snoop .cur copy line s else s)

/-- SNP_CLEAN (R259, R285). -/
def execSnpClean (slot : Fin 9) (line : LineAddr) (s : State) : Host.Outcome State Fault Refusal :=
  .next (if alive s then sendSnoop .clean slot.val line s else s)

/-- HOME_TIMEOUT (R250). -/
def execHomeTimeout (slot : Fin 9) (line : LineAddr) (s : State) : Host.Outcome State Fault Refusal :=
  .next <|
    if alive s && lateSnoop s line slot.val then silentSlot line slot.val true s else s

/-! ### Completion (Table 8-4) -/

/-- What a completed request leaves: grant, entry, whether the requester gets data, and collected dirty data that goes to
memory. -/
structure CohDone where
  grant : Grant
  entry : DirEntry
  wantsData : Bool
  toMemory : Bool
deriving DecidableEq, Repr

/-- The entry with one owner in E or M. -/
def xEntry (a : Nat) : DirEntry := { st := .x, owner := BitVec.ofNat 4 a, presence := (1 : BitVec 16) <<< a }

/-- A joins the sharers: under MESIF as the forwarder, under MOESI as a sharer; slot 0 never forwards (R237). -/
def shareEntry (moesi : Bool) (e : DirEntry) (a : Nat) : Grant × DirEntry :=
  let pres := withBit e.presence a
  if moesi || a = 0 then (.s, { e with st := .s, owner := 0, presence := pres })
  else (.f, { e with st := .fo, owner := BitVec.ofNat 4 a, presence := pres })

/-- Table 8-4, once the answers are in. Dirty data that slot 0 gives up on the demand snoop of R251 goes to memory. -/
def cohOutcome (moesi : Bool) (t : Txn) : CohDone :=
  let e := t.before
  let a := ((reqAgent t.requester)).getD 0
  let o := e.owner.toNat
  let dirty := !t.ownerGone && (match t.data with
    | some (_, d, _) => d
    | none => false)
  match t.req with
  | .rdS =>
    if e.st = .i then ⟨.e, xEntry a, true, dirty⟩
    else if e.st = .s || (e.st = .fo && !moesi) then
      let g := shareEntry moesi e a
      ⟨g.1, g.2, true, false⟩
    else if e.st = .fo then
      if t.ownerGone then ⟨.s, { e with st := .s, owner := 0, presence := withBit e.presence a }, true, false⟩
      else ⟨.s, { e with presence := withBit e.presence a }, true, false⟩
    else if t.ownerGone || o = a then ⟨.e, xEntry a, true, false⟩
    else if dirty && moesi && o ≠ 0 then
      ⟨.s, { e with st := .fo, presence := withBit e.presence a }, true, false⟩
    else
      let g := shareEntry moesi e a
      ⟨g.1, g.2, true, dirty⟩
  | .rdX =>
    if e.st = .fo && moesi && o = a then ⟨.m, xEntry a, false, false⟩
    else if e.st = .i then ⟨.e, xEntry a, true, dirty⟩
    else ⟨if dirty then .m else .e, xEntry a, true, false⟩
  | .upg => ⟨if e.st = .fo && moesi then .m else .e, xEntry a, false, false⟩
  | .rdCur => ⟨.none, if t.ownerGone then e.without o else e, true, false⟩
  | .wrInv _ _ _ =>
    let keep := (reqAgent t.requester) = some 7 && e.st ≠ .i
    ⟨.none, if keep then { st := .s, presence := 0x80 } else {}, false, false⟩
  | .flush =>
    let e1 := e.without 0
    let cleaned := e.owned moesi && o ≠ 0
    let e2 := if !cleaned then e1
      else if t.ownerGone then e1.without o
      else if e.st = .fo then { e1 with st := .s, owner := 0 }
      else e1
    ⟨.none, e2, false, dirty || (match t.data with
      | some (_, d, _) => d && !t.ownerGone
      | none => false)⟩

def Grant.code : Grant → Byte
  | .none => 0 | .s => 1 | .f => 2 | .e => 3 | .m => 4

/-- The device cache takes a line it read: every read that waits for it gets it, and it is installed under the class of the
oldest, or only delivered (R249, R255, R260). In FORCED mode the home hears of a line that was granted and not installed, or
that the new one replaces (R238). -/
def dcFillDone (l : LineAddr) (g : Grant) (d : LineData) (poison : Bool) (s : State) : State :=
  match s.coh.fills.find? (fun f => f.line = l) with
  | none => s
  | some f =>
    let mine := s.coh.fills.filter (fun x => x.line = l)
    let s1 := { s with coh := { s.coh with fills := s.coh.fills.filter (fun x => x.line ≠ l) } }
    let seen := dcOverlay s true l.toNat d
    let s2 := foldS mine (fun x s => match x.engine with
      | some e => xferGot e l seen poison s
      | none => emit (.interiorData true l.toNat seen poison) s) s1
    let keep := !poison && !mine.any (·.noInstall) && g ≠ .none
    let (kept, old, s3) := if keep then dcInstall f.cls ⟨true, BitVec.ofNat 46 l.toNat, g, d⟩ s2 else (false, none, s2)
    if !forcedMode s then s3
    else
      let s4 := match old with
        | some o => cacheEvicts o s3
        | none => s3
      if g ≠ .none && !kept then cacheEvicts l s4 else s4

/-- The requester receives its completion and, where it has any, its data. -/
def deliver (t : Txn) (o : CohDone) (d : LineData) (poison : Bool) (s : State) : State :=
  match t.requester with
  | .slot i =>
    let a := i.val
    if a = 0 then
      emit (.memCmp t.line o.grant.code) (if o.wantsData then emit (.memData t.line d poison) s else s)
    else if a = 7 then (if o.wantsData then dcFillDone t.line o.grant d poison s else s)
    else if a = 8 then
      let dflt : Nat → TrestleLine := fun _ => ⟨.none, 0, false⟩
      let old := tget dflt s.coh.trestleLines t.line.toNat
      let s1 := if o.wantsData then emit (.interiorData true t.line.toNat d poison) s else s
      let lines := tset dflt s1.coh.trestleLines t.line.toNat
        (if o.wantsData then ⟨o.grant, d, poison⟩ else { old with st := o.grant })
      if o.grant = .none then s1 else { s1 with coh := { s1.coh with trestleLines := lines } }
    else
      let n := a - 1
      let fromPort := (t.fwdBy.bind portOf).isSome
      let aux : Byte := if !o.wantsData then 0 else if t.fwdBy.isSome then 2 else 1
      let s1 := girthSend n (.cmp t.txn aux o.grant.code poison) s
      let s2 := if o.wantsData && !fromPort then girthSend n (.data t.txn false d poison) s1 else s1
      match t.req with
      | .wrInv _ _ _ | .upg => endPortTxn n t.txn s2
      | _ => s2
  | .hostIo =>
    match t.req with
    | .rdCur =>
      if !s.coh.ioReads.contains t.line then s
      else emit (.cpl (if poison then .poisoned (lineBytes d) else .data (lineBytes d)))
        { s with coh := { s.coh with ioReads := dropFirst (· = t.line) s.coh.ioReads } }
    | _ => s
  | _ => if o.wantsData then emit (.interiorData true t.line.toNat d poison) s else s

/-- WB's transition of Table 8-4: X(A) becomes I, O(A) becomes S, or I with no presence left. -/
def wbHome (a : Nat) (l : LineAddr) (s : State) : State :=
  match dirFind s l with
  | none => s
  | some (_, e) =>
    if e.owned s.coh.moesi && e.owner.toNat = a then
      let e1 := e.without a
      let s1 := dirUpdate l e1 s
      if e1.presence = 0 then untrack l s1 else s1
    else s

/-- The slot to which the transaction granted ownership or forwarding (R245). -/
def Txn.holder (t : Txn) (g : Grant) : Option Nat :=
  if g = .f || g = .e || g = .m then reqAgent t.requester else none

/-- The busy transaction is over: the line frees, waiting write-backs make their transitions, and waiters go on. `hold` is
the slot whose fresh grant is protected from now on. -/
def finishTxn (l : LineAddr) (hold : Option Nat) (s : State) : State :=
  let holds := match hold with
    | some a => s.coh.holds.filter (fun h => h.1 ≠ l) ++ [(l, a)]
    | none => s.coh.holds
  let s1 := { s with coh := { s.coh with txns := s.coh.txns.filter (fun t => t.line ≠ l), holds := holds } }
  let s2 := foldS (s1.coh.evict.filter (fun b => b.line = l && b.pend)) (fun b => wbHome b.slot l) s1
  wakeWaiting { s2 with coh := { s2.coh with
    evict := modAll (fun b => b.line = l) (fun b => { b with pend := false }) s2.coh.evict } }

/-- A drained entry has been accepted at its home. -/
def dropDraining (m : Merge) (s : State) : State :=
  { s with coh := { s.coh with draining := dropFirst (· = m) s.coh.draining } }

/-- A store's WR_INV has completed: the oldest one of the requester and line is done, and a window write all of whose lines
are done is acknowledged (R195). -/
def dropPosted (r : Requester) (l : LineAddr) (s : State) : State :=
  match s.coh.posted.find? (fun p => p.requester = r && p.line = l) with
  | none => s
  | some p =>
    let left := dropFirst (· = p) s.coh.posted
    let s1 := { s with coh := { s.coh with posted := left } }
    match p.ack with
    | some tag =>
      if left.any (fun x => x.ack = some tag) then s1
      else { s1 with viaduct := { s1.viaduct with window := s1.viaduct.window ++ [.wWriteAck tag 0] } }
    | none => s1

/-- The home completes a ready transaction (R241, R243, R250). A requester's port that has left and been swept gets nothing:
its answer is discarded, and dirty data that was for it goes to memory (R293, R294). -/
def completeTxn (t0 : Txn) (s : State) : State :=
  let l := t0.line
  let full := BitVec.allOnes 64
  let s0 := drainEvicts l s
  let rescued := t0.unknown && (match t0.data with
    | some (_, d, _) => d
    | none => false)
  let s1 := if rescued then
      match t0.data with
      | some (d, _, p) => homeWrite l d full p s0
      | none => s0
    else s0
  let t : Txn := if t0.unknown then { t0 with before := {}, data := none, fwdBy := none } else t0
  let o := cohOutcome s.coh.moesi t
  let s2 := match t.data with
    | some (d, _, p) => if o.toMemory then homeWrite l d full p s1 else s1
    | none => s1
  let s3 := match t.req with
    | .wrInv d mask p =>
      let merged := if mask = full then some (d, p)
        else t.data.map (fun x => (mergeLine x.1 d mask, x.2.2 || p))
      let k : Keystone := Fin.ofNat 64 (homeOf s l)
      match merged with
      | some (v, p) => memWriteFor t.ctx (dpaOf l) (.keystone k) v full p s2
      | none => memWriteFor t.ctx (dpaOf l) (.keystone k) d mask p s2
    | _ => s2
  let (ln, s4) : Line × State :=
    match t.data with
    | some (d, _, p) => (⟨d, p⟩, s3)
    | none => if o.wantsData then homeRead l s3 else (⟨0, false⟩, s3)
  let gone := match t.requester with
    | .slot i => !portTalks s i.val && !((portOf i.val).any (fun n => (portGet s n).sweepBusy))
    | _ => false
  let entry := if gone then o.entry.without (((reqAgent t.requester)).getD 0) else o.entry
  let s4 := match t.data with
    | some (d, true, p) => if gone && !o.toMemory then homeWrite l d full p s4 else s4
    | _ => s4
  let s5 := dirUpdate l entry s4
  let s6 := if t.counted && entry.presence = 0 then untrack l s5 else s5
  let s7 := match t.req, t.requester with
    | .wrInv _ _ _, .slot i =>
      if i.val = 7 then
        match s6.coh.draining.find? (fun m => m.isOf true l.toNat) with
        | some m => endFences (dcUpdate true l.toNat m.data m.mask
            (dropDraining m s6))
        | none => s6
      else s6
    | .wrInv _ _ _, r => dropPosted r l s6
    | _, _ => s6
  -- a requester inside the block has the forwarded data itself; what a lost port had still to forward is poison (R294)
  let inside := (reqAgent t.requester).all (fun a => (portOf a).isNone)
  let fromPort := (t.fwdBy.bind portOf).isSome
  let lost := inside && fromPort && t.fwd.isNone
  let data := if inside && fromPort then t.fwd.getD (ln.data, true) else (ln.data, ln.poison)
  let regrant := fun (s : State) => match reqAgent t.requester with
    | some a => if o.grant ≠ .none && !gone then
        match lateOf s l a with
        | some m => setLate l a m.rsp false s
        | none => s
      else s
    | none => s
  let s8 := deliver t o data.1 (data.2 || t.timedOut || lost) (regrant s7)
  let acks := match t.requester, t.req with
    | .slot _, .wrInv _ _ _ => false
    | .slot i, .rdCur => decide (1 ≤ i.val ∧ i.val ≤ 6) && !gone
    | .slot i, _ => i.val ≠ 0 && !gone
    | _, _ => false
  if acks then setTxn { t with phase := .granted, grant := o.grant } s8
  else finishTxn l (t.holder o.grant) s8

/-- GRANT_ACK (R245): the line frees, and its fresh grant is protected for 48 st. -/
def execGrantAck (slot : Fin 9) (line : LineAddr) (s : State) : Host.Outcome State Fault Refusal :=
  .next <|
    match busyTxn s line with
    | some t =>
      if alive s && t.phase = .granted && t.requester = .slot slot && portTalks s slot.val then
        let s1 := match portOf slot.val with
          | some n => endPortTxn n t.txn s
          | none => s
        finishTxn line (t.holder t.grant) s1
      else s
    | none =>
      match portOf slot.val with
      | some n =>
        if alive s && portTalks s slot.val then
          foldS ((portGet s n).txns.filter (fun t => t.line = line && lostTxn s (.slot slot) line t.txn))
            (fun t => endPortTxn n t.txn) s
        else s
      | none => s

/-- GRANT_HOLD_EXPIRY (R245). -/
def execGrantHoldExpiry (line : LineAddr) (s : State) : Host.Outcome State Fault Refusal :=
  .next { s with coh := { s.coh with holds := s.coh.holds.filter (fun h => h.1 ≠ line) } }

/-- The CMP may go: data that a port forwards to a requester inside the block has reached it, so that it then holds both
(R245, R246). A port that has left forwards nothing more. -/
def fwdArrived (s : State) (t : Txn) : Bool :=
  match t.fwdBy.bind portOf with
  | some n => (reqAgent t.requester).any (fun a => (portOf a).isSome) || t.fwd.isSome || !portTalks s (n + 1)
  | none => true

/-- FWD_DATA (R246, R285): the data goes to the requester that ROUTE names, a port or a unit that keeps it until its CMP
names it; an unknown one is discarded and counted. -/
def execFwdData (port : Port) (route : W16) (rtxn : W16) (data : LineData) (poison : Bool) (s : State) :
    Host.Outcome State Fault Refusal :=
  .next <|
    if !alive s || !portTalks s (port.val + 1) then s
    else
      let t := s.coh.txns.find? (fun t =>
        reqOfNum route.toNat = some t.requester && t.txn.setWidth 16 = rtxn && t.phase ≠ .waiting)
      match t with
      | none => count (2496 + 8 * port.val + 4) s
      | some t =>
        match (reqAgent t.requester).bind portOf with
        | some n => girthSend n (.data t.txn false data poison) s
        | none => if t.phase = .granted then s else setTxn { t with fwd := some (data, poison) } s

/-! ### Write-backs (R247, R248) -/

/-- WB (R247): taken into the eviction buffer, or into the busy transaction's own entry, or refused. While the line's home
moves, no directory tracks the line and the quarter it moves to takes the data (R251 step 2). -/
def wbArrives (slot : Fin 9) (line : LineAddr) (data : LineData) (poison : Bool) (s : State) : State :=
    let a := slot.val
    let k := homeOf s line
    let moving := s.coh.qmoves.any (fun m => m.q = serving s (ownQuarter line))
    let late := (lateOf s line a).any (·.wb) && !(dirFind s line).any (fun e => e.2.has a)
    if !alive s || !portTalks s a || (homeAway s line && !moving) then s
    else if moving then
      { s with coh := { s.coh with evict := s.coh.evict.filter (fun b => !(b.line = line && b.slot = a)) ++
          [⟨line, a, data, poison, false, false, false⟩] } }
    else if late then
      let s1 := ksCount k 2 (setLate line a ((lateOf s line a).any (·.rsp)) false s)
      match portOf a with
      | some n => girthSend n (.wbAck line) s1
      | none => s1
    else
      let again := s.coh.retried.find? (fun x => x.requester = .slot slot && x.line = line && x.isWb)
      let kept := (s.coh.retried.filter (fun x => x.go && x.isWb && homeOf s x.line = k)).length
      let full := 32 ≤ (s.coh.evict.filter (fun b => !b.own && homeOf s b.line = k)).length + kept
      let put := fun (b : EvictBuf) (s : State) => { s with coh := { s.coh with evict := s.coh.evict ++ [b] } }
      let mine := (s.coh.retried.filter (fun x => x.requester = .slot slot && homeOf s x.line = k)).length
      let dropAgain := fun (s : State) =>
        { s with coh := { s.coh with retried := s.coh.retried.filter (fun x => !(x.requester = .slot slot && x.line = line && x.isWb)) } }
      let take := fun (s : State) =>
        match busyTxn s line with
        | some _ => put ⟨line, a, data, poison, false, true, false⟩ s
        | none => put ⟨line, a, data, poison, false, false, false⟩ (wbHome a line s)
      if wbAwaited s line a then
        let s1 := dropAgain (put ⟨line, a, data, poison, true, false, false⟩ s)
        match (busyTxn s line).filter (fun t => t.awaitWb.contains a) with
        | some t => settle { t with data := some (data, true, poison), awaitWb := t.awaitWb.filter (· ≠ a) } s1
        | none => endVictim line (drainEvicts line { s1 with coh := { s1.coh with
            victims := modFirst (fun v => v.line = line) (fun v => { v with awaitWb := v.awaitWb.filter (· ≠ a) }) s1.coh.victims } })
      else
        match again with
        | some x => if x.go then take { s with coh := { s.coh with retried := dropFirst (· = x) s.coh.retried } } else s
        | none =>
          if 4 ≤ mine then overCredit (.slot slot) line s
          else if full then
            let x : Retried := { line := line, requester := .slot slot, isWb := true }
            { s with coh := { s.coh with retried := s.coh.retried ++ [x] } }
          else take s

/-- WB_ACK (R247): the vault has accepted the write; a write-back waits for the busy transaction before it. -/
def execWbAck (slot : Fin 9) (line : LineAddr) (s : State) : Host.Outcome State Fault Refusal :=
  .next <|
    let a := slot.val
    let free := match busyTxn s line with
      | some t => t.phase = .granted
      | none => true
    match s.coh.evict.find? (fun b => b.line = line) with
    | none => s
    | some b =>
      if !alive s || !free || b.pend || b.slot ≠ a then s
      else
        let s1 := drainEvicts line s
        let s2 := { s1 with coh := { s1.coh with evict := dropFirst (fun b => b.line = line && b.slot = a) s1.coh.evict } }
        match portOf a with
        | some n => girthSend n (.wbAck line) s2
        | none =>
          if a = 8 then
            { s2 with coh := { s2.coh with trestleLines := s2.coh.trestleLines.filter (fun e => e.1 ≠ line.toNat) } }
          else if a = 0 then emit (.memCmp line 0) s2 else s2

/-! ### Ends of quarter moves (R251) -/

/-- Agents that a HOME_MOVE waits for: chiplets of ports that talk, and slots 7 and 8. -/
def moveSlots (s : State) : List Nat := ((List.range 6).map (· + 1)).filter (portTalks s) ++ [7, 8]

/-- Lines of served-by-`q` quarters. -/
def movedLine (s : State) (q : Nat) (l : LineAddr) : Bool := serving s (ownQuarter l) = q

/-- A move whose every slot has answered ends: the map changes, the sweep of the moved quarters begins, and held requests
are resent (steps 3 and 4). -/
def endMove (m : QMove) (s : State) : State :=
  if !(moveSlots s).all m.answered.contains then s
  else
    let moved := (List.range 4).filter (fun q => serving s q = m.q)
    let serve := moved.foldl (fun v q => v - v / 4 ^ q % 4 * 4 ^ q + m.dest * 4 ^ q) s.coh.serve.toNat
    foldS s.coh.away atHome (routeChange moved m.dest
      { s with coh := { s.coh with
          qmoves := dropFirst (fun x => x.q = m.q) s.coh.qmoves, serve := BitVec.ofNat 8 serve, away := []
          sweeping := s.coh.sweeping.filter (fun x => !moved.contains x.1) ++ moved.map (fun q => (q, 0)) } })

/-- Every move that can end does. -/
def endMoves (s : State) : State := foldS s.coh.qmoves endMove s

/-! ### Slots that leave (R228, R294) -/

/-- Outstanding snoops and unacknowledged grants of slot `a` are settled by the home itself. -/
def settleSlot (a : Nat) (poison : Bool) (s : State) : State :=
  let isIt := fun (x : Snoop) => decide (x.slot = a) && x.sent
  let s1 := foldS (s.coh.txns.filter (fun t => t.awaiting.any isIt || t.awaitWb.contains a))
    (fun t s =>
      let owner := t.before.owner.toNat = a && t.before.owned s.coh.moesi
      if poison && owner then silentSlot t.line a false s
      else match busyTxn s t.line with
        | some t => settle { (t.lose a) with
            awaiting := dropFirst isIt t.awaiting, awaitWb := t.awaitWb.filter (· ≠ a) } s
        | none => s) s
  let s2 := foldS (s1.coh.victims.filter (fun v => v.awaiting.any isIt || v.awaitWb.contains a))
    (fun v s => if poison && v.before.owner.toNat = a && v.before.owned s.coh.moesi then silentSlot v.line a false s
      else victimAnswers { v with awaitWb := v.awaitWb.filter (· ≠ a) } a .i false
        { s with coh := { s.coh with victims := modFirst (· = v) (fun v => { v with awaitWb := v.awaitWb.filter (· ≠ a) }) s.coh.victims } }) s1
  foldS (s2.coh.txns.filter (fun t => t.phase = .granted && reqAgent t.requester = some a))
    (fun t => finishTxn t.line none) s2

/-- Every directory entry loses slot `a`; its X and O entries are poisoned where `poison` says so (R294). -/
def sweepSlot (a : Nat) (poison : Bool) (s : State) : State :=
  let s1 := { s with coh := { s.coh with
    retried := s.coh.retried.filter (fun x => reqAgent x.requester ≠ some a)
    away := s.coh.away.filter (fun h => reqAgent h.requester ≠ some a)
    evict := s.coh.evict.filter (·.slot ≠ a) } }
  foldS (s1.coh.dir.filter (fun e => e.2.valid && e.2.has a))
    (fun e s =>
      let l := lineOfEntry e.1 e.2
      let own := e.2.owner.toNat = a && e.2.owned s.coh.moesi
      let s1 := if own && poison then homeWrite l 0 0 true s else s
      let e1 := e.2.without a
      let s2 := dirPut e.1 e1.norm s1
      if e1.presence = 0 && !busy s l then untrack l s2 else s2) (settleSlot a poison s1) |> endMoves

/-! ### Track counts (R235) -/

/-- TRACK_INC (R235). -/
def execTrackInc (line : LineAddr) (s : State) : Host.Outcome State Fault Refusal :=
  .next <|
    match trackKey s line with
    | some k =>
      if alive s && s.coh.trackInc.contains line then
        { s with coh := { s.coh with trackInc := s.coh.trackInc.erase line
                                     track := tmod (fun _ => 0) s.coh.track k (· + 1) } }
      else s
    | none => s

/-- TRACK_INC_ACK (R235): the first copy may be granted. -/
def execTrackIncAck (line : LineAddr) (s : State) : Host.Outcome State Fault Refusal :=
  .next <|
    match busyTxn s line with
    | some t =>
      if alive s && t.phase = .tracking && !s.coh.trackInc.contains line then
        setTxn { t with phase := .ready, counted := true } s
      else s
    | none => s

/-- TRACK_DEC (R235). The home sends it once the line's write-back is in memory, so that no pier write passes that (R247). -/
def execTrackDec (line : LineAddr) (s : State) : Host.Outcome State Fault Refusal :=
  .next <|
    match trackKey s line with
    | some k =>
      if alive s && s.coh.trackDec.contains line && !s.coh.evict.any (fun b => b.line = line && !b.written) then
        { s with coh := { s.coh with trackDec := s.coh.trackDec.erase line
                                     track := tmod (fun _ => 0) s.coh.track k (fun c => c - BitVec.ofNat 16 (b2n (c ≠ 0))) } }
      else s
    | none => s

/-! ### Eviction mode, host exchange, quarter moves (R238, R240, R251) -/

/-- A change of the effective eviction mode is broadcast to the agents (R238). -/
def tellMode (was : Bool) (s : State) : State :=
  if forcedMode s = was then s
  else foldS (List.range 6) (fun n s => if portTalks s (n + 1) then girthSend n (.mode (forcedMode s)) s else s) s

def setForcedHw (v : Bool) (s : State) : State :=
  tellMode (forcedMode s) { s with coh := { s.coh with forcedHw := v } }

/-- FORCED_SW_WRITE (R238). -/
def setForcedSw (v : Bool) (s : State) : State :=
  tellMode (forcedMode s) { s with coh := { s.coh with forcedSw := v } }

def execForcedSwWrite (value : Bool) (s : State) : Host.Outcome State Fault Refusal :=
  .next (if writable s then setForcedSw value s else s)

/-- BICONFLICT (R240): only an outstanding snoop of slot 0 can cross a request of the host. The acknowledgement leaves on the
channel of the completions, behind every completion already sent, with the tag of the host's message (PRESUMED: CXL 3.1,
notes/assumptions/43.md): a request the home has completed comes before the snoop,
and one that waits for the busy line comes after it, for the line is busy until the snoop is answered (R243). -/
def execBiconflict (line : LineAddr) (tag : W16) (s : State) : Host.Outcome State Fault Refusal :=
  .next <|
    let out := fun (x : Snoop) => decide (x.slot = 0) && x.sent
    let crossing := (match busyTxn s line with
      | some t => t.awaiting.any out
      | none => false) || s.coh.victims.any (fun v => v.line = line && v.awaiting.any out)
    if alive s && crossing then emit (.biConflictAck line tag) s else s

/-- Next unfenced quarter after `q`, ascending modulo 4 (R251). -/
def nextQuarter (s : State) (q : Nat) : Option Nat :=
  ([1, 2, 3].map (fun i => (q + i) % 4)).find? (fun x => !s.coh.qFenced.getLsbD x)

/-- A keystone quarter is fenced: its directory and transaction entries are lost and the move begins (R251 steps 1, 2). The
requesters hold their requests that were inside; refused ones go on waiting at the new home, and the host port holds the
host's write-backs. -/
def startQmove (q : Nat) (s : State) : State :=
  let fenced := { s with coh := { s.coh with qFenced := withBit s.coh.qFenced q } }
  match nextQuarter fenced q with
  | none => s
  | some dest =>
    -- a move that was under way to this quarter goes to the next one in service
    let others := modAll (fun (m : QMove) => m.dest = q) (fun m => { m with dest := (nextQuarter fenced m.q).getD dest }) s.coh.qmoves
    let here := fun (l : LineAddr) => decide (homeOf s l / 16 = q)
    let c := s.coh
    let s1 := { s with coh := { c with
        qFenced := withBit c.qFenced q
        qmoves := others ++ [⟨q, dest, []⟩]
        dir := c.dir.filter (fun e => e.1 / 524288 / 16 ≠ q)
        txns := c.txns.filter (fun t => !here t.line)
        away := c.away ++ (c.txns.filter (fun t => here t.line && t.phase ≠ .granted)).map
          (fun t => ⟨t.requester, t.ctx, t.line, t.req, t.txn⟩)
        retried := c.retried.filter (fun x => !(x.isWb && here x.line))
        evict := (c.evict.filter (fun b => !here b.line || b.slot = 0)).map (fun b => if here b.line then { b with own := false, pend := false } else b)
        victims := c.victims.filter (fun v => !here v.line)
        holds := c.holds.filter (fun h => !here h.1)
        late := c.late.filter (fun m => !here m.line)
        owed := c.owed.filter (fun l => !here l)
        trackInc := c.trackInc.filter (fun l => !here l)
        trackDec := c.trackDec.filter (fun l => !here l) } }
    let s2 := setForcedHw true s1
    foldS (List.range 6) (fun n s => if portTalks s (n + 1) then girthSend n (.homeMove q) s else s) s2

/-- HOME_MOVE_DONE (R251 steps 2 to 4): when every slot has answered, the map changes and held requests can be resent. -/
def execHomeMoveDone (slot : Fin 9) (quarter : Fin 4) (s : State) : Host.Outcome State Fault Refusal :=
  .next <|
    match s.coh.qmoves.find? (fun m => m.q = quarter.val) with
    | none => s
    | some m =>
      let a := slot.val
      if !alive s || a = 0 || m.answered.contains a || !portTalks s a then s
      else
        -- Slots 7 and 8 drop what they hold of the moved lines here; nothing in the cache is dirty, and the line store
        -- writes its dirty lines back.
        let s1 :=
          if a = 7 then
            { s with coh := { s.coh with dc := s.coh.dc.filter (fun e =>
              !(e.2.space && movedLine s m.q (BitVec.ofNat 32 e.2.line.toNat))) } }
          else if a = 8 then
            let mine := s.coh.trestleLines.filter (fun e => movedLine s m.q (BitVec.ofNat 32 e.1))
            let dirty := mine.filter (fun e => e.2.st = .m || (e.2.st = .f && s.coh.moesi))
            let s' := foldS dirty (fun e => homeWrite (BitVec.ofNat 32 e.1) e.2.data (BitVec.allOnes 64) e.2.poison) s
            { s' with coh := { s'.coh with
              trestleLines := s'.coh.trestleLines.filter (fun e => !movedLine s m.q (BitVec.ofNat 32 e.1)) } }
          else s
        endMoves { s1 with coh := { s1.coh with
          qmoves := modFirst (fun x => x.q = m.q) (fun x => { x with answered := x.answered ++ [a] }) s1.coh.qmoves } }

/-- QMOVE_SWEEP_END (R251): the sweep has nothing left to snoop and its snoops are answered; on-demand snooping of the
quarter's lines ends, and FORCED_HW clears with the last sweep. -/
def execQmoveSweepEnd (quarter : Fin 4) (s : State) : Host.Outcome State Fault Refusal :=
  .next <|
    match s.coh.sweeping.find? (fun q => q.1 = quarter.val) with
    | none => s
    | some q =>
      let open_ := (sweepLine s q.1 q.2).isSome || s.coh.victims.any (fun v => v.sweep && ownQuarter v.line = q.1)
      if !alive s || open_ || !s.coh.qmoves.isEmpty then s
      else
        let left := s.coh.sweeping.filter (fun x => x.1 ≠ quarter.val)
        let s1 := { s with coh := { s.coh with sweeping := left } }
        if left.isEmpty && s.power.done then setForcedHw false s1 else s1

end Sys2Proof.Machine
end

