-- ==== Sys2Proof/Machine/CacheCommands.lean ====
section
/-!
DEFINITION. Machine/CacheCommands.lean: requests to the device cache, fences and range invalidations
(08_keystones_and_cache.md R253 to R260).
-/
namespace Sys2Proof.Machine

/-- Counter of a slice (R411). -/
def sliceCount (sl i : Nat) (s : State) : State := count (1536 + 4 * sl + i) s

/-- A read of a host line through the cache (R253 to R255): the line and its poison, none where the miss cannot reach
the host. -/
def dcHostRead (cls : Nat) (line : BitVec 46) (fill : LineData) (fillPoison : Bool) (s : State) : Option (Line × State) :=
  let ln := line.toNat
  let sl := dcSlice ln
  match dcFind s false ln with
  | some (_, x) => some (⟨dcOverlay s false ln x.data, false⟩, sliceCount sl 0 s)
  | none =>
    if !cacheLink s then none
    else
      let alloc := !(eligibleWays s sl cls).isEmpty
      let s1 := emit (.cacheRead line alloc) (sliceCount sl 1 s)
      let s2 := if alloc && !fillPoison then cacheInstall cls ⟨false, line, .s, fill⟩ s1 else s1
      some (⟨dcOverlay s2 false ln fill, fillPoison⟩, s2)

/-- DC_READ (R254): a hit, a host fill, or a fill that waits for the line's home (R253). -/
def execDcRead (cls : Fin 16) (space : Bool) (line : BitVec 46) (fill : LineData) (fillPoison : Bool) (s : State) :
    Host.Outcome State Fault Refusal :=
  .next <|
    let ln := line.toNat
    let sl := dcSlice ln
    if !alive s then s
    else if !space then
      match dcHostRead cls.val line fill fillPoison s with
      | some (l, s1) => emit (.interiorData false ln l.data l.poison) s1
      | none => s
    else
      match dcFind s true ln with
      | some (_, x) => emit (.interiorData true ln (dcOverlay s true ln x.data) false) (sliceCount sl 0 s)
      | none =>
        let f : DcFill := { line := BitVec.ofNat 32 ln, cls := cls.val, cur := (eligibleWays s sl cls.val).isEmpty }
        sliceCount sl 1 { s with coh := { s.coh with fills := s.coh.fills ++ [f] } }

/-- Numbers the next fence and marks the entries it waits for: those that hold a store of its class (R258). -/
def markFence (cls : Nat) (s : State) : State :=
  let n := s.coh.fenceCtr
  let mark := modAll (fun (m : Merge) => m.classes.contains cls) (fun m => { m with fencedBy := m.fencedBy ++ [n] })
  { s with coh := { s.coh with merges := mark s.coh.merges, draining := mark s.coh.draining
                               fences := s.coh.fences ++ [(n, cls)], fenceCtr := n + 1 } }

/-- A fence of a class, which stands for its one requester that stores through the cache (R258; notes/assumptions/99.md):
the entries it waits for drain in every slice; it is over once their homes have accepted them. -/
def dcFence (cls : Nat) (s : State) : State :=
  endFences (drainWhere (fun m => m.classes.contains cls) (markFence cls s))

/-! ### Range invalidation (R260) -/

/-- The line lies in `pages` 4 KiB pages from page `base` (64 lines a page). -/
def inPages (base pages line : Nat) : Bool := base * 64 ≤ line && line < (base + pages) * 64

/-- The slot-7 lines of the range leave the cache; in FORCED mode each HDM line is evicted at its home. -/
def dcInvalidate (p : DcLine → Bool) (s : State) : Nat × State :=
  let hit := s.coh.dc.filter (fun e => p e.2)
  let s1 := { s with coh := { s.coh with
    dc := s.coh.dc.filter (fun e => !p e.2)
    fills := modAll (fun f => p ⟨true, BitVec.ofNat 46 f.line.toNat, .s, 0⟩) (fun f => { f with noInstall := true }) s.coh.fills } }
  let s2 := if forcedMode s then
      foldS (hit.filter (fun e => e.2.space)) (fun e => cacheEvicts (BitVec.ofNat 32 e.2.line.toNat)) s1
    else s1
  (hit.length, s2)

/-- A line lies in a range job. -/
def inJob (j : Bool × Nat × Nat) (space : Bool) (line : Nat) : Bool := space = j.1 && inPages j.2.1 j.2.2 line

/-- A write of DC_RANGE_INV (Table 8-12): SPACE and BASE, and GO, which starts the drains. -/
def dcRangeWrite (v : W64) (s : State) : State :=
  if v.getLsbD 63 && s.coh.rangeJob.isSome then countIgnored 0x70400 s
  else
    let s1 := { s with coh := { s.coh with rangeSpace := v.getLsbD 62, rangeBase := BitVec.ofNat 40 (fld v 12 40) } }
    if !v.getLsbD 63 then s1
    else
      let j := (s1.coh.rangeSpace, s1.coh.rangeBase.toNat, s1.coh.rangePages.toNat)
      let s2 := { s1 with coh := { s1.coh with rangeJob := some j, linesInv := 0 } }
      endFences (drainWhere (fun m => inJob j m.space m.line.toNat) s2)

def execDcRangeInv (value : W64) (s : State) : Host.Outcome State Fault Refusal :=
  .next (if writable s then dcRangeWrite value s else s)

end Sys2Proof.Machine
end

