-- ==== Sys2Proof/Machine/Collector.lean ====
section
/-!
DEFINITION. Machine/Collector.lean: latching, clearing and configuring fault sources, traps and the safe state
(12_fault_collector.md).
-/
namespace Sys2Proof.Machine

/-- FAULT_LATCH (R315 to R319): an event, the start of a level source's condition, or a wire fault reaches the collector; a
wire fault and a level condition hold LIVE until the pair is idle again. An uncorrectable directory check leaves an entry of
the set unknown until it is read (R236); a key slot that fails its check is lost (R340). -/
def execFaultLatch (source : Fin 2944) (cls : FaultClass) (what : PairEvent) (detail : W32) (s : State) :
    Host.Outcome State Fault Refusal :=
  .next <|
    let hold := fun (v : Bool) (s : State) =>
      let b := clsCode cls - 1
      let x := srcGet s source
      srcSet source { x with asserted := if v then withBit x.asserted b else dropBit x.asserted b } s
    if !alive s then s
    else if what = .idle then hold false s
    else if what = .wireFault then latch source cls true detail.toNat (hold true s)
    else if (srcInfo source).level then raiseLevel source cls true detail.toNat s
    else
      let s1 := latch source cls false detail.toNat s
      if source = 2940 && cls = .ft && sampled s source then
        { s1 with sec := { s1.sec with slots := tset (fun _ => {}) s1.sec.slots detail.toNat {} } }
      else if 1280 ≤ source.val && source.val < 1344 && cls = .uc && sampled s source then
        { s1 with coh := { s1.coh with
            badSets := s1.coh.badSets ++ [(source.val - 1280) * 32768 + detail.toNat % 32768] } }
      else s1

/-- FAILING_BEAT_SENT (R322): the frame that holds the beat leaves the pins; the chip reset begins, or the adapter sends
only IDLE in the safe state. -/
def execFailingBeatSent (s : State) : Host.Outcome State Fault Refusal :=
  .next <|
    match s.faults.handover with
    | none => s
    | some next =>
      let s1 := emit (.viaFrame s.viaduct.txNum s.viaduct.rxAck s.viaduct.nak s.viaduct.health (viaKey s s.viaduct.txNum))
        { s with faults := { s.faults with handover := none }
                 viaduct := { s.viaduct with health := [], txNum := s.viaduct.txNum + 1 } }
      match next with
      | some cause => chipReset cause s1
      | none => s1

/-! ### Traps (R319, R321) -/

/-- Service order of traps: FT, UC, CE, then ascending source. -/
def trapBefore (a b : FaultClass × Nat) : Bool :=
  decide (clsCode b.1 < clsCode a.1) || (a.1 = b.1 && decide (a.2 < b.2))

/-- The trap core 0 takes next. -/
def nextTrap : List (FaultClass × Nat) → Option (FaultClass × Nat)
  | [] => none
  | t :: ts =>
    match nextTrap ts with
    | some u => if trapBefore u t then some u else some t
    | none => some t

/-- The domain is FENCED, or its fence is under way. -/
def Pd.fencing (p : Pd) : Bool := p.st = .fenced || p.fence.isSome

/-- The block is FENCED already: the domain, the girth port, or no pair that a fence acts on (R321, R324). -/
def blockFenced (b : Block) (s : State) : Bool :=
  match b with
  | .domain d => (pdGet s d).fencing
  | .port n => (tget (fun _ => {}) s.girth.ports n.val : GirthPort).st = .fenced
  | .engine _ => false
  | .pair => s.pair.st ≠ .mirrored && s.pair.st ≠ .rejoining

/-- Keystone quarters not fenced. -/
def quartersLeft (s : State) : Nat := ((List.range 4).filter (fun q => !(pdGet s (320 + q)).fencing)).length

/-- The block is a keystone quarter and the only one not fenced. -/
def lastQuarter (b : Block) (s : State) : Bool :=
  match b with
  | .domain d => 320 ≤ d.val && d.val < 324 && quartersLeft s = 1
  | _ => false

/-- The units at whose nodes a block's boundary routers stand (Table 11-3, R307), in the order core 0 sends to them. -/
def blockUnits (b : Block) : List Nat :=
  let run := fun (n k : Nat) => (List.range k).map (n + ·)
  match b with
  | .domain d =>
    if d.val < 320 then [d.val]
    else if d.val < 324 then run (320 + 16 * (d.val - 320)) 16
    else if d.val < 328 then run (384 + 4 * (d.val - 324)) 4
    else run (256 + 16 * (d.val - 328)) 16
  | .port n => [0x1E0 + n.val]
  | .engine e => [0x1A0 + e.val]
  | .pair => [0x1EA]

/-- The unit that answers for a block: the one that its last message reaches. -/
def blockUnit (b : Block) : Nat := (blockUnits b).getLastD 0

/-- Core 0's guaranteed message to a block, one to each of its boundary routers; the last one solicits the reply (R302, R319). -/
def sendMsg (m : BlockMsg) (s : State) : State :=
  foldS (blockUnits m.block)
    (fun u => sendPacket { src := 0x190, dest := u, vn := .ctl, guar := true, ttag := m.source } (u = blockUnit m.block))
    { s with faults := { s.faults with messages := s.faults.messages ++ [m] } }

/-- Core 0 sends a FENCE or BLKRST message: FENCE supersedes BLKRST of the same block, and neither acts on a block that
is FENCED; a FENCE of the last quarter becomes CHIPRST (R321). -/
def sendBlock (b : Block) (isFence : Bool) (n : Nat) (s : State) : State :=
  if blockFenced b s then s
  else if isFence && lastQuarter b s then handover (some 3) s
  else if isFence then
    sendMsg ⟨b, true, n⟩ { s with faults := { s.faults with
      messages := s.faults.messages.filter (fun m => m.block ≠ b || m.isFence) } }
  else if s.faults.messages.any (fun m => m.block = b && m.isFence) then s
  else sendMsg ⟨b, false, n⟩ s

/-- Core 0's handler takes the next trap and acts on its reaction set; a chip reset that is under way supersedes every
FENCE and BLKRST (R319, R321). -/
def takeTrap (s : State) : State :=
  match nextTrap s.faults.traps with
  | none => s
  | some (c, n) =>
    let s1 := { s with faults := { s.faults with traps := dropFirst (· == (c, n)) s.faults.traps } }
    let s2 := trestleSet 0 { trestleGet s1 0 with last := some (.trap c n) } s1
    let r := (srcGet s2 n).react c
    match (srcInfo n).block with
    | none => s2
    | some b =>
      if r &&& rChiprst ≠ 0 || s2.faults.handover.any (·.isSome) then s2
      else if r &&& rFence ≠ 0 then sendBlock b true n s2
      else if r &&& rBlkrst ≠ 0 then sendBlock b false n s2
      else s2

/-- Core 0's handler of the reply queue has begun and has not come to its end (R38, Table 1-14). -/
def repliesOpen (s : State) : Bool := (trestleGet s 0).last = some (.bit 0) && !s.faults.replies.isEmpty

/-- TRAP (R319, R321): core 0 dispatches it once no handler of the core runs (R38). -/
def execTrap (s : State) : Host.Outcome State Fault Refusal :=
  .next (if coreRuns 0 s && !repliesOpen s then takeTrap s else s)

/-! ### Replies of fenced and reset blocks -/

/-- Argument B of FENCE_DONE and BLKRST_DONE (Table 17-2). The table gives a transfer engine no number: free. -/
def blockArg (b : Block) (fresh : Nat) : Nat :=
  match b with
  | .domain d => d.val
  | .port n => n.val
  | .pair => 0x1FF
  | .engine _ => (Config.freeWord fresh).toNat % 512

/-- FENCE_REPLY (R401, Table 17-2): core 0 finds the oldest queued reply. The handler of bit 0 begins with the first one, once
no trap is pending, and takes every queued reply (R38, R39). -/
def execFenceReply (s : State) : Host.Outcome State Fault Refusal :=
  .next <|
    if !coreRuns 0 s || (!repliesOpen s && !s.faults.traps.isEmpty) then s
    else
      match s.faults.replies with
      | [] => s
      | r :: rest =>
        let s0 := dispatchBit 0 0 s
        let (n, s1) := drawFree { s0 with faults := { s0.faults with replies := rest } }
        notice 0 (if r.isFence then 1 else 2) r.source
          (trace (if r.isFence then 0x02 else 0x03) (uCore 0) r.source (blockArg r.block n) s1)

/-! ### Clearing and configuring -/

/-- Status bits after a W1C write of FS_STS[7:0] (R325). -/
def FaultSource.clear (x : FaultSource) (ones : Byte) : FaultSource :=
  { x with ce := x.ce && !ones.getLsbD 0, uc := x.uc && !ones.getLsbD 1, ft := x.ft && !ones.getLsbD 2
           wire := x.wire && !ones.getLsbD 7 }

/-- Any source has a status bit set. -/
def anyStatus (s : State) : Bool := s.faults.sources.any (fun e => e.2.any)

/-- Clears status bits that LIVE does not hold; the all-clear message follows the last one (R325, R377). -/
def clearSource (n : Nat) (ones : Byte) (s : State) : State :=
  if live s n then s
  else
    let s1 := srcSet n ((srcGet s n).clear ones) s
    if anyStatus s && !anyStatus s1 then emcy 0 0 [] false s1 else s1

/-- FAULT_CLEAR (R325). -/
def execFaultClear (source : Fin 2944) (ones : Byte) (s : State) : Host.Outcome State Fault Refusal :=
  .next <|
    if !writable s then s
    else if live s source then count 2688 s
    else clearSource source ones s

/-- FS_CFG's writable fields (Table 12-3, R320). -/
def fsCfg (n : Nat) (value : W64) (s : State) : State :=
  let x := srcGet s n
  let i := srcInfo n
  srcSet n { x with vector := BitVec.ofNat 11 (fld value 18 11)
                    reactFt := normReact i .ft (BitVec.ofNat 6 (fld value 12 6))
                    reactUc := normReact i .uc (BitVec.ofNat 6 (fld value 6 6))
                    reactCe := normReact i .ce (BitVec.ofNat 6 (fld value 0 6)) } s

/-- A write sets FENCE or BLKRST where the source names no block for it (R320). -/
def fsCfgStray (n : Nat) (value : W64) : Bool :=
  let i := srcInfo n
  let all := fld value 0 18
  let bit := fun k => all.testBit k || all.testBit (6 + k) || all.testBit (12 + k)
  (!i.fenceOk && bit 5) || (!i.blkrstOk && bit 2)

/-- FS_CFG_WRITE (R320, R323). -/
def fsCfgWrite (n : Nat) (value : W64) (s : State) : State :=
  if s.faults.lock then count 2688 s
  else restamp 10 (fsCfg n value (if fsCfgStray n value then count 2688 s else s))

def execFsCfgWrite (source : Fin 2944) (value : W64) (s : State) : Host.Outcome State Fault Refusal :=
  .next (if writable s then fsCfgWrite source value s else s)

/-- FC_LOCK (R323). -/
def execFcLock (s : State) : Host.Outcome State Fault Refusal :=
  .next (if writable s then restamp 10 { s with faults := { s.faults with lock := true } } else s)

/-! ### The safe state (R327, R328) -/

/-- The girth port loses power with the safe state: GP_PWREN low, the link idle. -/
def GirthPort.unpowered (p : GirthPort) : GirthPort :=
  { p with pwren := false, st := .off, step := 0, held := [], outq := [], retrain := none
           quiesceBy := none, encOn := false }

/-- Entry to the safe state: SAFE and its cause, the safe-state message first, the handover, engines stopped, girth
ports unpowered, every tier and stack in self-refresh. -/
def safeEnter (cause : BitVec 2) (s : State) : State :=
  if s.faults.safe then s
  else
    let s1 := { s with faults := { s.faults with safe := true, safeCause := cause } }
    let s2 := emcy 0xFF05 0 (leBytes 1 cause.toNat) true (trace 0x04 uCollector cause.toNat 0 s1)
    let s3 := { s2 with service := { s2.service with quiesced := true }
                        store := { s2.store with selfRefresh := allSelfRefresh } }
    let s4 := foldS (s3.girth.ports.map (·.1)) (fun n s => portSet n (portGet s n).unpowered s) s3
    handover none s4

/-- SAFE_ENTER (R327, R328). -/
def execSafeEnter (cause : BitVec 2) (s : State) : Host.Outcome State Fault Refusal :=
  .next (if alive s then safeEnter cause s else s)

/-- FS_CFG_SWEEP (R327): every 1,000 ticks; a parity error enters the safe state. -/
def execFsCfgSweep (parityError : Bool) (s : State) : Host.Outcome State Fault Refusal :=
  .next <|
    if alive s && due s.faults.nextSweep s then
      let s1 := { s with faults := { s.faults with nextSweep := s.faults.nextSweep + 1000 } }
      if parityError then safeEnter 1 s1 else s1
    else s

/-- CAN_ERROR_STATE (R324): source 2942 is level, CE while error passive and UC while bus off. -/
def execCanErrorState (e : CanErr) (tec rxec : Byte) (s : State) : Host.Outcome State Fault Refusal :=
  .next <|
    if !alive s then s
    else
      let code : BitVec 2 := match e with
        | .active => 0
        | .passive => 1
        | .busOff => 2
      let d := tec.toNat + 256 * rxec.toNat
      raiseLevel 2942 .uc (e = .busOff) d (raiseLevel 2942 .ce (e = .passive) d
        { s with milell := { s.milell with canState := code, tec := tec, rxec := rxec } })

end Sys2Proof.Machine
end

