-- ==== Sys2Proof/Machine/Journal.lean ====
section
/-!
DEFINITION. Machine/Journal.lean: handles, the cinch journal's tables and extents, and its mirroring to the partner
(05_generation_service.md R145, R153; 06_pair_and_guarantee.md R179 to R182).
-/
namespace Sys2Proof.Machine

/-! ### CRC-32C (Table 6-11a; the published polynomial, notes/assumptions/15.md) -/

def crcStep (c : Nat) (b : Byte) : Nat :=
  (List.range 8).foldl (fun c _ => if c % 2 = 1 then (c / 2) ^^^ 0x82F63B78 else c / 2) (c ^^^ b.toNat)

def crc32c (l : List Byte) : W32 := BitVec.ofNat 32 ((l.foldl crcStep 0xFFFFFFFF) ^^^ 0xFFFFFFFF)

/-! ### The journal region (Table 6-9) -/

def jRegion (s : State) : Option Region := ((validRegions s.store.regions).find? (fun e => e.2.isJournal)).map (·.2)

def regionLines (s : State) : Nat := ((jRegion s).map (fun r => r.bytes / 64)).getD 0

/-- Bytes of the journal region at an offset. -/
def jRead (s : State) (off n : Nat) : List Byte :=
  match jRegion s with
  | some r => peekBytes s (r.baseB + off) n
  | none => List.replicate n 0

/-- What reading bytes of the region does beside delivering them: rows open (R115), and a poisoned primary copy is rewritten
from the second one (R124). -/
def jTouch (off n : Nat) (s : State) : State :=
  match jRegion s with
  | some r => (readRun .service (r.baseB + off) n s).2.2
  | none => s

/-- Writes bytes of the region, to both of its copies (R124). -/
def jWrite (off : Nat) (l : List Byte) (s : State) : State :=
  match jRegion s with
  | some r => pokeBytes .service (r.baseB + off) l s
  | none => s

def offContext (n : Nat) : Nat := 0x10000 + 64 * n
def offLongOp (j : Nat) : Nat := 0x50000 + 128 * j
def offTwin (role n : Nat) : Nat := 0x80000 + 8 * (32768 * role + n)
def offIndex (i : Nat) : Nat := 0x100000 + 32 * i
def offExtents : Nat := 0x1000000

/-- Lines of the extent area. -/
def areaLines (s : State) : Nat := regionLines s - offExtents / 64

/-! ### Roles and halves (R153, R179, R181) -/

/-- Role as the journal numbers it: 0 for A and in SOLO. -/
def roleN (s : State) : Nat := b2n s.pair.roleB

/-- The member's own half of `total` things: first and number. -/
def ownPart (total : Nat) (s : State) : Nat × Nat :=
  if s.pair.st = .solo then (0, total) else (total / 2 * roleN s, total / 2)

/-- The context number lies in the member's own range (R181). -/
def ownContext (n : Nat) (s : State) : Bool :=
  match s.pair.st with
  | .solo => true
  | .pairing => false
  | _ => if s.pair.roleB then 2048 ≤ n else n < 2048

/-! ### Mirroring (R182) -/

/-- Entries are sent to the partner. -/
def sends (s : State) : Bool := s.pair.st = .mirrored || s.pair.st = .rejoining

/-- Operations wait for the JOURNAL ACK. -/
def waits (s : State) : Bool := s.pair.st = .mirrored

/-- Queues one JOURNAL message of a fresh tag, and what waits for its ACK. -/
def sendJournal (m : W32 → ViaMsg) (w : AckWait) (s : State) : State :=
  let t := s.viaduct.nextTag
  { s with viaduct := { s.viaduct with journal := s.viaduct.journal ++ [m t], nextTag := t + 1 }
           pair := { s.pair with acks := s.pair.acks ++ [(t, w)] } }

/-- Lines `first` to `first + n - 1` of the region. -/
def jLines (s : State) (first n : Nat) : List LineData :=
  match jRegion s with
  | some r => (List.range n).map (fun i => (peekLine s (r.baseB + (first + i) * 64)).data)
  | none => []

/-- Sends the lines that bytes `off` to `off + n - 1` touch, 64 lines a message; the last message's ACK ends the wait. -/
def mirror (off n : Nat) (w : AckWait) (s : State) : State :=
  let first := off / 64
  let count := (off + n + 63) / 64 - first
  let groups := (count + 63) / 64
  foldS (List.range groups) (fun g s =>
    let ls := jLines s (first + 64 * g) (min 64 (count - 64 * g))
    sendJournal (fun t => .jWrite t (BitVec.ofNat 64 ((first + 64 * g) * 64)) ls)
      (if g + 1 = groups then w else .other) s) s

/-- A journal write that is mirrored. -/
def jPut (off : Nat) (l : List Byte) (w : AckWait) (s : State) : State :=
  let s1 := jWrite off l s
  if sends s then mirror off l.length (if waits s then w else .other) s1 else s1

/-! ### Handles (Table 5-6) -/

def handleOf (longOp : Bool) (inc : BitVec 31) (ctx : BitVec 12) (idx : Nat) : W64 :=
  BitVec.ofNat 64 (b2n longOp * 2 ^ 63 + inc.toNat * 2 ^ 32 + ctx.toNat * 2 ^ 18 + idx)

/-! ### Records and slots -/

def streamGet (s : State) (i : Nat) : Stream := tget (fun _ => {}) s.service.streams i
def streamSet (i : Nat) (x : Stream) (s : State) : State :=
  { s with service := { s.service with streams := tset (fun _ => {}) s.service.streams i x } }
def streamMod (i : Nat) (f : Stream → Stream) (s : State) : State := streamSet i (f (streamGet s i)) s

def opGet (s : State) (j : Nat) : LongOp := tget (fun _ => {}) s.service.longOps j
def opSet (j : Nat) (x : LongOp) (s : State) : State :=
  { s with service := { s.service with longOps := tset (fun _ => {}) s.service.longOps j x } }
def opMod (j : Nat) (f : LongOp → LongOp) (s : State) : State := opSet j (f (opGet s j)) s

def Stream.handle (x : Stream) (i : Nat) : W64 := handleOf false x.inc x.ctx i
def LongOp.handle (x : LongOp) (j : Nat) : W64 := handleOf true x.inc x.ctx j

def Stream.terminal (x : Stream) : Bool := x.st = .done || x.st = .cancelled || x.st = .limited
/-- A stream that runs or may run again. -/
def Stream.live (x : Stream) : Bool := x.st ≠ .free && !x.terminal
def LongOp.isOpen (x : LongOp) : Bool := x.st = .running || x.st = .suspended

/-- Numbers of the records that hold a stream, ascending. -/
def streamIds (s : State) : List Nat := (s.service.streams.filter (fun e => e.2.st ≠ .free)).map (·.1)
def opIds (s : State) : List Nat := (s.service.longOps.filter (fun e => e.2.st ≠ .free)).map (·.1)

/-! ### Free choices of a place -/

/-- Ranges of a list do not meet [a, a + n). -/
def clearOf (used : List (Nat × Nat)) (a n : Nat) : Bool := used.all (fun u => !overlaps a n u.1 u.2)

/-- The lowest place of `n` units in [lo, hi), a multiple of `align`, clear of the used ranges. -/
def firstFit (lo hi align n : Nat) (used : List (Nat × Nat)) : Option Nat :=
  let up := fun a => (a + align - 1) / align * align
  let ok := ((lo :: used.map (fun u => u.1 + u.2)).map up).filter (fun a => lo ≤ a && a + n ≤ hi && clearOf used a n)
  ok.foldl (fun m a => match m with
    | none => some a
    | some b => some (min a b)) none

/-- A place the spec leaves to Idern: a free choice where that fits, the lowest otherwise (notes/assumptions/16.md). -/
def placeIn (fresh lo hi align n : Nat) (used : List (Nat × Nat)) : Option Nat :=
  let a := (lo + (Config.freeWord fresh).toNat % (hi - lo + 1)) / align * align
  if lo ≤ a && a + n ≤ hi && clearOf used a n then some a else firstFit lo hi align n used

/-- A free number in [lo, lo + n), by the same kind of choice. -/
def pickFree (fresh lo n : Nat) (free : Nat → Bool) : Option Nat :=
  let a := lo + (Config.freeWord fresh).toNat % n
  if free a then some a else (findBelow n (fun i => free (lo + i))).map (lo + ·)

/-! ### Stream index and extents (Tables 6-10, 6-11a, R180) -/

/-- Stream index entry of record `i`. -/
def indexBytes (s : State) (i : Nat) : List Byte :=
  let x := streamGet s i
  if x.st = .free then List.replicate 8 0 ++ leBytes 4 x.inc.toNat ++ List.replicate 20 0
  else
    leBytes 4 x.extentLine ++ leBytes 4 x.extentLines ++ leBytes 4 x.inc.toNat ++
      [BitVec.ofNat 8 (roleN s + 2 * b2n x.handed), BitVec.ofNat 8 (min 255 x.restarts)] ++
      leBytes 2 x.deliverCq.toNat ++ leBytes 4 x.ackedSeq.toNat ++
      [BitVec.ofNat 8 (b2n (x.susp.getLsbD 0)), BitVec.ofNat 8 x.priority.toNat] ++ List.replicate 10 0

/-- Writes the index entry and mirrors it. -/
def putIndex (i : Nat) (w : AckWait) (s : State) : State := jPut (offIndex i) (indexBytes s i) w s

/-- Writes the index entry here alone: ACKED_SEQ moves by CURSOR UPDATE (R182). -/
def keepIndex (i : Nat) (s : State) : State := jWrite (offIndex i) (indexBytes s i) s

/-- RECORD_SLOTS and TOKEN_LINES of a request. -/
def recordSlots (raw : Bool) (maxNew : Nat) : Nat := if raw then 1 else maxNew + 1
def tokenLines (raw utf8 : Bool) (maxNew : Nat) : Nat := if !raw && utf8 then (maxNew + 15) / 16 else 0

def Stream.recordSlots (x : Stream) : Nat := Machine.recordSlots x.raw x.maxNew

/-- Offsets of an extent's parts in the region. -/
def Stream.extentOff (x : Stream) : Nat := offExtents + 64 * x.extentLine
def Stream.slotOff (x : Stream) (seq : Nat) : Nat := x.extentOff + 64 * (1 + x.reqLines) + 128 * seq
def Stream.tokenOff (x : Stream) : Nat := x.extentOff + 64 * (1 + x.reqLines + 2 * x.recordSlots)

/-- Extent header line with its CHECK over header and request lines. -/
def extentHeader (x : Stream) (i origin : Nat) (req : List Byte) : List Byte :=
  let h := [if x.raw then 2 else 1, BitVec.ofNat 8 origin] ++ leBytes 2 x.sq.toNat ++ leBytes 2 x.cid.toNat ++ [0, 0] ++
    leBytes 8 (x.handle i).toNat ++ leBytes 8 x.cinchTs.toNat ++ leBytes 4 x.reqLines ++ leBytes 4 x.recordSlots ++
    List.replicate 28 0
  h ++ leBytes 4 (crc32c (h ++ [0, 0, 0, 0] ++ req)).toNat

/-- The extent of a record that the partner serves; no lines where it serves none. -/
def foreignGet (s : State) (i : Nat) : Nat × Nat := tget (fun _ => (0, 0)) s.pair.foreign i
def foreignSet (i : Nat) (v : Nat × Nat) (s : State) : State :=
  { s with pair := { s.pair with foreign := tset (fun _ => (0, 0)) s.pair.foreign i v } }

/-- Extents in use in the bridle's records or by the partner's streams, or withheld by a burnish: start and lines. -/
def extentsUsed (s : State) : List (Nat × Nat) :=
  s.pair.foreign.map (·.2) ++
  (s.service.streams.filter (fun e => e.2.st ≠ .free)).map (fun e => (e.2.extentLine, e.2.extentLines)) ++
  s.sec.contexts.flatMap (fun c => (c.2.withheld.filter (fun w => w.1 = 1024)).map (fun w => (w.2.1, w.2.2)))

/-- Zeroes lines of the region: the slots of a new extent. -/
def jZero (off lines : Nat) (s : State) : State := jWrite off (List.replicate (64 * lines) 0) s

/-! ### Context, long-operation and twin entries (R181) -/

/-- Context table entry: free, created or model bound. -/
def ctxEntry (s : State) (n : Nat) : List Byte :=
  let c := ctxGet s n
  let b : Binding := tget (fun _ => {}) s.host.bindings n
  match (if c.st = .bound then (s.piers.models.find? (fun e => e.1 = n)).map (·.2) else none) with
  | some m =>
    leBytes 4 2 ++ leBytes 4 b.pasid.toNat ++ leBytes 16 m.modelId.toNat ++ leBytes 4 m.keyId.toNat ++
      [BitVec.ofNat 8 c.epoch.toNat] ++ List.replicate 35 0
  | none =>
    leBytes 4 (b2n (c.st ≠ .free)) ++ leBytes 4 b.pasid.toNat ++ List.replicate 16 0 ++ leBytes 4 c.keyId.toNat ++
      [BitVec.ofNat 8 c.epoch.toNat] ++ List.replicate 35 0

/-- A shadow operation on the context is open: its entry is the partner's (R183). -/
def shadowed (s : State) (n : Nat) : Bool :=
  (opIds s).any (fun j => (opGet s j).shadow && (opGet s j).isOpen && (opGet s j).target.toNat = n)

def putContext (n : Nat) (s : State) : State :=
  if shadowed s n then s else jPut (offContext n) (ctxEntry s n) .other s

/-- Status byte of a long operation in the table: FFh while open. -/
def LongOp.tableStatus (x : LongOp) : Byte := if x.isOpen then 0xFF else x.status

def opEntry (s : State) (j : Nat) : List Byte :=
  let x := opGet s j
  if x.st = .free then List.replicate 64 0 ++ leBytes 8 (x.handle j).toNat ++ List.replicate 56 0
  else
    leBytes 64 x.entry.toNat ++ leBytes 8 (x.handle j).toNat ++ [x.tableStatus] ++ List.replicate 7 0 ++
      leBytes 8 x.doneUnits.toNat ++ leBytes 8 x.totalUnits.toNat ++ leBytes 2 x.deliverCq.toNat ++ List.replicate 30 0

/-- Writes the entry of a slot; a shadow's entry is written by the partner alone. -/
def putOp (j : Nat) (w : AckWait) (s : State) : State :=
  if (opGet s j).shadow then s else jPut (offLongOp j) (opEntry s j) w s

/-- Twin entry of queue pair `n` of this member. -/
def twinEntry (armed twin : Bool) (ctx : BitVec 12) (cq : BitVec 15) : List Byte :=
  leBytes 8 (b2n armed * 2 ^ 63 + b2n twin * 2 ^ 62 + ctx.toNat * 2 ^ 32 + cq.toNat)

/-! ### CURSOR updates (R182) -/

/-- Notes that a stream's delivery has moved, for the next CURSOR UPDATE. -/
def noteCursor (i : Nat) (release : Bool) (s : State) : State :=
  if sends s then
    let x := streamGet s i
    let c : CursorEntry := ⟨x.handle i, x.ackedSeq, x.deliverCq, release⟩
    { s with pair := { s.pair with cursorDirty := s.pair.cursorDirty.filter (fun e => e.1 ≠ i) ++ [(i, c)] } }
  else s

end Sys2Proof.Machine
end

