-- ==== Sys2Proof/Machine/Flags.lean ====
section
/-!
DEFINITION. Machine/Flags.lean: numbers. Exact values, the one rounding to FP32 and BF16, comparison and the
approximated functions (02_pier_arithmetic.md, R47 to R52, R70 to R73). Idern has no flags: a special value takes
their place.
-/
namespace Sys2Proof.Machine

/-! ### Exact values -/

/-- A value: NaN, an infinity, or (-1)^neg * m * 2^e. -/
inductive Fp where
  | nan
  | inf (neg : Bool)
  | fin (neg : Bool) (m : Nat) (e : Int)
deriving DecidableEq, Repr

/-- 2^k for a non-negative exponent. -/
def pow2 (k : Int) : Nat := 2 ^ k.toNat

/-- The signed mantissa of a finite value at exponent `q`, where `q` does not exceed its own. -/
def signedAt (neg : Bool) (m : Nat) (e q : Int) : Int :=
  let v : Int := (m * pow2 (e - q) : Nat)
  if neg then -v else v

/-- A finite value from a signed mantissa; an exact zero is +0. -/
def ofSigned (v : Int) (e : Int) : Fp := .fin (decide (v < 0)) v.natAbs e

/-- Exact sum. The sum of two -0 is -0; any other zero sum is +0. -/
def Fp.add : Fp → Fp → Fp
  | .nan, _ => .nan
  | _, .nan => .nan
  | .inf a, .inf b => if a = b then .inf a else .nan
  | .inf a, .fin _ _ _ => .inf a
  | .fin _ _ _, .inf b => .inf b
  | .fin na ma ea, .fin nb mb eb =>
    let q := min ea eb
    let v := signedAt na ma ea q + signedAt nb mb eb q
    if v = 0 then .fin (na && nb) 0 q else ofSigned v q

/-- Exact product; infinity times zero is NaN. -/
def Fp.mul : Fp → Fp → Fp
  | .nan, _ => .nan
  | _, .nan => .nan
  | .inf a, .inf b => .inf (a != b)
  | .inf a, .fin nb mb _ => if mb = 0 then .nan else .inf (a != nb)
  | .fin na ma _, .inf b => if ma = 0 then .nan else .inf (na != b)
  | .fin na ma ea, .fin nb mb eb => .fin (na != nb) (ma * mb) (ea + eb)

def Fp.neg : Fp → Fp
  | .nan => .nan
  | .inf a => .inf (!a)
  | .fin n m e => .fin (!n) m e

/-- Magnitude. -/
def Fp.abs : Fp → Fp
  | .nan => .nan
  | .inf _ => .inf false
  | .fin _ m e => .fin false m e

def Fp.isNan : Fp → Bool
  | .nan => true
  | _ => false

def Fp.isFinite : Fp → Bool
  | .fin _ _ _ => true
  | _ => false

/-- Strict order of R73: NaN below every other value, -0 and +0 equal. -/
def Fp.lt : Fp → Fp → Bool
  | .nan, .nan => false
  | .nan, _ => true
  | _, .nan => false
  | .inf a, .inf b => a && !b
  | .inf a, .fin _ _ _ => a
  | .fin _ _ _, .inf b => !b
  | .fin na ma ea, .fin nb mb eb =>
    let q := min ea eb
    decide (signedAt na ma ea q < signedAt nb mb eb q)

/-- Greater than +0. -/
def Fp.positive (a : Fp) : Bool := Fp.lt (.fin false 0 0) a

/-! ### FP32 and BF16 -/

/-- The value of an FP32 word (Table 2-4). -/
def ofF32 (w : W32) : Fp :=
  let ex := fld w 23 8
  let m := fld w 0 23
  let neg := w.getLsbD 31
  if ex = 255 then (if m = 0 then .inf neg else .nan)
  else if ex = 0 then .fin neg m (-149)
  else .fin neg (2 ^ 23 + m) (ex - 150)

/-- Divides by 2^r, rounding to nearest, ties to even. -/
def rneShift (m r : Nat) : Nat :=
  let q := m / 2 ^ r
  let rem := m % 2 ^ r
  if 2 ^ r < 2 * rem || (2 * rem = 2 ^ r && q % 2 = 1) then q + 1 else q

/-- Magnitude field of m * 2^e in a binary format with `mant` fraction bits and least exponent `qmin`, rounded once to
nearest-even; the caller caps it at infinity. -/
def roundMag (mant : Nat) (qmin : Int) (m : Nat) (e : Int) : Nat :=
  if m = 0 then 0
  else
    let q := max (e + Nat.log2 m - mant) qmin
    let sig := if q ≤ e then m * pow2 (e - q) else rneShift m (q - e).toNat
    (q - qmin).toNat * 2 ^ mant + sig

/-- Canonical NaN of FP32 (R48). -/
def f32Nan : W32 := 0x7FC00000

/-- One rounding to FP32, nearest-even, subnormals kept, overflow to infinity (R51, R70). -/
def toF32 : Fp → W32
  | .nan => f32Nan
  | .inf neg => if neg then 0xFF800000 else 0x7F800000
  | .fin neg m e => BitVec.ofNat 32 (min (roundMag 23 (-149) m e) 0x7F800000 + (if neg then 2 ^ 31 else 0))

/-- One rounding to BF16 (R70). -/
def toBf16 : Fp → W16
  | .nan => 0x7FC0
  | .inf neg => if neg then 0xFF80 else 0x7F80
  | .fin neg m e => BitVec.ofNat 16 (min (roundMag 7 (-133) m e) 0x7F80 + (if neg then 2 ^ 15 else 0))

/-- BF16 to FP32 is exact (R70). -/
def ofBf16 (w : W16) : Fp := ofF32 (BitVec.ofNat 32 (w.toNat * 65536))

/-- The exact vector operations (R70): one rounding each. -/
def fadd (a b : W32) : W32 := toF32 ((ofF32 a).add (ofF32 b))
def fneg (a : W32) : W32 := toF32 (ofF32 a).neg
def fsub (a b : W32) : W32 := toF32 ((ofF32 a).add (ofF32 b).neg)
def fmul (a b : W32) : W32 := toF32 ((ofF32 a).mul (ofF32 b))
def ffma (a b c : W32) : W32 := toF32 (((ofF32 a).mul (ofF32 b)).add (ofF32 c))
def flt (a b : W32) : Bool := (ofF32 a).lt (ofF32 b)
/-- Among equal values the first operand wins (R73); a NaN result is canonical. -/
def fmax (a b : W32) : W32 := toF32 (if flt a b then ofF32 b else ofF32 a)
def fmin (a b : W32) : W32 := toF32 (if flt b a then ofF32 b else ofF32 a)

/-- Pairwise tree over neighbours in ascending order, `fuel` levels. -/
def pairTree : Nat → List W32 → List W32
  | 0, l => l
  | fuel + 1, l => pairTree fuel (pairUp l)
where
  pairUp : List W32 → List W32
    | a :: b :: t => fadd a b :: pairUp t
    | l => l

/-- A vector lane's running sum of terms i, i + 64, ... (R52). -/
def laneSum (terms : List W32) (lane : Nat) : W32 :=
  ((List.range ((terms.length + 63 - lane) / 64)).map (fun j => terms.getD (64 * j + lane) 0)).foldl fadd 0

/-- A sum taken in a stated order by the in-pier scheme of R52. -/
def inPierSum (terms : List W32) : W32 :=
  (pairTree 6 ((List.range 64).map (laneSum terms))).headD 0

/-! ### Approximated functions (R71, Table 2-7)

Inside the domain the result is an opaque choice held to the table's bound; real values are enclosed to far more bits
than the bound needs, in units of 2^-128 (notes/assumptions/10.md). -/

/-- ln 2, log2 e, sqrt(2/pi) and 0.044715 in units of 2^-128. -/
def ln2Fix : Nat := 235865763225513294137944142764154484399
def log2eFix : Nat := 490923683258796565746369346286093237521
def geluC : Nat := 271506046879672464325182014351570923903
def geluK : Nat := 15215726036869763393764795571311515575

def one128 : Nat := 2 ^ 128

/-- e^g for 0 <= g < 1 in units of 2^-128: 40 terms of the series. -/
def expSeries (g : Nat) : Nat :=
  ((List.range 40).foldl (fun (acc : Nat × Nat) k => (acc.1 + acc.2, acc.2 * g / one128 / (k + 1))) (0, one128)).1

/-- 2^x for x in units of 2^-128: a mantissa in units of 2^-128, from 1 to 2, and an exponent. -/
def exp2Fix (x : Int) : Nat × Int :=
  let n := x.fdiv one128
  (expSeries ((x - n * one128).toNat * ln2Fix / one128), n)

/-- The finite value as an integer in units of 2^-128 (rounded toward zero below that). -/
def toFix (neg : Bool) (m : Nat) (e : Int) : Int :=
  let v : Nat := if -128 ≤ e then m * pow2 (e + 128) else m / pow2 (-128 - e)
  if neg then -(v : Int) else v

/-- e^x for x in units of 2^-128, as a value in units of 2^-128. -/
def expFix (x : Int) : Nat :=
  let (m, n) := exp2Fix (x * log2eFix / one128)
  if 0 ≤ n then m * pow2 n else m / pow2 (-n)

/-- ln of a positive value, in units of 2^-128: e * ln 2 + 2 artanh((m - 1)/(m + 1)), m from 1 to 2. -/
def lnFix (m : Nat) (e : Int) : Int :=
  let k := Nat.log2 m
  let v := m * 2 ^ 128 / 2 ^ k
  let z := (v - one128) * one128 / (v + one128)
  let z2 := z * z / one128
  let s := ((List.range 90).foldl
    (fun (acc : Nat × Nat) j => (acc.1 + acc.2 / (2 * j + 1), acc.2 * z2 / one128)) (0, z)).1
  (e + k) * ln2Fix + 2 * s

/-- x / (1 + e^-x) in units of 2^-128. -/
def siluFix (x : Int) : Int := x * one128 / ((one128 : Int) + expFix (-x))

/-- The tanh form of GELU in units of 2^-128: x / (1 + e^(-2u)), u = sqrt(2/pi) (x + 0.044715 x^3). -/
def geluFix (x : Int) : Int :=
  let o : Int := one128
  let u := (x + x * x / o * x / o * geluK / o) * geluC / o
  x * o / (o + expFix (-2 * u))

/-- |a - t| <= t / 2^bits for positive a, t, with a little slack for the enclosure of t. -/
def relOk (a t : Nat) (bits : Nat) : Bool :=
  let d := if a ≤ t then t - a else a - t
  d * 2 ^ (bits + 40) ≤ t * (2 ^ 40 + 1)

/-- Function numbers, as FUNC of Table 3-8 counts them. -/
inductive FnId where
  | exp | exp2 | recip | rsqrt | silu | gelu | log
deriving DecidableEq, Repr

def FnId.num : FnId → Nat
  | .exp => 0 | .exp2 => 1 | .recip => 2 | .rsqrt => 3 | .silu => 4 | .gelu => 5 | .log => 6

/-- A candidate result meets the bound for the finite input (-1)^neg * m * 2^e. -/
def boundOk (f : FnId) (neg : Bool) (m : Nat) (e : Int) (y : W32) : Bool :=
  match ofF32 y with
  | .fin ny my ey =>
    match f with
    | .exp | .exp2 =>
      let x := toFix neg m e
      let (t, n) := exp2Fix (if f = .exp then x * log2eFix / one128 else x)
      let q := min ey (n - 128)
      !ny && relOk (my * pow2 (ey - q)) (t * pow2 (n - 128 - q)) 20
    | .recip =>
      let p := my * m
      let q := min (e + ey) 0
      ny = neg && relOk (p * pow2 (e + ey - q)) (pow2 (-q)) 22
    | .rsqrt =>
      let p := my * my * m
      let ex := e + 2 * ey
      let q := min ex 0
      let a := p * pow2 (ex - q)
      let t := pow2 (-q)
      !ny && (2 ^ 22 - 1) * (2 ^ 22 - 1) * t ≤ a * 2 ^ 44 && a * 2 ^ 44 ≤ (2 ^ 22 + 1) * (2 ^ 22 + 1) * t
    | .log =>
      let t := lnFix m e
      let a := toFix ny my ey
      (t = 0 && a = 0) || (decide (0 ≤ a * t) && relOk a.natAbs t.natAbs 18)
    | .silu => decide ((toFix ny my ey - siluFix (toFix neg m e)).natAbs ≤ 2 ^ 112 + 2 ^ 40)
    | .gelu => decide ((toFix ny my ey - geluFix (toFix neg m e)).natAbs ≤ 2 ^ 112 + 2 ^ 40)
  | _ => false

/-- Integer square root by bisection on `fuel` bits. -/
def isqrt (fuel n : Nat) : Nat :=
  (List.range fuel).foldl (fun r i => let c := r + 2 ^ (fuel - 1 - i); if c * c ≤ n then c else r) 0

/-- A result inside the bound, used where the opaque choice is not: the enclosure rounded to FP32. -/
def inBound (f : FnId) (neg : Bool) (m : Nat) (e : Int) : W32 :=
  match f with
  | .exp | .exp2 =>
    let x := toFix neg m e
    let (t, n) := exp2Fix (if f = .exp then x * log2eFix / one128 else x)
    toF32 (.fin false t (n - 128))
  | .recip => toF32 (.fin neg (2 ^ 128 / m) (-128 - e))
  | .rsqrt =>
    let k : Nat := if e % 2 = 0 then 200 else 201
    toF32 (.fin false (isqrt 101 (2 ^ k / m)) (-((e + k) / 2)))
  | .log => let t := lnFix m e; toF32 (.fin (decide (t < 0)) t.natAbs (-128))
  | .silu => let t := siluFix (toFix neg m e); toF32 (.fin neg t.natAbs (-128))
  | .gelu => let t := geluFix (toFix neg m e); toF32 (.fin neg t.natAbs (-128))

/-- Inside the domain: the opaque choice where it meets the bound. -/
def chosen (f : FnId) (x : W32) (neg : Bool) (m : Nat) (e : Int) : W32 :=
  let y := Config.approx f.num x
  if boundOk f neg m e y then y else inBound f neg m e

/-- Ends of the domains of EXP and EXP2, and the outside values of LOG. -/
def expLow : W32 := 0xC2AEAC4F
def exp2Low : W32 := 0xC2FC0000
def logHigh : W32 := 0x42B17218

/-- The input lies outside the function's domain (Table 2-7). -/
def outOfDomain (f : FnId) (x : W32) : Bool :=
  let v := ofF32 x
  let tiny : Fp := .fin false 1 (-126)
  if v.isNan then false
  else
    match f with
    | .exp => v.lt (ofF32 expLow) || v.positive
    | .exp2 => v.lt (ofF32 exp2Low) || v.positive
    | .recip => v.abs.lt tiny || (Fp.fin false 1 126).lt v.abs
    | .rsqrt => v.lt tiny || !v.isFinite
    | .log => v.lt tiny || !v.isFinite
    | .silu | .gelu => v.lt (.fin true 16 0) || (Fp.fin false 16 0).lt v

/-- The result outside the domain (Table 2-7). -/
def outsideValue (f : FnId) (x : W32) : W32 :=
  let v := ofF32 x
  let sign : W32 := if x.getLsbD 31 then 0x80000000 else 0
  match f with
  | .exp | .exp2 => if v.positive then 0x3F800000 else 0
  | .recip => if v.abs.lt (.fin false 1 (-126)) then 0x7E800000 ||| sign else 0x00800000 ||| sign
  | .rsqrt => if v.lt (.fin false 1 (-126)) then 0x5F000000 else 0x1F800000
  | .log => if v.lt (.fin false 1 (-126)) then expLow else logHigh
  | .silu | .gelu => if v.positive then toF32 v else 0x80000000

/-- An approximated function (R71, R72). -/
def approxFn (f : FnId) (x : W32) : W32 :=
  match ofF32 x with
  | .nan => f32Nan
  | v =>
    if outOfDomain f x then outsideValue f x
    else
      match v with
      | .fin neg m e => chosen f x neg m e
      | _ => f32Nan

end Sys2Proof.Machine
end

