-- ==== Sys2Proof/Machine/Operands.lean ====
section
/-!
DEFINITION. Machine/Operands.lean: element formats, block sums, quantisation, weight frames, skive coding, Philox and
sampling (02_pier_arithmetic.md).
-/
namespace Sys2Proof.Machine

/-! ### Elements (Table 2-4) -/

/-- A binary element of `eb` exponent and `mb` fraction bits. -/
def miniFloat (eb mb : Nat) (bias : Int) (v : Nat) : Fp :=
  let m := v % 2 ^ mb
  let ex := v / 2 ^ mb % 2 ^ eb
  let neg := v / 2 ^ (mb + eb) % 2 = 1
  if ex = 0 then .fin neg m (1 - bias - mb) else .fin neg (2 ^ mb + m) (ex - bias - mb)

def ofE4m3 (v : Nat) : Fp := if v % 128 = 127 then .nan else miniFloat 4 3 7 v

def ofE5m2 (v : Nat) : Fp :=
  if v / 4 % 32 = 31 then (if v % 4 = 0 then .inf (v / 128 % 2 = 1) else .nan) else miniFloat 5 2 15 v

/-- Two's complement of `w` bits. -/
def signedOf (w v : Nat) : Int := if v % 2 ^ w < 2 ^ (w - 1) then (v % 2 ^ w : Nat) else (v % 2 ^ w : Nat) - (2 ^ w : Nat)

def ofE8m0 (v : Nat) : Fp := if v % 256 = 255 then .nan else .fin false 1 ((v % 256 : Nat) - 127)

/-- Decodes a weight-side element field; LC12 elements come as codebook bytes. -/
def ofWeight (f : WFmt) (v : Nat) : Fp :=
  match f with
  | .e2m1 => miniFloat 2 1 1 v
  | .e3m2 => miniFloat 3 2 3 v
  | .e2m3 => miniFloat 2 3 1 v
  | .e4m3 | .lc12 => ofE4m3 v
  | .e5m2 => ofE5m2 v
  | .int8 => ofSigned (signedOf 8 v) (-6)
  | .kvq4 => if v % 16 = 8 then .nan else ofSigned (signedOf 4 v) 0
  | .kvq8 => if v % 256 = 128 then .nan else ofSigned (signedOf 8 v) 0

/-- Decodes a weight-side scale: KV scales are E4M3, every other one is E8M0. -/
def ofWScale (f : WFmt) (v : Nat) : Fp :=
  match f with
  | .kvq4 | .kvq8 => ofE4m3 v
  | _ => ofE8m0 v

def ofAct (f : AFmt) (v : Nat) : Fp :=
  match f with
  | .e4m3 => ofE4m3 v
  | .e5m2 => ofE5m2 v
  | .int8 => ofSigned (signedOf 8 v) (-6)

/-! ### Block sums and rows (R49 to R51) -/

/-- A block: its scale and its 32 elements. -/
structure Block32 where
  scale : Fp
  elems : List Fp
deriving DecidableEq, Repr

/-- Exact sum of the products, special values by R50. -/
def blockSum (w a : List Fp) : Fp := (List.zipWith Fp.mul w a).foldl Fp.add (.fin false 0 (-32))

/-- The block sum times both scales, rounded once (R51); an Inf sum stands whatever the scales, a NaN scale gives NaN
(R50). -/
def blockResult (w a : Block32) : W32 :=
  if w.scale.isNan || a.scale.isNan then toF32 .nan
  else
    match blockSum w.elems a.elems with
    | .inf neg => toF32 (.inf neg)
    | t => toF32 ((t.mul w.scale).mul a.scale)

/-- The lane accumulator after a row's blocks, in stream order (R51). -/
def accumulate (acc : W32) (ws as : List Block32) : W32 :=
  (List.zipWith blockResult ws as).foldl fadd acc

/-- The field of `bits` bits at element `i` of an element vector. -/
def elemAt (v : BitVec 512) (bits i : Nat) : Nat := fld v (bits * i) bits

/-- The two blocks of a weight record; `cb` gives the codebook byte of an index and a place (R43, R56). -/
def weightBlocks (w : WeightStep) (cb : Nat → Nat → Nat) : List Block32 :=
  let el := fun j =>
    match w.fmt with
    | .lc12 => ofE4m3 (cb (elemAt w.elems 16 (j / 4) % 4096) (j % 4))
    | f => ofWeight f (elemAt w.elems 8 j)
  [⟨ofWScale w.fmt w.scale0.toNat, (List.range 32).map el⟩,
   ⟨ofWScale w.fmt w.scale1.toNat, (List.range 32).map (fun j => el (32 + j))⟩]

/-- The two blocks of a lane's operand; `byte` gives the pier's scratch byte at an offset (R43). -/
def laneBlocks (f : AFmt) (byte : Nat → Nat) (l : LaneOperand) : List Block32 :=
  let el := fun j => ofAct f (byte (l.elems.toNat + j))
  [⟨ofE8m0 (byte l.scales.toNat), (List.range 32).map el⟩,
   ⟨ofE8m0 (byte (l.scales.toNat + 1)), (List.range 32).map (fun j => el (32 + j))⟩]

/-! ### Activation quantisation (R64) -/

/-- Largest element magnitude of an activation format. -/
def actLimit : AFmt → Fp
  | .e4m3 => .fin false 448 0
  | .e5m2 => .fin false 57344 0
  | .int8 => .fin false 127 (-6)

/-- The element nearest to x / 2^k, ties to even; INT8 stays within +-127. R64 does not give the sign of an element that
is or rounds to zero: E4M3 and E5M2 keep the sign of x (DESIGN CHOICE, notes/assumptions/82.md). -/
def quantElem (f : AFmt) (k : Int) (x : Fp) : Nat :=
  match x with
  | .fin neg m e =>
    let s := if neg then 128 else 0
    match f with
    | .e4m3 => roundMag 3 (-9) m (e - k) + s
    | .e5m2 => roundMag 2 (-16) m (e - k) + s
    | .int8 =>
      let p := e - k + 6
      let q := min 127 (if 0 ≤ p then m * pow2 p else rneShift m (-p).toNat)
      if neg && q ≠ 0 then 256 - q else q
  | _ => 0

/-- Largest magnitude among finite values; +0 for none. -/
def amaxOf (l : List Fp) : Fp :=
  l.foldl (fun a x => if x.isFinite && a.lt x.abs then x.abs else a) (.fin false 0 0)

/-- Scale byte and element bytes of one block of 32 FP32 values (R64). -/
def quantBlock (f : AFmt) (xs : List W32) : Nat × List Nat :=
  let vs := xs.map ofF32
  let a := amaxOf vs
  if vs.any (fun v => !v.isFinite) then (255, xs.map (fun _ => 0))
  else if !a.positive then (0, xs.map (fun _ => 0))
  else
    let fits := fun i => !((actLimit f).mul (.fin false 1 ((i : Nat) - 127))).lt a
    let i := ((List.range 255).find? fits).getD 254
    (i, vs.map (quantElem f (i - 127)))

/-! ### KV quantisation (R66 to R69) -/

/-- Nearest integer to n / d, ties to even. -/
def rneDiv (n d : Nat) : Nat :=
  let q := n / d
  let r := n % d
  if d < 2 * r || (2 * r = d && q % 2 = 1) then q + 1 else q

/-- Code of a finite x at scale s (both exact), clamped to +-Q. -/
def kvCode (q : Nat) (neg : Bool) (m : Nat) (e : Int) (sm : Nat) (se : Int) : Int :=
  let lo := min e se
  let v := min q (rneDiv (m * pow2 (e - lo)) (sm * pow2 (se - lo)))
  if neg then -(v : Int) else v

/-- One group of 32: scale byte, codes in the format's field width, and how many KV-range events it counts. -/
def quantKv (wide : Bool) (xs : List W32) : Nat × List Nat × Nat :=
  let q := if wide then 127 else 7
  let w := if wide then 8 else 4
  let vs := xs.map ofF32
  let a := amaxOf vs
  let nanCode := 2 ^ (w - 1)
  let top := Fp.fin false (448 * q) 0
  let sc := if !a.positive then 0 else
    ((List.range 127).find? (fun c => !((ofE4m3 c).mul (.fin false q 0)).lt a)).getD 126
  let code := fun (v : Fp) =>
    match v, ofE4m3 sc with
    | .fin neg m e, .fin _ sm se =>
      if sm = 0 then 0 else ((kvCode q neg m e sm se) % (2 ^ w : Nat)).toNat
    | _, _ => nanCode
  let nans := (vs.filter (fun v => !v.isFinite)).length
  (sc, vs.map code, nans + b2n (top.lt a))

/-! ### Streams (R54, R55, R60, R66, R80) -/

/-- Element field `i` of `bits` bits packed from byte 0 (R54). -/
def packedAt (l : List Byte) (bits i : Nat) : Nat :=
  let lo := bits * i
  leNat (slice l (lo / 8) 2) / 2 ^ (lo % 8) % 2 ^ bits

/-- Packs element fields of `bits` bits into bytes (R54). -/
def packFields (bits : Nat) (l : List Nat) : List Byte :=
  leBytes ((l.length * bits + 7) / 8) ((l.zipIdx).foldl (fun acc (v, i) => acc + v % 2 ^ bits * 2 ^ (bits * i)) 0)

/-- Packed width of a stream format's element. -/
def packedBits : WFmt → Nat
  | .e2m1 | .kvq4 => 4
  | .e3m2 | .e2m3 => 6
  | .lc12 => 3
  | _ => 8

/-- Bytes of a plain MX row of `k` elements: per step two scales and 64 packed elements (R54). -/
def mxRowBytes (f : WFmt) (k : Nat) : Nat := (k + 63) / 64 * (2 + 8 * packedBits f)

/-- Block `b` of a plain MX row of `k` elements. -/
def mxBlock (f : WFmt) (row : List Byte) (k b : Nat) : Block32 :=
  let frame := b / 16
  let steps := min 8 ((k + 63) / 64 - 8 * frame)
  let off := frame * 8 * (2 + 8 * packedBits f)
  let pk := slice row (off + 2 * steps) (steps * 8 * packedBits f)
  ⟨ofE8m0 (row.getD (off + b % 16) 0).toNat,
    (List.range 32).map (fun j => ofWeight f (packedAt pk (packedBits f) (32 * (b % 16) + j)))⟩

/-- Block `b` of an LC12 row (R55, R56). -/
def lc12Block (row : List Byte) (cb : Nat → Nat → Nat) (b : Nat) : Block32 :=
  let off := b / 16 * 196
  let idx := slice row (off + 4) 192
  ⟨ofE8m0 (row.getD (off + b % 16 / 4) 0).toNat,
    (List.range 32).map (fun j => ofE4m3 (cb (packedAt idx 12 (8 * (b % 16) + j / 4)) (j % 4)))⟩

/-- Bytes of an LC12 row of `k` weights. -/
def lc12RowBytes (k : Nat) : Nat := k / 512 * 196 + (if k % 512 = 0 then 0 else 4 + 48 * (k % 512 / 128))

/-- Group `g` of a stored KV vector of `d` codes (R66). -/
def kvBlock (wide : Bool) (v : List Byte) (d g : Nat) : Block32 :=
  let bits := if wide then 8 else 4
  let f : WFmt := if wide then .kvq8 else .kvq4
  ⟨ofE4m3 (v.getD (d * bits / 8 + g) 0).toNat, (List.range 32).map (fun j => ofWeight f (packedAt v bits (32 * g + j)))⟩

/-- Bytes of a KV vector of `d` elements (R66). -/
def kvBytes (wide : Bool) (d : Nat) : Nat := (if wide then d else d / 2) + d / 32

/-- A KV vector as it is stored, and its KV-range events (R66, R67). -/
def storeKv (wide : Bool) (xs : List W32) : List Byte × Nat :=
  let gs := (List.range (xs.length / 32)).map (fun g => quantKv wide ((xs.drop (32 * g)).take 32))
  (packFields (if wide then 8 else 4) (gs.flatMap (·.2.1)) ++ gs.map (fun g => BitVec.ofNat 8 g.1),
    gs.foldl (fun n g => n + g.2.2) 0)

/-- An activation row as it is stored: blocks of 32 quantised by R64, an odd last block padded with a zero one
(R54, R80, R89). -/
def storeAct (f : AFmt) (xs : List W32) : List Byte :=
  let blocks := (List.range (xs.length / 32)).map (fun g => quantBlock f ((xs.drop (32 * g)).take 32))
  let blocks := if blocks.length % 2 = 0 then blocks else blocks ++ [(0, List.replicate 32 0)]
  (List.range ((blocks.length + 15) / 16)).flatMap (fun i =>
    let fr := (blocks.drop (16 * i)).take 16
    fr.map (fun b => BitVec.ofNat 8 b.1) ++ fr.flatMap (fun b => b.2.map (BitVec.ofNat 8)))

/-! ### Skive coding (R58 to R63) -/

/-- Symbols a table can code: 16 or 64. -/
def skiveSyms (t : BitVec 512) : Nat := if fld t 0 8 = 0 then 16 else 64

/-- Code length of symbol `i` (Table 2-5). -/
def skiveLen (t : BitVec 512) (i : Nat) : Nat := fld t (32 + 4 * i) 4

/-- Canonical codes in order: length, code, symbol (R59). -/
def skiveCodes (t : BitVec 512) : List (Nat × Nat × Nat) :=
  let syms := (List.range 12).flatMap (fun l =>
    ((List.range (skiveSyms t)).filter (fun i => skiveLen t i = l + 1)).map (fun i => (l + 1, i)))
  (syms.foldl (fun (acc : Nat × Nat × List (Nat × Nat × Nat)) (l, i) =>
      let code := acc.2.1 * 2 ^ (l - acc.1)
      (l, code + 1, (l, code, i) :: acc.2.2)) (0, 0, [])).2.2.reverse

/-- A table record is valid (R58, R59). -/
def skiveValid (t : BitVec 512) : Bool :=
  let n := skiveSyms t
  let lens := (List.range n).map (skiveLen t)
  let used := lens.filter (· ≠ 0)
  decide (fld t 0 8 ≤ 1) && fld t 16 16 = 0 && fld t (32 + 4 * n) (512 - 32 - 4 * n) = 0 &&
    lens.all (· ≤ 12) && fld t 8 8 = lens.foldl max 0 &&
    ((used.map (fun l => 2 ^ (12 - l))).sum = 4096 || used == [1])

/-- Bits of a payload, most significant bit of each byte first (R60). -/
def payloadBits (l : List Byte) : List Bool := l.flatMap (fun b => (List.range 8).map (fun i => b.getLsbD (7 - i)))

/-- The next symbol: the shortest prefix that is a code. -/
def skiveNext (codes : List (Nat × Nat × Nat)) (bits : List Bool) : Option (Nat × List Bool) :=
  (codes.find? (fun c => c.1 ≤ bits.length &&
    (bits.take c.1).foldl (fun v b => 2 * v + b2n b) 0 = c.2.1)).map (fun c => (c.2.2, bits.drop c.1))

/-- Decodes `n` symbols. -/
def skiveRun (codes : List (Nat × Nat × Nat)) : Nat → List Bool → Option (List Nat × List Bool)
  | 0, bits => some ([], bits)
  | n + 1, bits =>
    match skiveNext codes bits with
    | none => none
    | some (v, rest) => (skiveRun codes n rest).map (fun r => (v :: r.1, r.2))

/-- Steps of a frame (Table 2-6). -/
def frameSteps (header : W32) : Nat := fld header 8 3 + 1

/-- The element fields of one frame, or none where R63 stops the stream. A padding of 32 bits or more holds a whole
code, and a set bit in the padding is an error (notes/assumptions/11.md). -/
def skiveFrame (t : BitVec 512) (expected : Nat) (header : W32) (payload : List Byte) : Option (List Nat) :=
  let n := frameSteps header
  let bits := if fld t 0 8 = 0 then 4 else 6
  let words := fld header 0 7
  let raw := header.getLsbD 7
  if fld header 16 16 ≠ expected || fld header 11 5 ≠ 0 || 2 * bits * n < words || payload.length ≠ 4 * words then none
  else if raw then
    if words ≠ 2 * bits * n then none else some ((List.range (64 * n)).map (packedAt payload bits))
  else
    match skiveRun (skiveCodes t) (64 * n) (payloadBits payload) with
    | none => none
    | some (syms, rest) => if 32 ≤ rest.length || rest.any id then none else some syms

/-- A block as it is stored: the scale byte and its element fields. -/
abbrev RawBlock := Nat × List Nat

def RawBlock.value (f : WFmt) (b : RawBlock) : Block32 := ⟨ofE8m0 b.1, b.2.map (ofWeight f)⟩

/-- The stored blocks of one skive-coded row of `k` elements, and the bytes it takes; frames from `expected` on. -/
def skiveRow (t : BitVec 512) : Nat → Nat → Nat → List Byte → Option (List RawBlock × Nat)
  | 0, _, _, _ => some ([], 0)
  | fuel + 1, k, expected, bytes =>
    if k = 0 then some ([], 0)
    else
      let header := le32 bytes
      let n := frameSteps header
      let len := 4 * fld header 0 7
      match skiveFrame t expected header (slice bytes (4 + 2 * n) len) with
      | none => none
      | some syms =>
        let used := 4 + 2 * n + len
        let blocks := (List.range (2 * n)).map (fun b => ((bytes.getD (4 + b) 0).toNat, (syms.drop (32 * b)).take 32))
        (skiveRow t fuel (k - min k (64 * n)) ((expected + 1) % 65536) (bytes.drop used)).map
          (fun r => (blocks ++ r.1, used + r.2))

/-- Bytes the decoder takes for one row: every frame up to the row's end, or to the end of the frame that stops it. -/
def skiveReach (t : BitVec 512) : Nat → Nat → Nat → List Byte → Nat
  | 0, _, _, _ => 0
  | fuel + 1, k, expected, bytes =>
    if k = 0 then 0
    else
      let header := le32 bytes
      let used := 4 + 2 * frameSteps header + 4 * fld header 0 7
      match skiveFrame t expected header (slice bytes (4 + 2 * frameSteps header) (4 * fld header 0 7)) with
      | none => used
      | some _ => used + skiveReach t fuel (k - min k (64 * frameSteps header)) ((expected + 1) % 65536) (bytes.drop used)

/-! ### Philox4x32-10 (R74; its published constants, notes/assumptions/12.md) -/

structure Ph where
  c0 : W32
  c1 : W32
  c2 : W32
  c3 : W32
deriving DecidableEq, Repr

/-- One round under keys k0, k1. -/
def phRound (k0 k1 : W32) (c : Ph) : Ph :=
  let p0 := 0xD2511F53 * c.c0.toNat
  let p1 := 0xCD9E8D57 * c.c2.toNat
  ⟨BitVec.ofNat 32 (p1 / 2 ^ 32) ^^^ c.c1 ^^^ k0, BitVec.ofNat 32 p1,
   BitVec.ofNat 32 (p0 / 2 ^ 32) ^^^ c.c3 ^^^ k1, BitVec.ofNat 32 p0⟩

/-- Ten rounds; the key words grow between rounds. -/
def philox (seed : W64) (ctr : Ph) : Ph :=
  (List.range 10).foldl (fun c r =>
    phRound (seed.truncate 32 + BitVec.ofNat 32 (r * 0x9E3779B9))
      ((seed >>> 32).truncate 32 + BitVec.ofNat 32 (r * 0xBB67AE85)) c) ctr

/-- Word `j mod 4` of draw `j / 4` at token position `p`. -/
def drawWord (seed p : W64) (j : Nat) : W32 :=
  let c := philox seed ⟨p.truncate 32, (p >>> 32).truncate 32, BitVec.ofNat 32 (j / 4), 0⟩
  match j % 4 with
  | 0 => c.c0
  | 1 => c.c1
  | 2 => c.c2
  | _ => c.c3

/-- LOG of the uniform variate of a word. The variate (2f + 1) * 2^-25 is kept exact: from f = 2^23 on it has 25
significant bits, which FP32 does not hold, though R74 calls it exact there (DESIGN CHOICE, notes/assumptions/84.md). -/
def logUniform (w : W32) : W32 :=
  let m := 2 * fld w 8 24 + 1
  if m < 2 ^ 24 then approxFn .log (toF32 (.fin false m (-25)))
  else
    let y := Config.approxLogU m
    if boundOk .log false m (-25) y then y else inBound .log false m (-25)

/-! ### Sampling (R75) -/

/-- A sampling record (Table 3-12). -/
structure SampleRec where
  seed : W64
  position : W64
  temp : W32
  topP : W32
  minP : W32
  repPen : W32
  topK : W16
  penCount : W16
deriving DecidableEq, Repr

/-- Inserts into a list kept by descending value, lower token first among equals (R73). -/
def insertRanked (x : Nat × W32) : List (Nat × W32) → List (Nat × W32)
  | [] => [x]
  | y :: ys => if flt y.2 x.2 then x :: y :: ys else y :: insertRanked x ys

/-- Candidates by R73: descending value; the input is in ascending token order. -/
def ranked (l : List (Nat × W32)) : List (Nat × W32) := l.foldl (fun acc x => insertRanked x acc) []

/-- Candidates in ascending token order. -/
def insertById (x : Nat × W32) : List (Nat × W32) → List (Nat × W32)
  | [] => [x]
  | y :: ys => if x.1 < y.1 then x :: y :: ys else y :: insertById x ys

def byId (l : List (Nat × W32)) : List (Nat × W32) := l.foldl (fun acc x => insertById x acc) []

/-- The shortest prefix whose sum, by the in-pier scheme in descending order (R52), reaches `p`; all where none does (R75
step 7; notes/assumptions/13.md). -/
def topPPrefix (p : W32) (l : List (Nat × W32)) : List (Nat × W32) :=
  match (List.range l.length).find? (fun n => !flt (inPierSum ((l.take (n + 1)).map (·.2))) p) with
  | some n => l.take (n + 1)
  | none => l

/-- Steps 6 to 10 over the kept candidates (token, z), ranked. -/
def sampleKept (r : SampleRec) (kept : List (Nat × W32)) : Option Nat :=
  match kept with
  | [] => none
  | (_, zmax) :: _ =>
    let es := (byId kept).map (fun c => (c.1, approxFn .exp (fsub c.2 zmax)))
    let inv := approxFn .recip (inPierSum (es.map (·.2)))
    let ps := es.map (fun c => (c.1, fmul c.2 inv))
    let top := topPPrefix r.topP (ranked ps)
    let pmax := (top.map (·.2)).headD 0
    let keep := byId (top.filter (fun c => !flt c.2 (fmul r.minP pmax)))
    let score := keep.zipIdx.map (fun (c, j) =>
      let z := ((kept.find? (fun k => k.1 = c.1)).map (·.2)).getD 0
      (c.1, fsub z (approxFn .log (fneg (logUniform (drawWord r.seed r.position j))))))
    ((ranked score).map (·.1)).head?

/-- Steps 1, 2, 4 and 5: the candidates kept, ranked (R75, R98). -/
def sampleCands (r : SampleRec) (logits : List (Nat × W32)) (pen : List Nat) : List (Nat × W32) :=
  let live := logits.filter (fun c => !(ofF32 c.2).isNan)
  let inv := approxFn .recip r.repPen
  let adj := live.map (fun c =>
    if pen.contains c.1 then (c.1, if (ofF32 c.2).positive then fmul c.2 inv else fmul c.2 r.repPen) else c)
  let rt := approxFn .recip r.temp
  let k := if r.topK = 0 || 1024 < r.topK.toNat then 1024 else r.topK.toNat
  if (ofF32 r.temp).positive then (ranked (adj.map (fun c => (c.1, fmul c.2 rt)))).take k else (ranked adj).take k

/-- SAMPLE for one lane: logits in ascending token order and the penalised tokens (R75); with temperature 0 the first
candidate, without a draw. -/
def sampleLane (r : SampleRec) (logits : List (Nat × W32)) (pen : List Nat) : Option Nat :=
  let kept := sampleCands r logits pen
  if (ofF32 r.temp).positive then sampleKept r kept else (kept.map (·.1)).head?

/-- EXP inputs outside the domain that a lane's sampling counts (R72). -/
def sampleOod (r : SampleRec) (logits : List (Nat × W32)) (pen : List Nat) : Nat :=
  let kept := sampleCands r logits pen
  if (ofF32 r.temp).positive then
    (kept.filter (fun c => outOfDomain .exp (fsub c.2 ((kept.map (·.2)).headD 0)))).length
  else 0

end Sys2Proof.Machine
end

