-- ==== Sys2Proof/Machine/Tensor.lean ====
section
/-!
DEFINITION. Machine/Tensor.lean: tensor descriptors, stitches and the reading and writing of operands
(03_stitch_programs.md, R79 to R84; R138, R139).
-/
namespace Sys2Proof.Machine

/-! ### Descriptors and stitches -/

/-- A tensor descriptor (Table 3-2). -/
structure TDesc where
  /-- Index in the descriptor table. -/
  idx : Nat
  dtype : Nat
  rank : Nat
  flags : Nat
  skive : Nat
  shard : Nat
  kind : Nat
  base : Nat
  dims : List Nat
  strides : List Nat
  pierFirst : Nat
  pierCount : Nat
  codebook : Nat
deriving DecidableEq, Repr

def tdesc (n : Nat) (v : BitVec 512) : TDesc :=
  { idx := n, dtype := fld v 0 8, rank := fld v 8 8, flags := fld v 16 16, skive := fld v 32 16, shard := fld v 48 8
    kind := fld v 56 8, base := fld v 64 64, dims := (List.range 5).map (fun i => fld v (128 + 32 * i) 32)
    strides := (List.range 4).map (fun i => fld v (288 + 32 * i) 32), pierFirst := fld v 416 16
    pierCount := fld v 432 16, codebook := fld v 448 64 }

def TDesc.dim (d : TDesc) (i : Nat) : Nat := d.dims.getD i 1
/-- Byte stride of dimension `i` of 1 to 4. -/
def TDesc.stride (d : TDesc) (i : Nat) : Nat := d.strides.getD (i - 1) 0
def TDesc.isSkive (d : TDesc) : Bool := d.flags.testBit 0
def TDesc.writable (d : TDesc) : Bool := d.flags.testBit 1
def TDesc.paged (d : TDesc) : Bool := d.flags.testBit 2
def TDesc.replicated (d : TDesc) : Bool := d.flags.testBit 3
def TDesc.isPartial (d : TDesc) : Bool := d.flags.testBit 4
def TDesc.shardDim (d : TDesc) : Nat := d.shard % 8
def TDesc.shardSpan (d : TDesc) : Nat := d.shard / 8 % 8
def TDesc.pierLocal (d : TDesc) : Bool := d.kind ≤ 2
/-- Sharded (R81). A tensor that lies in one region for every pier is sharded only where SHARD names dimensions: Table 3-15
gives the SERVICE tensors of 64 piers no shard. -/
def TDesc.sharded (d : TDesc) : Bool :=
  !d.replicated && !d.isPartial && 1 < d.pierCount && (d.pierLocal || d.shard / 8 % 8 ≠ 0)
def TDesc.piers (d : TDesc) : List Nat := (List.range d.pierCount).map (d.pierFirst + ·)
def TDesc.total (d : TDesc) : Nat := d.dims.foldl (· * ·) 1
/-- Stream types (Table 3-3, 02h to 08h). -/
def TDesc.isStream (d : TDesc) : Bool := 2 ≤ d.dtype && d.dtype ≤ 8

/-- Weight format of a DTYPE. -/
def wfmtOf (dtype : Nat) : WFmt :=
  match dtype with
  | 2 => .e2m1 | 3 => .e3m2 | 4 => .e2m3 | 5 => .e4m3 | 6 => .e5m2 | 7 => .int8 | 8 => .lc12 | 9 => .kvq4 | _ => .kvq8

def afmtOf (dtype : Nat) : AFmt :=
  match dtype with
  | 5 => .e4m3 | 6 => .e5m2 | _ => .int8

def isAct (dtype : Nat) : Bool := 5 ≤ dtype && dtype ≤ 7

/-- Bytes of one element of a dense type (Table 3-3). -/
def elemBytes (dtype : Nat) : Nat :=
  match dtype with
  | 0 | 0xB => 4
  | 1 => 2
  | 0xC | 0xD => 8
  | 0xE => 64
  | _ => 1

/-- A stitch (Table 3-5). -/
structure Stitch where
  opcode : Nat
  variant : Nat
  acc : Bool
  alt : Bool
  dst : Nat
  src0 : Nat
  src1 : Nat
  src2 : Nat
  pierFirst : Nat
  pierCount : Nat
  /-- OPERANDS: bit b of the stitch is bit b - 128 here. -/
  ops : BitVec 128
deriving DecidableEq, Repr

def stitchOf (v : BitVec 256) : Stitch :=
  { opcode := fld v 0 8, variant := fld v 8 4, acc := v.getLsbD 12, alt := v.getLsbD 15, dst := fld v 16 12
    src0 := fld v 32 12, src1 := fld v 48 12, src2 := fld v 64 12, pierFirst := fld v 80 9, pierCount := fld v 96 9
    ops := BitVec.ofNat 128 (v.toNat / 2 ^ 128) }

/-- OPERANDS bits [lo + len - 1 : lo], numbered as in the stitch. -/
def Stitch.op (st : Stitch) (lo len : Nat) : Nat := fld st.ops (lo - 128) len

/-- "No tensor". -/
def noTensor : Nat := 0xFFF

/-- Stitches of a program as they are held. -/
def Program.stitch (p : Program) (i : Nat) : Option Stitch := (p.stitches[i]?).map stitchOf
def Program.desc (p : Program) (i : Nat) : Option TDesc := if i = noTensor then none else (p.descs[i]?).map (tdesc i)

/-! ### Indices and placement (R81, R82) -/

/-- Index tuple of a flat number, first dimension fastest. -/
def unflat : List Nat → Nat → List Nat
  | [], _ => []
  | d :: ds, f => f % d :: unflat ds (f / d)

/-- Flat number of an index tuple. -/
def flat : List Nat → List Nat → Nat
  | d :: ds, i :: is => i + d * flat ds is
  | _, _ => 0

/-- Index of the part and the index inside it (R81): the spanned dimensions are flattened. -/
def splitIndex (d : TDesc) (idx : List Nat) : Nat × List Nat :=
  if !d.sharded then (0, idx)
  else
    let lo := d.shardDim
    let n := d.shardSpan
    let span := (d.dims.drop lo).take n
    let part := span.foldl (· * ·) 1 / d.pierCount
    let f := flat span ((idx.drop lo).take n)
    (f / part, idx.take lo ++ unflat span (f % part) ++ idx.drop (lo + n))

/-- Dimension 0 is cut into parts. -/
def TDesc.cutRow (d : TDesc) : Bool := d.sharded && d.shardDim = 0 && d.shardSpan = 1

/-- Elements of a stored row: the part's own where each pier stores its part, the whole row otherwise (R82). -/
def rowElems (d : TDesc) : Nat := if d.cutRow && d.pierLocal then d.dim 0 / d.pierCount else d.dim 0

/-- Local dimensions of a part (R82). -/
def localDims (d : TDesc) : List Nat :=
  if !d.sharded || !d.pierLocal then d.dims
  else
    let span := (d.dims.drop d.shardDim).take d.shardSpan
    let part := span.foldl (· * ·) 1 / d.pierCount
    let step := span.foldl (fun (acc : Nat × List Nat) n => (acc.1 / n + b2n (acc.1 % n ≠ 0), acc.2 ++ [min n acc.1])) (part, [])
    d.dims.take d.shardDim ++ step.2 ++ d.dims.drop (d.shardDim + d.shardSpan)

/-- Byte offset of a row's start, or of an element of a dense type, for an index inside the part (R82). -/
def rowOffset (d : TDesc) (idx : List Nat) : Nat :=
  (List.range 4).foldl (fun a i => a + idx.getD (i + 1) 0 * d.stride (i + 1)) 0

def elemOffset (d : TDesc) (idx : List Nat) : Nat := rowOffset d idx + idx.getD 0 0 * elemBytes d.dtype

/-- Pier whose part holds an index; for a tensor that every pier holds, the asking pier. -/
def ownerOf (d : TDesc) (pier : Nat) (idx : List Nat) : Nat :=
  if d.sharded then d.pierFirst + (splitIndex d idx).1
  else if d.replicated || d.isPartial then pier
  else d.pierFirst

/-! ### Bytes of the regions (Table 3-4) -/

/-- What a run's operands are read in. -/
structure Env where
  run : Run
  prog : Program
  model : Model
  /-- Bytes of device memory, by reading pier and DPA, that another pier or a chiplet writes in the run without a BARRIER
  between: each read gives a free value (R86). -/
  fog : Nat → Nat → Option Byte := fun _ _ => none

/-- The pier that runs a role: itself, or its substitute (R110). -/
def Env.actual (e : Env) (role : Nat) : Nat := tget (fun k => k) e.prog.subst role

/-- Base of a role's scratch allocation. -/
def Env.scratch (e : Env) (role : Nat) : Nat := tget (fun _ => 0) e.prog.scratchBase role

/-- Key of what a role keeps on a pier: the role's own number on its own pier, another on a substitute. -/
def placeKey (role actual : Nat) : Nat := if actual = role then role else 512 * (role + 1) + actual

/-- Local address of an offset in a pier-local memory kind: MODEL or ARENA. -/
def Env.localOf (e : Env) (kind role off : Nat) : Nat :=
  let k := placeKey role (e.actual role)
  if kind = 0 then tget (fun _ => 0) e.model.portionBase k + off else Config.arenaLocal e.run.ctx k + off

/-- DPA of an offset in a run slot (R111). -/
def Env.slotDpa (e : Env) (slot off : Nat) : Nat :=
  (Config.arenaDpa e.run.ctx ((e.run.slots.getD slot (0, 0)).1 + BitVec.ofNat 64 off)).toNat

/-- A partner window that covers a byte of a context's working memory: its number and the offset in it (Table 6-19). -/
def windowOf (s : State) (ctx off : Nat) : Option (Nat × Nat) :=
  (s.pair.winOut.find? (fun w => w.2.enable && w.2.ctx.toNat = ctx && w.2.base.toNat * unit2M ≤ off &&
    off < w.2.base.toNat * unit2M + w.2.size.toNat * unit2M)).map (fun w => (w.1, off - w.2.base.toNat * unit2M))

/-- BASE_KIND of a descriptor that lies behind a partner window (R195, Remote windows), as the model marks it. -/
def kindWindow : Nat := 6

/-- Bytes of an operand behind a window, as its reads returned them; the first part starts at the line of byte 0. -/
def Env.winBytes (e : Env) (d : TDesc) : List Byte :=
  let mine := e.run.winData.filter (fun p => p.1 = d.idx)
  ((List.range mine.length).flatMap (fun k => ((mine.find? (fun p => p.2.1 = k)).map (·.2.2)).getD [])).drop (d.base % 64)

/-- A WINDOW WRITE of a byte run, at most 64 lines a message (R195). -/
def sendWindowWrite (u : WinUser) (w ctx off : Nat) (b : List Byte) (s : State) : State :=
  let first := off / 64
  let total := (off + b.length + 63) / 64 - first
  let padded := List.replicate (off % 64) 0 ++ b
  let beAll := BitVec.allOnes 64
  foldS (List.range ((total + 63) / 64)) (fun g s =>
    let n := min 64 (total - 64 * g)
    let ls := (List.range n).map (fun i => bytesLine (slice padded ((64 * g + i) * 64) 64))
    let lo := if g = 0 then beAll <<< (off % 64) else beAll
    let used := (off + b.length) % 64
    let hi := if 64 * g + n = total && used ≠ 0 then beAll >>> (64 - used) else beAll
    let t := s.viaduct.nextTag
    let m := ViaMsg.wWrite t w ctx (BitVec.ofNat 64 ((first + 64 * g) * 64)) (if n = 1 then lo &&& hi else lo) (if n = 1 then lo &&& hi else hi) ls
    { s with viaduct := { s.viaduct with window := s.viaduct.window ++ [m], nextTag := t + 1 }
             pair := { s.pair with winReqs := s.pair.winReqs ++ [(t, u)] } }) s

/-- `n` bytes at byte `off` of a tensor's part on `role`. -/
def readBytes (e : Env) (d : TDesc) (role off n : Nat) (s : State) : List Byte :=
  let p := e.actual role
  match d.kind with
  | 0 | 1 =>
    let a := e.localOf d.kind role (d.base + off)
    (List.range n).map (fun i =>
      (((dpaOfLocal s.store.regions p (a + i)).bind (e.fog p)).getD (engineByte s p (a + i) e.run.ctx)))
  | 2 => mgetN s.store.scratch (p * 524288 + e.scratch role + d.base + off) n
  | 3 =>
    let a := e.slotDpa (d.base % 16) off
    (peekBytes s a n).mapIdx (fun i b => (e.fog p (a + i)).getD b)
  | 4 => slice (tget (fun _ => []) e.run.services (d.base % 16)) off n
  | 6 => slice (e.winBytes d) off n
  | _ => slice e.prog.consts (d.base + off) n

/-- Replaces bytes of a list from `off` on, growing it with zeros. -/
def patch (l : List Byte) (off : Nat) (b : List Byte) : List Byte :=
  slice l 0 off ++ b ++ l.drop (off + b.length)

def runGet (s : State) (id : Nat) : Option Run := s.piers.runs.find? (fun r => r.id = id)
def runMod (id : Nat) (f : Run → Run) (s : State) : State :=
  { s with piers := { s.piers with runs := modFirst (fun r => r.id = id) f s.piers.runs } }

/-- Writes bytes of a tensor's part on `role`. -/
def writeBytes (e : Env) (d : TDesc) (role off : Nat) (b : List Byte) (s : State) : State :=
  match d.kind with
  | 0 | 1 => engineWrite (e.actual role) (e.localOf d.kind role (d.base + off)) e.run.ctx b s
  | 2 =>
    let at_ := e.actual role * 524288 + e.scratch role + d.base + off
    { s with store := { s.store with scratch := msetN s.store.scratch at_ b } }
  | 3 => pokeBytes (.pierEngine (Fin.ofNat 320 (e.actual role)) (Fin.ofNat 4096 e.run.ctx)) (e.slotDpa (d.base % 16) off) b s
  | 4 =>
    let put := fun (r : Run) =>
      { r with services := tset (fun _ => []) r.services (d.base % 16) (patch (tget (fun _ => []) r.services (d.base % 16)) off b) }
    runMod e.run.id put s
  | 6 =>
    match windowOf s e.run.ctx d.base with
    | some (w, o) => sendWindowWrite (.write e.run.id) w e.run.ctx (o + off) b s
    | none => s
  | _ => s

/-! ### Elements -/

/-- A dense element's bytes. -/
def readDense (e : Env) (d : TDesc) (pier : Nat) (idx : List Nat) (s : State) : List Byte :=
  readBytes e d (ownerOf d pier idx) (elemOffset d (if d.pierLocal then (splitIndex d idx).2 else idx)) (elemBytes d.dtype) s

/-- An INT32 element. -/
def readInt (e : Env) (d : TDesc) (pier : Nat) (idx : List Nat) (s : State) : W32 := le32 (readDense e d pier idx s)

/-- A UINT64 element. -/
def readU64 (e : Env) (d : TDesc) (pier : Nat) (idx : List Nat) (s : State) : W64 := le64 (readDense e d pier idx s)

/-! ### Rows and blocks of stream types (R54, R55, R60, R80) -/

/-- Bytes of a plain stream row of `k` elements. -/
def streamRowBytes (d : TDesc) (k : Nat) : Nat := if d.dtype = 8 then lc12RowBytes k else mxRowBytes (wfmtOf d.dtype) k

/-- Codebook byte `j` of entry `n` as the pier's scratch holds it (R56). -/
def codebookByte (s : State) (pier n j : Nat) : Nat := (mget s.store.scratch (pier * 524288 + 0x7C000 + 4 * n + j)).toNat

/-- Number of a row in its part, for an index inside it (R80). -/
def rowNumber (d : TDesc) (idx : List Nat) : Nat := flat ((localDims d).drop 1) (idx.drop 1)

/-- Rows of a part. -/
def partRowCount (d : TDesc) : Nat := ((localDims d).drop 1).foldl (· * ·) 1

/-- Bytes one skive row can take at most: full frames, uncoded. -/
def skiveRowMax (d : TDesc) (k : Nat) : Nat := (k + 511) / 512 * (20 + 64 * packedBits (wfmtOf d.dtype))

/-- Skive-coded rows of a part, from an offset on; none where a frame stops the stream. -/
def skiveRows (e : Env) (d : TDesc) (role : Nat) (s : State) : Nat → Nat → Option (List (List RawBlock))
  | 0, _ => some []
  | n + 1, off =>
    let k := rowElems d
    match skiveRow (e.prog.skives.getD d.skive 0) (k / 512 + 1) k 0 (readBytes e d role off (skiveRowMax d k) s) with
    | none => none
    | some (bs, used) => (skiveRows e d role s n (off + used)).map (fun r => bs.take (k / 32) :: r)

/-- Block `b` of a plain MX row of `k` elements as it is stored (R54). -/
def rawMxBlock (f : WFmt) (row : List Byte) (k b : Nat) : RawBlock :=
  let bits := packedBits f
  let steps := min 8 ((k + 63) / 64 - 8 * (b / 16))
  let off := b / 16 * 8 * (2 + 8 * bits)
  let pk := slice row (off + 2 * steps + 4 * bits * (b % 16)) (4 * bits)
  ((row.getD (off + b % 16) 0).toNat, (List.range 32).map (packedAt pk bits))

/-- Bytes of a stored row. -/
def rowBytesAt (e : Env) (d : TDesc) (role : Nat) (li : List Nat) (s : State) : List Byte :=
  readBytes e d role (rowOffset d li) (streamRowBytes d (rowElems d)) s

/-- Blocks of a stored MX row, skive coded or plain, for an index inside the part. -/
def rawRow (e : Env) (d : TDesc) (role : Nat) (li : List Nat) (s : State) : List RawBlock :=
  if d.isSkive then (((skiveRows e d role s (rowNumber d li + 1) 0).getD []).getLast?).getD []
  else
    let row := rowBytesAt e d role li s
    (List.range (rowElems d / 32)).map (rawMxBlock (wfmtOf d.dtype) row (rowElems d))

/-- Blocks of a stored row as values; an LC12 row of a role whose codebook another role's has replaced since takes the same
bytes from its portion. -/
def rowBlocks (e : Env) (d : TDesc) (role : Nat) (li : List Nat) (s : State) : List Block32 :=
  if d.dtype = 8 then
    let row := rowBytesAt e d role li s
    let held := (tget (fun _ => {}) s.piers.piers (e.actual role) : PierSt).codebook = some (e.run.ctx, d.codebook, role)
    let cb := fun n j => if held then codebookByte s (e.actual role) n j
      else (engineByte s (e.actual role) (e.localOf 0 role d.codebook + 4 * n + j) e.run.ctx).toNat
    (List.range (rowElems d / 32)).map (lc12Block row cb)
  else (rawRow e d role li s).map (RawBlock.value (wfmtOf d.dtype))

/-- Index in the stored part of an element's index (R82). -/
def placeIdx (d : TDesc) (idx : List Nat) : List Nat := if d.pierLocal then (splitIndex d idx).2 else idx

/-- An element as FP32: FP32 as it is, BF16 exactly, a stream element times its scale. -/
def readF32 (e : Env) (d : TDesc) (pier : Nat) (idx : List Nat) (s : State) : W32 :=
  if d.isStream then
    let li := placeIdx d idx
    let i := li.getD 0 0
    let b := (rowBlocks e d (ownerOf d pier idx) li s).getD (i / 32) ⟨.nan, []⟩
    toF32 ((b.elems.getD (i % 32) .nan).mul b.scale)
  else if d.dtype = 1 then toF32 (ofBf16 (le16 (readDense e d pier idx s)))
  else le32 (readDense e d pier idx s)

/-- Bytes of an FP32 value in a dense DST type. -/
def denseOf (dtype : Nat) (v : W32) : List Byte :=
  if dtype = 1 then leBytes 2 (toBf16 (ofF32 v)).toNat else leBytes 4 v.toNat

/-- Piers that take a write of an index: every pier of a replicated set, the asking pier of a PARTIAL one, the owner
otherwise. -/
def writersOf (d : TDesc) (pier : Nat) (idx : List Nat) : List Nat :=
  if d.replicated then d.piers else [ownerOf d pier idx]

/-- Writes raw element bytes at an index. -/
def writeDense (e : Env) (d : TDesc) (pier : Nat) (idx : List Nat) (b : List Byte) (s : State) : State :=
  let li := if d.pierLocal then (splitIndex d idx).2 else idx
  foldS (writersOf d pier idx) (fun p => writeBytes e d p (elemOffset d li) b) s

/-- Writes an FP32 result in DST's type; ACC adds into DST first (R83). -/
def writeF32 (e : Env) (d : TDesc) (pier : Nat) (idx : List Nat) (acc : Bool) (v : W32) (s : State) : State :=
  let v := if acc then fadd (readF32 e d pier idx s) v else v
  writeDense e d pier idx (denseOf d.dtype v) s

/-- Writes a stored block at the row and block of an index of an MX tensor. -/
def writeRaw (e : Env) (d : TDesc) (pier : Nat) (idx : List Nat) (blk : RawBlock) (s : State) : State :=
  let li := placeIdx d idx
  let k := rowElems d
  let b := li.getD 0 0 / 32
  let bits := packedBits (wfmtOf d.dtype)
  let steps := min 8 ((k + 63) / 64 - 8 * (b / 16))
  let fr := rowOffset d li + b / 16 * 8 * (2 + 8 * bits)
  foldS (writersOf d pier idx) (fun p s =>
    let s1 := writeBytes e d p (fr + b % 16) [BitVec.ofNat 8 blk.1] s
    let s2 := writeBytes e d p (fr + 2 * steps + 4 * bits * (b % 16)) (packFields bits blk.2) s1
    -- an odd last block is followed by a zero block (R89)
    if b + 1 = k / 32 && b % 2 = 0 then
      writeBytes e d p (fr + 2 * steps + 4 * bits * (b % 16 + 1)) (List.replicate (4 * bits) 0)
        (writeBytes e d p (fr + b % 16 + 1) [0] s2)
    else s2) s

/-- The stored 128 weights of an LC12 row at an index: scale byte and index bytes (R55). -/
def lc12Part (e : Env) (d : TDesc) (pier : Nat) (idx : List Nat) (s : State) : List Byte :=
  let li := placeIdx d idx
  let g := li.getD 0 0 / 128
  let row := rowBytesAt e d (ownerOf d pier idx) li s
  row.getD (g / 4 * 196 + g % 4) 0 :: slice row (g / 4 * 196 + 4 + 48 * (g % 4)) 48

def writeLc12Part (e : Env) (d : TDesc) (pier : Nat) (idx : List Nat) (b : List Byte) (s : State) : State :=
  let li := placeIdx d idx
  let g := li.getD 0 0 / 128
  let fr := rowOffset d li + g / 4 * 196
  foldS (writersOf d pier idx) (fun p s =>
    writeBytes e d p (fr + 4 + 48 * (g % 4)) (b.drop 1) (writeBytes e d p (fr + g % 4) (b.take 1) s)) s

/-- Every index tuple of a tensor, flat order. -/
def allIdx (d : TDesc) : List (List Nat) := (List.range d.total).map (unflat d.dims)

/-- Every index tuple with dimension 0 at 0. -/
def rowIdx (d : TDesc) : List (List Nat) :=
  (List.range (d.total / d.dim 0)).map (fun f => 0 :: unflat (d.dims.drop 1) f)

/-- Writes a whole tensor of FP32 results given by index, quantised by R64 for an activation type (R95, R99); where there is
no result DST keeps what it holds. -/
def writeAll (e : Env) (d : TDesc) (pier : Nat) (acc : Bool) (f : List Nat → Option W32) (s : State) : State :=
  if isAct d.dtype then
    foldS (rowIdx d) (fun r s =>
      foldS (List.range (d.dim 0 / 32)) (fun b s =>
        let vals := (List.range 32).map (fun j => f ((32 * b + j) :: r.drop 1))
        if vals.all (·.isNone) then s
        else writeRaw e d pier ((32 * b) :: r.drop 1) (quantBlock (afmtOf d.dtype) (vals.map (·.getD 0))) s) s) s
  else
    foldS (allIdx d) (fun i s => match f i with
      | some v => writeF32 e d pier i acc v s
      | none => s) s

/-- An index of a source that matches DST in every dimension or has size 1 there (R95). -/
def bcast (d : TDesc) (idx : List Nat) : List Nat := idx.zipIdx.map (fun (i, n) => if d.dim n = 1 then 0 else i)

/-- The lane of an index: its place in the last dimension. -/
def laneOf (d : TDesc) (idx : List Nat) : Nat := idx.getD (d.rank - 1) 0

/-- Lane bit of a column number. -/
def laneBit (i : Nat) : W16 := if i < 16 then (1 : W16) <<< i else 0

/-! ### Lines an operand reads (R87 POISON, R128, R130) -/

/-- Lines of a pier's memory that `n` bytes from a local address touch. -/
def linesOf (a n : Nat) : List Nat := (List.range ((a + n + 63) / 64 - a / 64)).map (fun i => (a / 64 + i) * 64)

/-- Bytes of a part that its skive decoder reads: up to the end of its rows, or of the frame that stops it. -/
def skiveSpan (e : Env) (d : TDesc) (role : Nat) (s : State) : Nat → Nat → Nat
  | 0, off => off
  | n + 1, off =>
    let k := rowElems d
    let t := e.prog.skives.getD d.skive 0
    let b := readBytes e d role off (skiveRowMax d k) s
    match skiveRow t (k / 512 + 1) k 0 b with
    | none => off + skiveReach t (k / 512 + 1) k 0 b
    | some (_, used) => skiveSpan e d role s n (off + used)

/-- Pier-local lines of memory that a tensor's part on `role` takes up. -/
def partLines (e : Env) (d : TDesc) (role : Nat) (s : State) : List Nat :=
  if 2 ≤ d.kind || d.paged then []
  else if d.isSkive then linesOf (e.localOf d.kind role d.base) (skiveSpan e d role s (partRowCount d) 0)
  else
    let rb := if d.isStream then streamRowBytes d (rowElems d) else rowElems d * elemBytes d.dtype
    let rows := (rowIdx d).filter (fun i => !d.sharded || d.pierFirst + (splitIndex d i).1 = role || d.cutRow)
    rows.flatMap (fun i => linesOf (e.localOf d.kind role (d.base + rowOffset d (splitIndex d i).2)) rb)

/-- A pier's engine reads lines for a role: every access, and whether a line came with poison. -/
def accessLines (e : Env) (role : Nat) (ls : List Nat) (s : State) : Bool × State :=
  (ls.any (fun a => (engineLine s (e.actual role) a e.run.ctx).poison),
    foldS ls (engineAccess (e.actual role) e.run.ctx) s)

/-- The reads of an operand's whole tensor in a run slot. -/
def accessSlot (e : Env) (d : TDesc) (s : State) : Bool × State :=
  let req := MemRequester.pierEngine (Fin.ofNat 320 (e.actual d.pierFirst)) (Fin.ofNat 4096 e.run.ctx)
  (rowIdx d).foldl (fun (acc : Bool × State) i =>
    let r := readRun req (e.slotDpa (d.base % 16) (rowOffset d i))
      (if d.isStream then streamRowBytes d (rowElems d) else d.dim 0 * elemBytes d.dtype) acc.2
    (acc.1 || r.2.1, r.2.2)) (false, s)

/-! ### Paged KV (R138, R139) -/

/-- Units of a PAGED_KV tensor in flat order: index tuples of its dimensions 1 and above. -/
def kvUnits (d : TDesc) : List (List Nat) :=
  (List.range (d.total / d.dim 0)).map (fun f => (unflat (d.dims.drop 1) f).take (d.rank - 1))

/-- Roles whose piers hold a unit (R81). -/
def unitRoles (d : TDesc) (unit : List Nat) : List Nat :=
  if d.sharded then [d.pierFirst + (splitIndex d (0 :: unit)).1]
  else if d.replicated || d.isPartial then d.piers else [d.pierFirst]

/-- Units of a role's part, in flat order (R139). -/
def unitsOn (d : TDesc) (role : Nat) : List (List Nat) := (kvUnits d).filter (fun u => (unitRoles d u).contains role)

/-- The role that holds a unit, `pier` where every pier does, and the unit's number in that role's part. -/
def kvUnit (d : TDesc) (pier : Nat) (unit : List Nat) : Nat × Nat :=
  let u := unit.take (d.rank - 1)
  let p := if (unitRoles d u).contains pier then pier else (unitRoles d u).headD pier
  (p, (unitsOn d p).findIdx (· = u))

/-- Pier-local address of a unit's page-list header. -/
def kvHeader (e : Env) (d : TDesc) (role j : Nat) : Nat :=
  (if d.kind = 4 then tget (fun _ => 0) e.run.kvBase (512 * d.idx + role) else e.localOf 1 role d.base) + 8 * j

def engineBytes (s : State) (p a c n : Nat) : List Byte := (List.range n).map (fun i => engineByte s p (a + i) c)

/-- Entries of a unit's page list and their offset. -/
def kvList (e : Env) (d : TDesc) (role j : Nat) (s : State) : Nat × Nat :=
  let h := leNat (engineBytes s (e.actual role) (kvHeader e d role j) e.run.ctx 8)
  (h / 2 ^ 32 % 2 ^ 13, h % 2 ^ 32)

/-- Lines of a unit's page-list header, and of its entries for positions `ts`. -/
def kvHeadLines (e : Env) (d : TDesc) (role j : Nat) : List Nat := linesOf (kvHeader e d role j) 8
def kvEntryLines (e : Env) (d : TDesc) (role j : Nat) (ts : List Nat) (s : State) : List Nat :=
  let (len, off) := kvList e d role j s
  ((ts.filter (fun t => t / 256 < len)).flatMap (fun t => linesOf (off + 8 * (t / 256)) 8)).eraseDups

/-- Local address of the page that holds position `t`; none gives KV_ABSENT. -/
def kvFrame (e : Env) (d : TDesc) (role j t : Nat) (s : State) : Option Nat :=
  let (len, off) := kvList e d role j s
  if len ≤ t / 256 then none
  else
    let v := leNat (engineBytes s (e.actual role) (off + 8 * (t / 256)) e.run.ctx 8)
    if v / 2 ^ 63 = 1 then some (v % 2 ^ 24 * 256) else none

/-- Wide codes: KVQ8. -/
def TDesc.wide (d : TDesc) : Bool := d.dtype = 0xA

/-- Address of the key or value vector of position `t` in a page. -/
def kvAddr (d : TDesc) (frame t : Nat) (value : Bool) : Nat :=
  frame + ((if value then 256 else 0) + t % 256) * kvBytes d.wide (d.dim 0)

/-- Blocks of a stored key or value. -/
def kvVector (e : Env) (d : TDesc) (role frame t : Nat) (value : Bool) (s : State) : List Block32 :=
  let b := engineBytes s (e.actual role) (kvAddr d frame t value) e.run.ctx (kvBytes d.wide (d.dim 0))
  (List.range (d.dim 0 / 32)).map (kvBlock d.wide b (d.dim 0))

end Sys2Proof.Machine
end

