-- ==== Sys2Proof/Machine/Roles.lean ====
section
/-!
DEFINITION. Machine/Roles.lean: the operands and pier sets of stitches, and what a bound program holds on the piers
(03_stitch_programs.md R84, R85, R108, R109; Tables 3-5, 3-6).
-/
namespace Sys2Proof.Machine

def pierGet (s : State) (p : Nat) : PierSt := tget (fun _ => {}) s.piers.piers p
def pierSet (p : Nat) (x : PierSt) (s : State) : State :=
  { s with piers := { s.piers with piers := tset (fun _ => {}) s.piers.piers p x } }

/-- Engines a stitch uses: array 1, vector unit 2, mover 4 (Table 3-6). -/
def Stitch.engines (st : Stitch) : Nat :=
  match st.opcode with
  | 1 | 2 => 1
  | 3 => 3
  | 4 | 5 => 2
  | 6 | 7 | 8 => 6
  | 10 => if st.variant = 2 then 6 else 4
  | _ => 4

/-- A tensor index an operation takes from OPERANDS: MASK, STATS. -/
def Stitch.extra (st : Stitch) : Nat :=
  match st.opcode with
  | 1 | 2 => st.op 128 12
  | 3 => if st.variant = 1 then st.op 192 12 else noTensor
  | 7 => st.op 144 12
  | 11 => st.op 184 12
  | _ => noTensor

def Stitch.reads (p : Program) (st : Stitch) : List TDesc :=
  let x := if st.opcode = 1 || st.opcode = 2 || st.opcode = 11 then st.extra else noTensor
  let d := if st.acc || (st.opcode = 5 && st.op 128 8 = 0x22) then st.dst else noTensor
  [st.src0, st.src1, st.src2, x, d].filterMap p.desc

def Stitch.writes (p : Program) (st : Stitch) : List TDesc :=
  let x := if st.opcode = 3 || st.opcode = 7 then st.extra else noTensor
  [st.dst, x].filterMap p.desc

/-- The pier set that Table 3-6 derives from a stitch's operands; none where the set is as written. -/
def Stitch.derived (p : Program) (st : Stitch) : Option (List Nat) :=
  let set := fun n => ((p.desc n).map TDesc.piers).getD []
  match st.opcode with
  | 1 | 2 | 7 | 8 => some (set st.src0)
  | 3 | 4 | 5 => some (set st.dst)
  | 6 => some (set st.src0 ++ set st.dst)
  | 9 | 10 => some (set st.dst ++ set st.src0 ++ set st.src1 ++ set st.src2)
  | _ => none

/-- The pier set as written; 0 piers name the set of DST (Table 3-5). -/
def Stitch.written (p : Program) (st : Stitch) : List Nat :=
  if st.pierCount ≠ 0 then (List.range st.pierCount).map (st.pierFirst + ·)
  else ((p.desc st.dst).map TDesc.piers).getD []

/-- Roles of a stitch's pier set, ascending (R84, Table 3-6). -/
def Stitch.roles (p : Program) (st : Stitch) : List Nat :=
  match st.derived p with
  | some l => (List.range 320).filter l.contains
  | none => st.written p

/-- Piers a program uses: the sets of its stitches and of its pier-local tensors. -/
def Program.piers (p : Program) : List Nat :=
  let ds := p.descs.zipIdx.map (fun (v, n) => tdesc n v)
  let all := (ds.filter (·.pierLocal)).flatMap TDesc.piers ++ (p.stitches.map stitchOf).flatMap (Stitch.roles p)
  (List.range 320).filter all.contains

/-- Skive records that role `role` of a program needs. -/
def Program.tables (p : Program) (role : Nat) : List (BitVec 512) :=
  ((p.descs.zipIdx.map (fun (v, n) => tdesc n v)).filter (fun d => d.isSkive && d.piers.contains role)).map
    (fun d => p.skives.getD d.skive 0)

/-- Role `role` of the program streams LC12 weights. -/
def Program.lc12 (p : Program) (role : Nat) : Bool :=
  (p.descs.zipIdx.map (fun (v, n) => tdesc n v)).any (fun d => d.dtype = 8 && d.piers.contains role)

/-- Roles of bound programs that pier `q` carries: context, program index, program, role. -/
def rolesOn (s : State) (q : Nat) : List (Nat × Nat × Program × Nat) :=
  s.piers.models.flatMap (fun (c, m) => (m.programs.zipIdx.filter (·.1.bound)).flatMap (fun (p, i) =>
    ((p.piers.filter (fun r => tget (fun k => k) p.subst r = q)).map (fun r => (c, i, p, r)))))

/-- Takes back what a context's programs hold on the piers: scratch, and slots no other program needs (R109). -/
def takeRoles (ctx : Nat) (s : State) : State :=
  foldS (List.range 320) (fun q s =>
    let x := pierGet s q
    let keep := ((rolesOn s q).filter (fun r => r.1 ≠ ctx)).flatMap (fun r => r.2.2.1.tables r.2.2.2)
    pierSet q { x with allocs := x.allocs.filter (fun a => a.ctx ≠ ctx), slots := x.slots.filter (fun t => keep.contains t.2)
                       codebook := if x.codebook.any (fun c => c.1 = ctx) then none else x.codebook } s) s

end Sys2Proof.Machine
end

