-- ==== Sys2Proof/Machine/Service.lean ====
section
/-!
DEFINITION. Machine/Service.lean: the operations on streams that commands, runs and host events share: completions,
sealing, ending, suspending, restarting (05_generation_service.md).
-/
namespace Sys2Proof.Machine

/-! ### Queue pairs and completions -/

def qpGet (s : State) (n : Nat) : QpEntry := tget (fun _ => {}) s.host.qps n
def qpSet (n : Nat) (q : QpEntry) (s : State) : State :=
  { s with host := { s.host with qps := tset (fun _ => {}) s.host.qps n q } }
def qpMod (n : Nat) (f : QpEntry → QpEntry) (s : State) : State := qpSet n (f (qpGet s n)) s

/-- A completion waits at the completion queue of the queue pair that carried the command (R148); a queue pair that is
no longer in service loses it (R154). -/
def complete (n : Nat) (c : Completion) (s : State) : State :=
  let q := qpGet s n
  if q.armed then qpSet n { q with waiting := q.waiting ++ [c] } s else s

/-- A command's fields (Table 5-1). -/
def cmdByte (e : BitVec 512) (i : Nat) : Nat := fld e (8 * i) 8
def cmdCid (e : BitVec 512) : W16 := BitVec.ofNat 16 (fld e 16 16)
/-- `n` bytes of a command from offset `i`. -/
def cmdField (e : BitVec 512) (i n : Nat) : Nat := fld e (8 * i) (8 * n)

/-- Command completion of entry `e` of queue pair `n` (Table 5-7); HANDLE is 0 when rejected. -/
def answer (n : Nat) (e : BitVec 512) (status detail : Nat) (handle : W64) (result : List Byte) (s : State) : State :=
  complete n { kind := 2, status := BitVec.ofNat 8 status, detail := BitVec.ofNat 8 detail, cid := cmdCid e,
               sq := BitVec.ofNat 16 n, handle := if 0x10 ≤ status && status < 0x20 then 0 else handle, detailIndex := 0, result := result } s

/-- Status codes (Table 0-5). -/
def stOk : Nat := 0x00
def stAlready : Nat := 0x01
def stState : Nat := 0x10
def stFormat : Nat := 0x11
def stPerm : Nat := 0x12
def stFull : Nat := 0x13
def stElsewhere : Nat := 0x14
def stKey : Nat := 0x15
def stDone : Nat := 0x20
def stCancelled : Nat := 0x21
def stLimited : Nat := 0x22

/-- The scheduler core of a context as a trace unit (R140). -/
def schedCore (ctx : Nat) : Nat := 2 + ctx % 4
def uSched (ctx : Nat) : BitVec 9 := uCore (schedCore ctx)

/-! ### Models and text (R164, R165) -/

def modelOf (s : State) (ctx : Nat) : Option Model := (s.piers.models.find? (fun e => e.1 = ctx)).map (·.2)
def modelSet (ctx : Nat) (m : Option Model) (s : State) : State :=
  let rest := s.piers.models.filter (fun e => e.1 ≠ ctx)
  let ms := match m with
    | some m => rest ++ [(ctx, m)]
    | none => rest
  { s with piers := { s.piers with models := ms } }

/-- The bound program of a context with a role, with its index. -/
def programOf (s : State) (ctx : Nat) (role : Role) : Option (Nat × Program) :=
  (modelOf s ctx).bind (fun m => (m.programs.zipIdx.find? (fun e => e.1.role = role && e.1.bound)).map (fun e => (e.2, e.1)))

/-- Bytes a token adds in UTF8 mode. -/
def tokenText (s : State) (ctx : Nat) (t : W32) : List Byte :=
  match (modelOf s ctx).bind (·.vocab) with
  | some (v, str) =>
    match v[t.toNat]? with
    | some (off, len) => slice str off len
    | none => []
  | none => []

/-- Prompt, committed and open tokens. -/
def Stream.tokens (x : Stream) : List W32 := x.prompt ++ x.committed ++ x.opened

/-! ### Output records (Table 5-9, R149) -/

/-- The 128 bytes of a record. -/
def recordBytes (x : Stream) (i : Nat) (r : OutRec) (phase : Bool) : List Byte :=
  let payload := if x.raw then leBytes 2 r.laneExc.toNat
    else if x.utf8 then r.bytes else r.tokens.flatMap (fun t => leBytes 4 t.toNat)
  [1, BitVec.ofNat 8 (b2n phase + 2 * b2n r.final + 4 * b2n x.utf8 + 8 * b2n r.restart),
   BitVec.ofNat 8 r.tokens.length, r.status] ++ leBytes 4 r.seq.toNat ++ leBytes 8 (x.handle i).toNat ++
  leBytes 8 x.userTag.toNat ++ leBytes 4 r.position.toNat ++
  [r.restarts, r.reason, BitVec.ofNat 8 (if x.utf8 then r.bytes.length else 0), 0] ++ slice payload 0 96

/-- Seals the open record into the journal and commits its tokens (R149, R150, R180). -/
def sealRec (i : Nat) (final : Bool) (status reason : Nat) (lane : W16) (s : State) : State :=
  let x := streamGet s i
  let text := if x.utf8 then x.opened.flatMap (tokenText s x.ctx.toNat) else []
  let r : OutRec :=
    { seq := x.nextSeq, tokens := x.opened, bytes := text
      position := BitVec.ofNat 32 (x.prompt.length + x.committed.length), final := final, restart := x.restartMark
      status := BitVec.ofNat 8 status, restarts := BitVec.ofNat 8 (min 255 x.restarts)
      reason := BitVec.ofNat 8 reason, laneExc := lane }
  let y := { x with committed := x.committed ++ x.opened, opened := [], sealed := x.sealed ++ [r]
                    nextSeq := x.nextSeq + 1, restartMark := false }
  let s1 := countN 2602 x.opened.length (streamSet i y s)
  let s2 := if x.utf8 && !x.opened.isEmpty then
      jPut (x.tokenOff + 4 * x.committed.length) (x.opened.flatMap (fun t => leBytes 4 t.toNat)) .other s1
    else s1
  jPut (x.slotOff x.nextSeq.toNat) (recordBytes y i r false) (.seal i x.nextSeq) s2

/-- Seals a record that holds tokens. -/
def sealOpen (i : Nat) (s : State) : State :=
  if (streamGet s i).opened.isEmpty then s else sealRec i false 0 0 0 s

/-- Appends a sampled token; in UTF8 mode a record that would overflow is sealed first, and a full record is sealed
(R149, R165). -/
def appendToken (i : Nat) (t : W32) (s : State) : State :=
  let x := streamGet s i
  let len := fun t => (tokenText s x.ctx.toNat t).length
  let s1 := if x.utf8 && 96 < (x.opened.map len).sum + len t then sealOpen i s else s
  let y := streamGet s1 i
  let s2 := streamSet i { y with opened := y.opened ++ [t], openSince := if y.opened.isEmpty then s1.ticks else y.openSince } s1
  if x.recordTokens ≤ (streamGet s2 i).opened.length then sealOpen i s2 else s2

/-! ### Lanes, KV and ends -/

/-- Leaves the lane held. -/
def leaveLane (i : Nat) (s : State) : State :=
  let bs := s.service.batches.map (fun (n, b) =>
    (n, { b with lanes := b.lanes.map (fun l => if l = some i then none else l) }))
  streamMod i (fun x => { x with place := none, requeue := false }) { s with service := { s.service with batches := bs } }

/-- Releases a stream's KV pages and its spill slots. -/
def freeKv (i : Nat) (s : State) : State :=
  let x := streamGet s i
  let slots := (x.kv.filter (fun p => !p.resident)).map (·.frame)
  let c := ctxGet s x.ctx.toNat
  let s1 := if slots.isEmpty then s
    else ctxSet x.ctx.toNat { c with spillUsed := c.spillUsed.filter (fun n => !slots.contains n) } s
  streamSet i { x with kv := [], prefilled := 0 } s1

/-- Ends a stream with its terminal status: the FINAL record, the lane and the KV freed, STREAM_END and its counter
(R149, Table 17-2, Table 17-3). -/
def endStream (i : Nat) (st : StreamSt) (reason : Nat) (lane : W16) (s : State) : State :=
  let code := match st with
    | .done => stDone
    | .cancelled => stCancelled
    | _ => stLimited
  let s1 := freeKv i (leaveLane i (sealRec i true code reason lane s))
  let x := streamGet s1 i
  let s2 := streamSet i { x with st := st, susp := 0, suspNext := 0, reason := BitVec.ofNat 8 reason, laneExc := lane } s1
  count (2599 + (code - stDone))
    (trace 0x31 (uSched x.ctx.toNat) (x.handle i).toNat
      (code + 256 * reason + 65536 * min 255 x.restarts + 2 ^ 32 * x.committed.length) s2)

/-- The record is freed: its handle is stale, its extent and index entry are free, the partner is told (R151, R182). -/
def freeStream (i : Nat) (s : State) : State :=
  let x := streamGet s i
  let s1 := noteCursor i true s
  let s2 := { s1 with service := { s1.service with
    freeExtents := s1.service.freeExtents ++ [(x.ctx.toNat, x.extentLine, x.extentLines)] } }
  keepIndex i (streamSet i { inc := x.inc, used := true } s2)

/-! ### Suspension (R155, R169) -/

def suspCmd : BitVec 5 := 1
def suspHost : BitVec 5 := 2
def suspBme : BitVec 5 := 4
def suspHeld : BitVec 5 := 8
def suspModel : BitVec 5 := 16

/-- STREAM_SUSPEND with the reasons after the change; a change of CMD goes to the index entry. -/
def suspChanged (i : Nat) (old : BitVec 5) (s : State) : State :=
  let x := streamGet s i
  if x.susp = old then s
  else
    let s1 := trace 0x33 (uSched x.ctx.toNat) (x.handle i).toNat x.susp.toNat s
    if x.susp &&& suspCmd ≠ old &&& suspCmd then putIndex i .other s1 else s1

/-- The stream enters SUSPENDED with further reasons: its open record is sealed and it leaves its lane, KV kept. -/
def suspend (i : Nat) (bits : BitVec 5) (s : State) : State :=
  let x := streamGet s i
  if !x.live then s
  else if x.st = .submitted then streamSet i { x with susp := x.susp ||| bits } s
  else
    let s1 := leaveLane i (sealOpen i s)
    let y := streamGet s1 i
    suspChanged i y.susp (streamSet i { y with st := .suspended, susp := y.susp ||| bits, suspNext := 0 } s1)

/-- A stream that holds a slot. -/
def Stream.holds (x : Stream) : Bool := x.st = .prefill || x.st = .decode

/-- At once where the stream holds no slot, at its next boundary where it does (Table 5-13). -/
def suspendSoon (i : Nat) (bits : BitVec 5) (s : State) : State :=
  let x := streamGet s i
  if x.holds then streamSet i { x with suspNext := x.suspNext ||| bits } s else suspend i bits s

/-- Restart: provisional tokens and KV discarded, back to QUEUED (a suspended stream keeps its reasons), RESTARTS
incremented once for each readmission (R134, R167). -/
def restart (i : Nat) (code : Nat) (s : State) : State :=
  let x := streamGet s i
  if !x.live || x.st = .submitted then s
  else
    let s1 := freeKv i (leaveLane i (streamSet i { x with opened := [] } s))
    let y := streamGet s1 i
    let s2 := streamSet i { y with st := if y.st = .suspended then .suspended else .queued, queuedSince := s.ticks
                                   restarts := if y.restartPending then y.restarts else y.restarts + 1
                                   restartPending := true, restartMark := true } s1
    if x.restartPending then s2
    else
      putIndex i .other (count 2605 (trace 0x32 (uSched x.ctx.toNat) (x.handle i).toNat code s2))

/-- Reasons clear; the last one's clearing queues the stream, and a stream whose MODEL clears restarts (R155, R169). -/
def unsuspend (i : Nat) (bits : BitVec 5) (s : State) : State :=
  let x := streamGet s i
  if x.susp &&& bits = 0 && x.suspNext &&& bits = 0 then s
  else
    let left := x.susp &&& ~~~bits
    let y := { x with susp := left, suspNext := x.suspNext &&& ~~~bits }
    let y := if x.st = .suspended && left = 0 then { y with st := .queued, queuedSince := s.ticks } else y
    let s1 := suspChanged i x.susp (streamSet i y s)
    if x.st = .suspended && x.susp &&& bits &&& suspModel ≠ 0 then restart i 3 s1 else s1

/-- Streams of a context that are live. -/
def liveOf (s : State) (ctx : Nat) : List Nat :=
  (streamIds s).filter (fun i => (streamGet s i).live && (streamGet s i).ctx.toNat = ctx)

/-! ### The cinch point (R154) -/

/-- Step 5: CINCHED, the SUBMIT completion with the handle, STREAM_CINCH. -/
def cinch (i : Nat) (s : State) : State :=
  let x := streamGet s i
  if x.st ≠ .submitted then s
  else
    let s1 := streamSet i { x with st := if x.susp = 0 then .cinched else .suspended, cinchSeq := s.service.nextCinch }
      { s with service := { s.service with nextCinch := s.service.nextCinch + 1 } }
    let c : Completion := { kind := 2, status := 0, detail := 0, cid := x.cid, sq := x.sq, handle := x.handle i
                            detailIndex := 0, result := [] }
    count 2592 (trace 0x30 (uSched x.ctx.toNat) (x.handle i).toNat x.sq.toNat (complete x.sq.toNat c s1))

/-! ### Long operations: ends (R147, R166) -/

/-- The operation of a slot of the long-operation table; none where the slot is free. -/
def tableOp (s : State) (j : Nat) : Option LongOp :=
  let b := jRead s (offLongOp j) 128
  let e : BitVec 512 := BitVec.ofNat 512 (leNat (b.take 64))
  if e = 0 then none
  else
    let h := leNat (slice b 0x40 8)
    let ctx : BitVec 12 := BitVec.ofNat 12 (h / 2 ^ 18)
    let status := b.getD 0x48 0
    let dq := le16 (b.drop 0x60)
    some { inc := BitVec.ofNat 31 (h / 2 ^ 32), used := true, opcode := BitVec.ofNat 8 (cmdByte e 0), ctx := ctx
           target := if cmdByte e 0 = 0x12 then BitVec.ofNat 12 (cmdField e 4 2) else ctx
           cid := cmdCid e, sq := dq, deliverCq := dq, entry := e, doneUnits := le64 (b.drop 0x50)
           totalUnits := le64 (b.drop 0x58), status := status
           st := if status = 0xFF then .running else if status.toNat = stDone then .done
             else if status.toNat = stCancelled then .cancelled else .failed }

/-- Frees a long-operation slot. -/
def freeOp (j : Nat) (s : State) : State :=
  let x := opGet s j
  putOp j .other (opSet j { inc := x.inc, used := true } s)

/-- BURNISH reports its ends through BURNISH records, the others through LONGOP records (Table 17-2). -/
def opEndTrace (j : Nat) (s : State) : State :=
  let x := opGet s j
  if x.opcode = 0x12 then trace 0x41 (uCore 7) x.target.toNat x.doneUnits.toNat s
  else if x.shadow then s
  else trace 0x39 (uSched x.ctx.toNat) (x.handle j).toNat
    (x.opcode.toNat + 256 * x.status.toNat + 2 ^ 32 * (x.doneUnits.toNat % 2 ^ 32)) s

/-- The ACKs that waited for the sweep in slot `j` go to the partner (R183). -/
def releaseAcks (j : Nat) (s : State) : State :=
  let mine := s.pair.ackHeld.filter (fun a => a.2 = j)
  { s with pair := { s.pair with ackHeld := s.pair.ackHeld.filter (fun a => a.2 ≠ j) }
           viaduct := { s.viaduct with journal := s.viaduct.journal ++ mine.map (fun a => ViaMsg.jAck a.1 0) } }

/-- A long operation ends; an operation of entry 2720h places its final status there and is freed (R147). -/
def endOp (j : Nat) (st : OpSt) (status detail index : Nat) (s : State) : State :=
  let x := opGet s j
  if !x.isOpen then s
  else
    let y := { x with st := st, status := BitVec.ofNat 8 status, detail := BitVec.ofNat 8 detail
                      detailIndex := BitVec.ofNat 32 index, chunks := [], todo := [] }
    let s1 := releaseAcks j (opEndTrace j (putOp j .other (opSet j y s)))
    if x.deliverCq = 0xFFFF && !x.shadow then
      freeOp j { s1 with service := { s1.service with burnFinal := y.status, burnUnits := y.doneUnits } }
    else if x.shadow && (jRead s1 (offLongOp j) 64).all (· = 0) then opSet j { inc := x.inc, used := true } s1
    else s1

end Sys2Proof.Machine
end

