-- ==== Sys2Proof/Machine/Commands.lean ====
section
/-!
DEFINITION. Machine/Commands.lean: what a command for a stream or a long operation does in each state, without the queue
that carried it (R145, R155 to R157, R166, Tables 5-5, 5-6, 5-8, 5-11).
-/
namespace Sys2Proof.Machine

/-! ### Entries and handles -/

/-- Every byte of the entry outside the named fields (offset, length) is 0 (R17). -/
def onlyBytes (e : BitVec 512) (named : List (Nat × Nat)) : Bool :=
  (List.range 64).all (fun i => named.any (fun f => f.1 ≤ i && i < f.1 + f.2) || cmdByte e i = 0)

/-- Format of a command of Table 5-5. -/
def cmdFormat (e : BitVec 512) : Bool :=
  match cmdByte e 0 with
  | 0x02 | 0x04 | 0x05 => onlyBytes e [(0, 1), (2, 2), (8, 8)]
  | 0x03 => onlyBytes e [(0, 4), (8, 18)] && cmdByte e 1 < 2 &&
      (cmdByte e 1 = 0 || cmdField e 0x18 2 < 32768)
  | 0x06 => onlyBytes e [(0, 1), (2, 2), (8, 9)] && cmdByte e 0x10 < 8
  | 0x10 => onlyBytes e [(0, 1), (2, 2), (8, 16)] && cmdField e 0x10 8 % 65536 = 0
  | 0x14 => onlyBytes e [(0, 4), (8, 20)] && cmdByte e 1 < 2 && cmdField e 8 8 % 4096 = 0 && cmdField e 0x10 8 % 4096 = 0 &&
      1 ≤ cmdField e 0x18 4 && cmdField e 0x18 4 ≤ 16777216
  | 0x11 | 0x13 => onlyBytes e [(0, 1), (2, 2)]
  | 0x12 => onlyBytes e [(0, 1), (2, 4)] && cmdField e 4 2 < 4096
  | _ => true

/-- What a handle names. -/
inductive Target where
  | stream (i : Nat)
  | longOp (j : Nat)
  | rejected (status : Nat)

/-- R145; `ctx` is the caller's context, none for entry 2720h. -/
def targetOf (s : State) (ctx : Option (BitVec 12)) (h : Nat) : Target :=
  let idx := h % 2 ^ 18
  let isOp := h / 2 ^ 63 % 2 = 1
  let hctx := BitVec.ofNat 12 (h / 2 ^ 18)
  let inc := BitVec.ofNat 31 (h / 2 ^ 32)
  if h / 2 ^ 30 % 4 ≠ 0 || (isOp && 1023 < idx) then .rejected stFormat
  else if ctx.any (· ≠ hctx) then .rejected stPerm
  else if isOp then
    let x := opGet s idx
    if x.st = .free || x.shadow || x.inc ≠ inc || x.ctx ≠ hctx then .rejected stState else .longOp idx
  else
    let x := streamGet s idx
    if x.st = .free || x.inc ≠ inc || x.ctx ≠ hctx then .rejected stState else .stream idx

/-! ### QUERY (Table 5-8) -/

def StreamSt.code : StreamSt → Nat
  | .free | .submitted => 0
  | .cinched => 1 | .queued => 2 | .prefill => 3 | .decode => 4 | .suspended => 5 | .done => 8 | .cancelled => 9
  | .limited => 10

def OpSt.code : OpSt → Nat
  | .free | .running => 6
  | .suspended => 5 | .done => 8 | .cancelled => 9 | .failed => 11

def queryStream (x : Stream) : List Byte :=
  [BitVec.ofNat 8 x.st.code, BitVec.ofNat 8 x.susp.toNat, BitVec.ofNat 8 x.priority.toNat,
   BitVec.ofNat 8 (min 255 x.restarts)] ++ leBytes 4 x.committed.length ++ leBytes 4 x.nextSeq.toNat ++
  leBytes 4 x.ackedSeq.toNat ++ List.replicate 80 0

def queryOp (x : LongOp) : List Byte :=
  [BitVec.ofNat 8 x.st.code] ++ List.replicate 15 0 ++ leBytes 8 x.doneUnits.toNat ++ leBytes 8 x.totalUnits.toNat ++
    List.replicate 64 0

/-! ### Streams (Table 5-11) -/

/-- A completion that follows the change just mirrored, where the command changed the journal (R182). -/
def answerAfter (before : State) (n : Nat) (e : BitVec 512) (status : Nat) (h : W64) (s : State) : State :=
  if waits s && before.pair.acks.length < s.pair.acks.length then
    let c : Completion := { kind := 2, status := BitVec.ofNat 8 status, detail := 0, cid := cmdCid e
                            sq := BitVec.ofNat 16 n, handle := h, detailIndex := 0, result := [] }
    let acks := s.pair.acks.dropLast ++ (s.pair.acks.getLast?.map (fun a => (a.1, AckWait.answer n c))).toList
    { s with pair := { s.pair with acks := acks } }
  else answer n e status 0 h [] s

/-- RESUME with CLAIM_REQ on a suspended stream: the checks of R155 in order, then its effects. -/
def claim (i n : Nat) (e : BitVec 512) (s : State) : State :=
  let x := streamGet s i
  let h := x.handle i
  let cq := cmdField e 0x18 2
  let q := qpGet s cq
  if x.claim = 0 || x.claim.toNat ≠ cmdField e 0x10 8 then
    answer n e stPerm 0 h [] (count 2607 (trace 0x28 (uCore 7) (x.ctx.toNat + 65536 * 6) 0 s))
  else if q.ctx ≠ x.ctx then answer n e stPerm 0 h [] s
  else if !q.armed then answer n e stState 0 h [] s
  else
    let y := { x with deliverCq := BitVec.ofNat 16 cq, held := false, writeSeq := x.ackedSeq }
    answerAfter s n e stOk h (putIndex i .other (unsuspend i (suspCmd ||| suspHost ||| suspHeld) (streamSet i y s)))

/-- A command for a stream, taking effect now. -/
def streamCmd (i n : Nat) (e : BitVec 512) (s : State) : State :=
  let x := streamGet s i
  let h := x.handle i
  let reply := fun st s => answer n e st 0 h [] s
  match cmdByte e 0 with
  | 0x05 => answer n e stOk 0 h (queryStream x) s
  | 0x02 =>
    if x.st = .submitted || x.terminal then reply stState s
    else if x.st = .suspended then reply stAlready s
    else answerAfter s n e stOk h (suspend i suspCmd s)
  | 0x03 =>
    if x.st ≠ .suspended then reply stState s
    else if cmdByte e 1 = 1 then claim i n e s
    else if x.susp &&& suspCmd = 0 then reply stState s
    else answerAfter s n e stOk h (unsuspend i suspCmd s)
  | 0x04 =>
    if x.st = .cancelled then reply stAlready s
    else if x.st = .submitted || x.terminal then reply stState s
    else reply stOk (endStream i .cancelled 4 0 s)
  | 0x06 =>
    if x.st = .submitted || x.terminal then reply stState s
    else answerAfter s n e stOk h
      (putIndex i .other (streamSet i { x with priority := BitVec.ofNat 3 (cmdByte e 0x10) } s))
  | _ => s

/-- The raw run of a stream. -/
def rawRunOf (s : State) (i : Nat) : Option Run := s.piers.runs.find? (fun r => r.kind = .raw i)

/-- A command for a stream that holds a slot waits for its batch's boundary (R156); SUSPEND and CANCEL of a raw run wait for its
next stitch boundary (R157, R112); any other takes effect at once. -/
def streamCmdSoon (i n : Nat) (e : BitVec 512) (s : State) : State :=
  let x := streamGet s i
  if !x.holds then streamCmd i n e s
  else
    match x.place with
    | some (b, _) =>
      let bs := s.service.batches.map (fun t => if t.1 = b then (t.1, { t.2 with cmds := t.2.cmds ++ [(n, e)] }) else t)
      { s with service := { s.service with batches := bs } }
    | none =>
      if cmdByte e 0 ≠ 2 && cmdByte e 0 ≠ 4 then streamCmd i n e s
      else
      let runs := modFirst (fun (r : Run) => r.kind = .raw i) (fun r => { r with cmds := r.cmds ++ [(n, e)] }) s.piers.runs
      { s with piers := { s.piers with runs := runs } }

/-- Applies waiting commands, in fetch order; each names its stream by its handle. -/
def applyCmds (cmds : List (Nat × BitVec 512)) (s : State) : State :=
  foldS cmds (fun (n, e) s =>
    match targetOf s none (cmdField e 8 8) with
    | .stream i => streamCmd i n e s
    | .longOp _ => s
    | .rejected st => answer n e st 0 0 [] s) s

/-! ### Long operations (R166, R183, Table 5-12) -/

/-- Undoes a LOAD_MODEL: everything reserved is freed, no model bound (Table 5-12). -/
def undoLoad (ctx : Nat) (s0 : State) : State :=
  let s := takeRoles ctx s0
  { s with piers := { s.piers with models := s.piers.models.filter (fun e => e.1 ≠ ctx)
                                   pool := s.piers.pool.filter (fun p => p.1 ≠ ctx) }
           pair := { s.pair with imageParts := s.pair.imageParts.filter (fun p => p.1 ≠ ctx) } }

/-- Effect of CANCEL on a long operation (Table 5-12): pages a burnish has not overwritten stay withheld. -/
def cancelOp (j : Nat) (s : State) : State :=
  let x := opGet s j
  let c := ctxGet s x.target.toNat
  let s1 :=
    if x.opcode = 0x10 then undoLoad x.target.toNat s
    else if x.opcode = 0x12 then
      ctxSet x.target.toNat { c with burnishOpen := false, withheld := c.withheld.filter (fun w => x.todo.contains (w.1, w.2.1)) }
        { s with sec := { s.sec with scrubKey := 0 } }
    else s
  endOp j .cancelled stCancelled 0 0 s1

/-- What a command for a long operation comes to: its status and the state; none where a SUSPEND waits (R183). -/
def opCmd (j : Nat) (op : Nat) (s : State) : Option (Nat × State) :=
  let x := opGet s j
  match op with
  | 0x05 => some (stOk, s)
  | 0x02 =>
    if x.st = .running then
      if x.binding && x.opcode = 0x10 then none
      else some (stOk, putOp j .other (opSet j { x with st := .suspended } s))
    else some (if x.st = .suspended then stAlready else stState, s)
  | 0x03 => if x.st = .suspended then some (stOk, opSet j { x with st := .running } s) else some (stState, s)
  | 0x04 =>
    if x.isOpen then some (stOk, cancelOp j s)
    else some (if x.st = .cancelled then stAlready else stState, s)
  | _ => some (stState, s)

/-- A command of queue pair `n` for a long operation. A RESUME with CLAIM_REQ finds no credential (R155). -/
def opCmdFrom (j n : Nat) (e : BitVec 512) (s : State) : State :=
  let x := opGet s j
  let h := x.handle j
  if cmdByte e 0 = 0x03 && cmdByte e 1 = 1 && x.st = .suspended then
    answer n e stPerm 0 h [] (count 2607 (trace 0x28 (uCore 7) (x.ctx.toNat + 65536 * 6) 0 s))
  else
    match opCmd j (cmdByte e 0) s with
    | some (st, s1) => answer n e st 0 h (if cmdByte e 0 = 0x05 then queryOp x else []) s1
    | none => opSet j { x with cmds := x.cmds ++ [(n, e)] } s

/-- A handle command of queue pair `n`: format, handle, then the target's state (R145, R17). -/
def handleCmd (n : Nat) (e : BitVec 512) (s : State) : State :=
  if !cmdFormat e then answer n e stFormat 0 0 [] s
  else
    match targetOf s (some (qpGet s n).ctx) (cmdField e 8 8) with
    | .stream i => streamCmdSoon i n e s
    | .longOp j => opCmdFrom j n e s
    | .rejected st => answer n e st 0 0 [] s

end Sys2Proof.Machine
end

