-- ==== Sys2Proof/Machine/Eval.lean ====
section
/-!
DEFINITION. Machine/Eval.lean: what each stitch computes over its whole pier set (03_stitch_programs.md, R88 to R104).
-/
namespace Sys2Proof.Machine

/-- What running a stitch comes to. -/
inductive Ev where
  /-- Complete: the lanes that took an exception, those that found no candidate, and the state. -/
  | done (lanes noCand : W16) (s : State)
  /-- A run-ending exception at a pier (Table 3-7). -/
  | fault (code pier : Nat) (s : State)
  /-- Not complete yet. -/
  | wait (s : State)

/-- Counts out-of-domain inputs on a pier (R72). -/
def oodAt (p n : Nat) (s : State) : State := countN (4 * p + 2) n s
def ood (f : FnId) (x : W32) : Nat := b2n (outOfDomain f x)

/-- The roles of a set in the order their shares run: on each pier its own role first, then the roles it has taken over
(R110). -/
def Env.ordered (e : Env) (roles : List Nat) : List Nat :=
  roles.filter (fun r => e.actual r = r) ++ roles.filter (fun r => e.actual r ≠ r)

/-- The reads of operands, each access with its effects, and the first role whose lines delivered poison. -/
def readOperands (e : Env) (ds : List TDesc) (s : State) : Option Nat × State :=
  ds.foldl (fun (acc : Option Nat × State) d =>
    if d.kind = 3 then
      let (bad, s) := accessSlot e d acc.2
      (acc.1.orElse (fun _ => if bad then some d.pierFirst else none), s)
    else d.piers.foldl (fun (acc : Option Nat × State) r =>
      let (bad, s) := accessLines e r (partLines e d r acc.2) acc.2
      (acc.1.orElse (fun _ => if bad then some r else none), s)) acc) (none, s)

/-- The first role at which a skive-coded operand's stream stops (R63). -/
def skiveStop (e : Env) (ds : List TDesc) (s : State) : Option Nat :=
  ds.findSome? (fun d => if d.isSkive then d.piers.find? (fun r => (skiveRows e d r s (partRowCount d) 0).isNone) else none)

/-- The pier holds the codebook of an LC12 tensor for a role. -/
def holdsCodebook (e : Env) (d : TDesc) (role : Nat) (s : State) : Bool :=
  (tget (fun _ => {}) s.piers.piers (e.actual role) : PierSt).codebook = some (e.run.ctx, d.codebook, role)

/-- Loads the codebook of an LC12 tensor into a role's pier (R108). -/
def loadCodebook (e : Env) (d : TDesc) (role : Nat) (s : State) : State :=
  let p := e.actual role
  if d.dtype ≠ 8 || holdsCodebook e d role s then s
  else
    let b := engineBytes s p (e.localOf 0 role d.codebook) e.run.ctx 16384
    let ps : PierSt := { (tget (fun _ => {}) s.piers.piers p : PierSt) with codebook := some (e.run.ctx, d.codebook, role) }
    let sc := msetN s.store.scratch (p * 524288 + 0x7C000) b
    let pt := tset (fun _ => {}) s.piers.piers p ps
    { s with store := { s.store with scratch := sc }, piers := { s.piers with piers := pt } }

/-- Codebooks that LC12 operands need and their piers do not hold are loaded first (R108): the load waits while an LC12
step stands at the array (R56), and a poisoned line of the codebook ends the run (R128). -/
def withCodebooks (e : Env) (ds : List TDesc) (s : State) (k : State → Ev) : Ev :=
  let jobs := (ds.filter (·.dtype = 8)).flatMap (fun d => (e.ordered d.piers).map (fun r => (d, r)))
  let ev := jobs.foldl (fun (ev : Ev) (d, r) =>
    match ev with
    | .done l c s =>
      let p := e.actual r
      if holdsCodebook e d r s then .done l c s
      else if (tget (fun _ => {}) s.piers.piers p : PierSt).held.any (fun w => w.fmt = .lc12) then .wait s
      else
        let (bad, s1) := accessLines e r (linesOf (e.localOf 0 r d.codebook) 16384) s
        if bad then .fault 2 p s1 else .done l c (loadCodebook e d r s1)
    | ev => ev) (.done 0 0 s)
  match ev with
  | .done _ _ s => k s
  | ev => ev

/-- Operands are read before a stitch computes: a poisoned line ends the run, as does a skive stream that stops
(R63, R87, R128, R130); codebooks are in place. -/
def gate (e : Env) (ds : List TDesc) (s : State) (k : State → Ev) : Ev :=
  withCodebooks e ds s fun s =>
    match readOperands e ds s with
    | (some r, s1) => .fault 2 (e.actual r) s1
    | (none, s1) =>
      match skiveStop e ds s1 with
      | some r => .fault 1 (e.actual r) s1
      | none => k s1

/-- A tensor as one pier of its set writes it: its own copy alone. -/
def ownCopy (d : TDesc) : TDesc := if d.replicated then { d with flags := d.flags - 8 + 16 } else d

/-- A tensor as the mover delivers it: to every pier that holds one (R97, R99, R100). -/
def allCopies (d : TDesc) : TDesc := if d.isPartial then { d with flags := d.flags - 16 + 8 } else d

/-- The role holds an index of the tensor. -/
def holdsIdx (d : TDesc) (role : Nat) (idx : List Nat) : Bool := !d.pierLocal || ownerOf d role idx = role

/-- A role writes an FP32 result where it holds it. -/
def writeOwn (e : Env) (d : TDesc) (role : Nat) (idx : List Nat) (acc : Bool) (v : W32) (s : State) : State :=
  if holdsIdx d role idx then writeF32 e (ownCopy d) role idx acc v s else s

/-- The lane mask word MASK[EXPERT] as the stitch's first pier holds it; all lanes where there is no MASK (R90, R104). -/
def laneMask (e : Env) (mask expert : Nat) (s : State) : W32 :=
  match e.prog.desc mask with
  | none => 0xFFFFFFFF
  | some d => readInt e d d.pierFirst [expert] s

/-! ### MATVEC and MATMUL (R88 to R90) -/

/-- Rows of a role's share of a weight tensor. -/
def shareRows (d : TDesc) : Nat := if d.sharded && d.shardDim = 1 then d.dim 1 / d.pierCount else d.dim 1

/-- Row `i` of a role's share of a tensor [K, N] (R82, R90): a pier-local part is stored by itself; of a tensor that lies in
one region, a shard takes its rows, or its columns of every row. -/
def shareRow (e : Env) (d : TDesc) (role i : Nat) (s : State) : List Block32 :=
  let part := role - d.pierFirst
  let whole := d.sharded && !d.pierLocal
  let row := if whole && d.shardDim = 1 then part * shareRows d + i else i
  let blocks := rowBlocks e d role [0, row] s
  let n := d.dim 0 / d.pierCount / 32
  if whole && d.cutRow then (blocks.drop (part * n)).take n else blocks

/-- One result: the row's accumulation, then the bias (R89). -/
def rowResult (w a : List Block32) (bias : Option W32) : W32 :=
  let acc := accumulate 0 w a
  match bias with
  | some b => fadd acc b
  | none => acc

/-- The share of one role: its rows against every computed column. -/
def matmulRole (e : Env) (st : Stitch) (w x dst : TDesc) (bias : Option TDesc) (cols : List Nat) (role : Nat) (s : State) :
    State :=
  let s := loadCodebook e w role s
  let rows := shareRows w
  let n0 := if w.sharded && w.shardDim = 1 then (role - w.pierFirst) * rows else 0
  let ws := (List.range rows).map (fun i => shareRow e w role i s)
  let xs := cols.map (fun m => (m, shareRow e x role m s))
  let k := if w.cutRow then w.dim 0 / w.pierCount else w.dim 0
  countN (4 * e.actual role) (rows * ((k + 63) / 64) * ((cols.length + 15) / 16))
    (foldS ws.zipIdx (fun (row, i) s =>
      foldS xs (fun (m, col) s =>
        let b := bias.map (fun d => readF32 e d role [n0 + i] s)
        writeOwn e dst role [n0 + i, m] st.acc (rowResult row col b) s) s) s)

/-- MATVEC and MATMUL. MASK has a bit for each of the sixteen lanes; column m of a tile of 16 runs in lane m mod 16 (R89), so
bit m mod 16 governs it (DEDUCED, notes/assumptions/85.md). -/
def evalMatmul (e : Env) (st : Stitch) (s : State) : Ev :=
  match e.prog.desc st.src0, e.prog.desc st.src1, e.prog.desc st.dst with
  | some w, some x, some dst =>
    gate e (e.prog.desc (st.op 128 12)).toList s fun s =>
    let mask := laneMask e (st.op 128 12) (st.op 140 10) s
    let cols := (List.range (x.dim 1)).filter (fun m => mask.getLsbD (m % 16))
    if cols.isEmpty then .done 0 0 s
    else
      let bias := e.prog.desc st.src2
      gate e ([w, x] ++ bias.toList) s fun s =>
        .done 0 0 (foldS (e.ordered w.piers) (fun role s => matmulRole e st w x dst bias cols role s) s)
  | _, _, _ => .wait s

/-! ### ATTEND (R91 to R93) -/

/-- Attended positions of a unit of length `len`. -/
def attended (len window : Nat) : List Nat :=
  if window = 0 || len ≤ window then List.range len else (List.range window).map (fun i => len - window + i)

/-- Softmax numerators, their sum and the largest score (R92 step 3). -/
def softmaxOf (scores : List W32) : W32 × List W32 × W32 :=
  match scores with
  | [] => (0, [], 0)
  | a :: rest =>
    let m := rest.foldl fmax a
    let ps := scores.map (fun x => approxFn .exp (fsub x m))
    (m, ps, inPierSum ps)

/-- Out-of-domain inputs of one head: the exponentials and the reciprocal. -/
def softmaxOod (scores : List W32) : Nat :=
  let (m, _, sum) := softmaxOf scores
  (scores.map (fun x => ood .exp (fsub x m))).sum + (if scores.isEmpty then 0 else ood .recip sum)

/-- Output element from the numerators and one coordinate of each value (R92 step 4). -/
def attendOut (ps vs : List W32) (sum : W32) : W32 :=
  fmul ((List.zip ps vs).foldl (fun acc (p, v) => ffma p v acc) 0) (approxFn .recip sum)

/-- One unit on one role's pier: positions of the page list, or KV_ABSENT. In SPLIT every pier's list starts at position 0,
and its part is the attended positions that the list reaches (DESIGN CHOICE, notes/assumptions/86.md). -/
def attendUnit (e : Env) (st : Stitch) (q kv len dst : TDesc) (stats : Option TDesc) (role : Nat) (unit : List Nat)
    (s : State) : Ev :=
  let split := st.variant = 1
  let j := (kvUnit kv role unit).2
  let l := (readInt e len role (bcast len (0 :: unit)) s).toInt.toNat
  let (headBad, s) := accessLines e role (kvHeadLines e kv role j) s
  let (listLen, _) := kvList e kv role j s
  let ts := (attended l (st.op 144 16)).filter (fun t => !split || t / 256 < listLen)
  let (listBad, s) := accessLines e role (kvEntryLines e kv role j ts s) s
  let frames := ts.map (fun t => kvFrame e kv role j t s)
  if headBad || listBad then .fault 2 (e.actual role) s
  else if frames.any (·.isNone) then .fault 7 (e.actual role) s
  else
    let fs := List.zip ts (frames.map (·.getD 0))
    let lines := (fs.flatMap (fun (t, f) => [false, true].flatMap (fun v =>
      linesOf (kvAddr kv f t v) (kvBytes kv.wide (kv.dim 0))))).eraseDups
    let (bad, s) := accessLines e role lines s
    if bad then .fault 2 (e.actual role) s
    else
      let keys := fs.map (fun (t, f) => kvVector e kv role f t false s)
      let vals := fs.map (fun (t, f) =>
        (kvVector e kv role f t true s).flatMap (fun (b : Block32) => b.elems.map (fun (x : Fp) => toF32 (x.mul b.scale))))
      let scale := BitVec.ofNat 32 (st.op 160 32)
      let heads := st.op 128 8
      .done 0 0 (foldS (List.range heads) (fun h s =>
        let qs := (List.range (q.dim 0)).map (fun i => readF32 e q role ([i, h] ++ unit) s)
        let qb := (List.range (q.dim 0 / 32)).map (fun g =>
          let (sc, el) := quantBlock .e4m3 ((qs.drop (32 * g)).take 32)
          (⟨ofE8m0 sc, el.map ofE4m3⟩ : Block32))
        let scores := keys.map (fun k => fmul (accumulate 0 k qb) scale)
        let (m, ps, sum) := softmaxOf scores
        let (n, s) := drawFree s
        let m := if scores.isEmpty then Config.freeWord n else m
        let s := foldS (List.range (dst.dim 0)) (fun i s =>
          let o := if scores.isEmpty then 0 else attendOut ps (vals.map (fun v => v.getD i 0)) sum
          writeOwn e dst role ([i, h] ++ unit) st.acc o s) s
        let s := match stats with
          | some sd => writeOwn e sd role ([1, h] ++ unit) false sum (writeOwn e sd role ([0, h] ++ unit) false m s)
          | none => s
        oodAt (e.actual role) (softmaxOod scores) s) s)

/-- The unit belongs to a lane that runs masked (R158): the lane is the last dimension of a class 5 tensor. -/
def masked (e : Env) (kv : TDesc) (unit : List Nat) : Bool :=
  kv.kind = 4 && !e.run.lanes.getLsbD (unit.getD (kv.rank - 2) 0)

/-- Goes on with the next part while the stitch has not ended. -/
def Ev.andThen (ev : Ev) (f : State → Ev) : Ev :=
  match ev with
  | .done l c s =>
    match f s with
    | .done l2 c2 s2 => .done (l ||| l2) (c ||| c2) s2
    | x => x
  | x => x

/-- ATTEND: each pier of the set takes the units whose page lists it holds. -/
def evalAttend (e : Env) (st : Stitch) (s : State) : Ev :=
  match e.prog.desc st.src0, e.prog.desc st.src1, e.prog.desc st.src2, e.prog.desc st.dst with
  | some q, some kv, some len, some dst =>
    let stats := if st.variant = 1 then e.prog.desc (st.op 192 12) else none
    let units := (kvUnits kv).filter (fun u => !masked e kv u)
    gate e [q, len] s fun s =>
      (e.ordered dst.piers).foldl (fun ev role =>
        (units.filter (fun u => (unitRoles kv u).contains role)).foldl
          (fun ev u => ev.andThen (attendUnit e st q kv len dst stats role u)) ev) (.done 0 0 s)
  | _, _, _, _ => .wait s

/-! ### NORM (R94) -/

/-- The FP32 value nearest to 1/n. -/
def nearestInv (n : Nat) : W32 :=
  toF32 (.fin false (2 * (2 ^ 80 / n) + b2n (2 ^ 80 % n ≠ 0)) (-81))

/-- One row: results and the argument of RSQRT. -/
def normRow (layer : Bool) (xs gain : List W32) (bias : Option (List W32)) (eps : W32) : List W32 × W32 :=
  let c := nearestInv xs.length
  let ds := if layer then
      let mu := fmul (inPierSum xs) c
      xs.map (fun x => fsub x mu)
    else xs
  let arg := fadd (fmul (inPierSum (ds.map (fun x => fmul x x))) c) eps
  let r := approxFn .rsqrt arg
  let ys := List.zipWith (fun x g => fmul (fmul x r) g) ds gain
  match bias with
  | some b => (List.zipWith fadd ys b, arg)
  | none => (ys, arg)

/-- NORM: each pier of DST's set computes the rows it holds. -/
def evalNorm (e : Env) (st : Stitch) (s : State) : Ev :=
  match e.prog.desc st.src0, e.prog.desc st.src1, e.prog.desc st.dst with
  | some x, some g, some dst =>
    let bias := if st.variant = 1 then e.prog.desc st.src2 else none
    gate e ([x, g] ++ bias.toList) s fun s =>
      let n := x.dim 0
      let eps := BitVec.ofNat 32 (st.op 128 32)
      let vec := fun (d : TDesc) p => (List.range n).map (fun i => readF32 e d p [i] s)
      .done 0 0 (foldS (e.ordered dst.piers) (fun p s1 =>
        let rows := ((rowIdx x).filter (holdsIdx dst p)).map (fun r =>
          (r, normRow (st.variant = 1) ((List.range n).map (fun i => readF32 e x p (i :: r.drop 1) s)) (vec g p)
            (bias.map (fun d => vec d p)) eps))
        let out := fun (idx : List Nat) =>
          (rows.find? (fun r => r.1.drop 1 = idx.drop 1)).map (fun r => r.2.1.getD (idx.getD 0 0) 0)
        foldS rows (fun (_, _, arg) s1 => oodAt (e.actual p) (ood .rsqrt arg) s1)
          (writeAll e (ownCopy dst) p st.acc out s1)) s)
  | _, _, _ => .wait s

/-! ### ELEM (R95) -/

/-- Function number of FUNC 10h to 16h. -/
def fnOf (func : Nat) : FnId :=
  match func with
  | 0x10 => .exp | 0x11 => .exp2 | 0x12 => .recip | 0x13 => .rsqrt | 0x14 => .silu | 0x15 => .gelu | _ => .log

/-- Weight of an expert for a lane in a ROUTE_PAIR tensor [K, M]. -/
def routeWeight (e : Env) (d : TDesc) (pier expert lane : Nat) (s : State) : Option W32 :=
  (List.range (d.dim 0)).findSome? (fun k =>
    let b := readDense e d pier [k, lane] s
    if leNat (b.take 4) = expert then some (le32 (b.drop 4)) else none)

/-- Index of the position that ROPE takes for an index of DST: the position tensor's dimensions above 0 match the last ones
of DST (Table 3-15: positions [1, 4, 16] for DST [128, 5, 4, 16]). -/
def ropeIdx (dst ps : TDesc) (idx : List Nat) : List Nat := bcast ps (0 :: idx.drop (dst.rank - ps.rank + 1))

/-- The result at an index; none where DST is unchanged: a lane without the expert, and a ROPE position out of range, which
leaves the vector of DST as it is (DEDUCED, notes/assumptions/87.md). -/
def elemValue (e : Env) (st : Stitch) (pier : Nat) (a : TDesc) (b c : Option TDesc) (dst : TDesc) (idx : List Nat)
    (s : State) : Option W32 :=
  let x := readF32 e a pier (bcast a idx) s
  let y := match b with
    | some d => if d.dtype = 0xC || d.dtype = 0xB then 0 else readF32 e d pier (bcast d idx) s
    | none => 0
  let z := match c with
    | some d => if d.dtype = 0xB then 0 else readF32 e d pier (bcast d idx) s
    | none => 0
  match st.op 128 8 with
  | 0 => some (toF32 (ofF32 x))
  | 1 => some (fadd x y)
  | 2 => some (fsub x y)
  | 3 => some (fmul x y)
  | 4 => some (ffma x y z)
  | 5 => some (fmax x y)
  | 6 => some (fmin x y)
  | 7 => some (fmul x (BitVec.ofNat 32 (st.op 160 32)))
  | 0x20 => some (fmul (approxFn .silu x) y)
  | 0x21 => some (fmul (approxFn .gelu x) y)
  | 0x22 =>
    match b with
    | some d => (routeWeight e d pier (st.op 192 10) (laneOf dst idx) s).map (fun w => ffma x w (readF32 e dst pier idx s))
    | none => none
  | 0x30 =>
    match b, c with
    | some t, some ps =>
      let p := (readInt e ps pier (ropeIdx dst ps idx) s).toInt
      let h := a.dim 0 / 2
      let i := idx.getD 0 0
      if p < 0 ∨ (t.dim 1 : Int) ≤ p then none
      else
        let k := i % h
        let cos := readF32 e t pier [k, p.toNat] s
        let sin := readF32 e t pier [h + k, p.toNat] s
        let lo := readF32 e a pier (k :: idx.drop 1) s
        let hi := readF32 e a pier ((h + k) :: idx.drop 1) s
        if i < h then some (ffma lo cos (fneg (fmul hi sin))) else some (ffma hi cos (fmul lo sin))
    | _, _ => none
  | f => if 0x10 ≤ f && f ≤ 0x16 then some (approxFn (fnOf f) x) else none

/-- Out-of-domain inputs of one ELEM element. -/
def elemOod (e : Env) (st : Stitch) (pier : Nat) (a : TDesc) (idx : List Nat) (s : State) : Nat :=
  let f := st.op 128 8
  let x := readF32 e a pier (bcast a idx) s
  if 0x10 ≤ f && f ≤ 0x16 then ood (fnOf f) x
  else if f = 0x20 then ood .silu x
  else if f = 0x21 then ood .gelu x
  else 0

/-- Piers that compute an element of DST. -/
def computePiers (d : TDesc) (idx : List Nat) : List Nat :=
  if d.replicated || d.isPartial then d.piers else [ownerOf d d.pierFirst idx]

/-- Lanes whose ROPE position lies outside the table. -/
def ropeRange (e : Env) (st : Stitch) (dst : TDesc) (s : State) : W16 :=
  if st.op 128 8 ≠ 0x30 then 0
  else
    match e.prog.desc st.src1, e.prog.desc st.src2 with
    | some t, some ps =>
      (rowIdx dst).foldl (fun l idx =>
        let p := (readInt e ps (ownerOf dst dst.pierFirst idx) (ropeIdx dst ps idx) s).toInt
        if p < 0 ∨ (t.dim 1 : Int) ≤ p then l ||| laneBit (laneOf dst idx) else l) 0
    | _, _ => 0

/-- ELEM: every element is computed from the operands before DST changes. -/
def evalElem (e : Env) (st : Stitch) (s : State) : Ev :=
  match e.prog.desc st.src0, e.prog.desc st.dst with
  | some a, some dst =>
    let b := e.prog.desc st.src1
    let c := e.prog.desc st.src2
    gate e ([a] ++ b.toList ++ c.toList) s fun s =>
      let roles := if dst.replicated || dst.isPartial then dst.piers else [dst.pierFirst]
      let raw := st.op 128 8 = 0 && a.dtype = dst.dtype && !dst.isStream && 1 < dst.dtype
      let s1 := foldS roles (fun p s1 =>
        let at_ := fun idx => ownerOf dst p idx
        let one := ownCopy dst
        if raw then
          foldS (allIdx dst) (fun i s1 => writeDense e one p i (readDense e a (at_ i) (bcast a i) s) s1) s1
        else writeAll e one p st.acc (fun i => elemValue e st (at_ i) a b c dst i s) s1) s
      let s2 := foldS (allIdx dst) (fun i s2 => foldS (computePiers dst i) (fun p s2 =>
        oodAt (e.actual p) (elemOod e st p a i s) s2) s2) s1
      let bad := ropeRange e st dst s
      .done bad 0 s2
  | _, _ => .wait s

/-! ### REDUCE (R96) -/

/-- The arrival order over a set: the operand's order, then the piers it leaves out. -/
def arrivalOf (d : TDesc) (arrival : List Nat) : List Nat :=
  let given := (arrival.filter (· < d.pierCount)).eraseDups
  (given ++ (List.range d.pierCount).filter (fun k => !given.contains k)).map (d.pierFirst + ·)

/-- The sum of partial values in the order they arrive; a NaN is canonical (R48, R52). -/
def combineSum (vs : List W32) : W32 :=
  match vs with
  | [] => 0
  | v :: rest => rest.foldl fadd (toF32 (ofF32 v))

/-- The largest of partial values given in ascending pier order: among equal values, -0 and +0 too, the lower index wins
(R73), whatever the order of arrival (DEDUCED, notes/assumptions/83.md). -/
def combineMax (vs : List W32) : W32 :=
  match vs with
  | [] => 0
  | v :: rest => rest.foldl fmax (toF32 (ofF32 v))

/-- Weights of LSE_MERGE (R96 step 2). -/
def lseWeights (ms sigmas : List W32) : List W32 :=
  let m := combineMax ms
  List.zipWith (fun a b => fmul (approxFn .exp (fsub a m)) b) ms sigmas

/-- LSE_MERGE of one element: weights and their sum from the STATS pairs of the element's unit. -/
def lseMerge (ms sigmas os : List W32) (sum : W32) : W32 :=
  fmul (combineSum (List.zipWith fmul (lseWeights ms sigmas) os)) (approxFn .recip sum)

/-- REDUCE. Each pier that keeps results combines the partial values in an order of its own for each element. -/
def evalReduce (e : Env) (st : Stitch) (arrival : List (List Nat)) (s : State) : Ev :=
  match e.prog.desc st.src0, e.prog.desc st.dst with
  | some a, some dst =>
    let stats := if st.variant = 2 then e.prog.desc st.src1 else none
    gate e ([a] ++ stats.toList) s fun s =>
      .done 0 0 (foldS (e.ordered dst.piers) (fun role s1 =>
        let order := fun (idx : List Nat) => arrivalOf a (arrival.getD ((role - dst.pierFirst) * dst.total + flat dst.dims idx) [])
        let ms := fun t idx => (order idx).map (fun p => readF32 e t p (0 :: idx.drop 1) s)
        let sigmas := fun t idx => (order idx).map (fun p => readF32 e t p (1 :: idx.drop 1) s)
        let sum := fun t idx => combineSum (lseWeights (ms t (0 :: idx.drop 1)) (sigmas t (0 :: idx.drop 1)))
        let out := fun (idx : List Nat) =>
          if !holdsIdx dst role idx then none
          else match stats with
            | some t => some (lseMerge (ms t idx) (sigmas t idx) ((order idx).map (fun p => readF32 e a p idx s)) (sum t idx))
            | none =>
              if st.variant = 1 then some (combineMax (a.piers.map (fun p => readF32 e a p idx s)))
              else some (combineSum ((order idx).map (fun p => readF32 e a p idx s)))
        let s2 := writeAll e (ownCopy dst) role st.acc out s1
        match stats with
        | some t => foldS ((rowIdx dst).filter (holdsIdx dst role)) (fun idx s2 =>
            let l := ms t idx
            oodAt (e.actual role) ((l.map (fun x => ood .exp (fsub x (combineMax l)))).sum + ood .recip (sum t idx)) s2) s2
        | none => s2) s)
  | _, _ => .wait s

/-! ### ROUTE and SAMPLE (R97, R98) -/

/-- Softmax weights of candidates (expert, logit), summed in ascending expert order. -/
def routeSoftmax (cs : List (Nat × W32)) : List (Nat × W32) :=
  let m := ((ranked cs).map (·.2)).headD 0
  let es := (byId cs).map (fun c => (c.1, approxFn .exp (fsub c.2 m)))
  let inv := approxFn .recip (inPierSum (es.map (·.2)))
  es.map (fun c => (c.1, fmul c.2 inv))

/-- The chosen experts and weights of one lane, in descending weight order. -/
def routeLane (variant k : Nat) (logits : List (Nat × W32)) : List (Nat × W32) :=
  let live := logits.filter (fun c => !(ofF32 c.2).isNan)
  if variant = 0 then (ranked (routeSoftmax live)).take k else ranked (routeSoftmax ((ranked live).take k))

/-- Exponentials of a lane outside the domain. -/
def routeOod (variant k : Nat) (logits : List (Nat × W32)) : Nat :=
  let live := ranked (logits.filter (fun c => !(ofF32 c.2).isNan))
  let used := if variant = 0 then live else live.take k
  (used.map (fun c => ood .exp (fsub c.2 ((live.map (·.2)).headD 0)))).sum

/-- ROUTE: pairs beyond the candidates a lane has are FFFFFFFFh where it has none, and free otherwise. -/
def evalRoute (e : Env) (st : Stitch) (s : State) : Ev :=
  match e.prog.desc st.src0, e.prog.desc st.dst, e.prog.desc (st.op 144 12) with
  | some a, some dst, some mask =>
    gate e [a] s fun s =>
      let k := st.op 128 5
      let lanes := List.range (a.dim 1)
      let logits := fun m => (List.range (a.dim 0)).map (fun x => (x, readF32 e a a.pierFirst [x, m] s))
      let picks := lanes.map (fun m => (m, routeLane st.variant k (logits m)))
      let (n, s1) := drawFree s
      let s2 := foldS picks (fun (m, ps) s2 => foldS (List.range k) (fun i s2 =>
        let b := match ps[i]? with
          | some (x, w) => leBytes 4 x ++ leBytes 4 w.toNat
          | none => (if ps.isEmpty then leBytes 4 0xFFFFFFFF else leBytes 4 (Config.freeWordAt n (32 * m + 2 * i)).toNat)
              ++ leBytes 4 (Config.freeWordAt n (32 * m + 2 * i + 1)).toNat
        writeDense e (allCopies dst) dst.pierFirst [i, m] b s2) s2) s1
      let s3 := foldS (List.range (mask.dim 0)) (fun x s3 =>
        let w := picks.foldl (fun v (m, ps) => if ps.any (fun p => p.1 = x) then withBit v m else v) (0 : W32)
        writeDense e (allCopies mask) mask.pierFirst [x] (leBytes 4 w.toNat) s3) s2
      let s4 := oodAt (e.actual a.pierFirst) ((lanes.map (fun m => routeOod st.variant k (logits m))).sum) s3
      let bad := picks.foldl (fun l (m, ps) => if ps.isEmpty then l ||| laneBit m else l) (0 : W16)
      .done bad bad s4
  | _, _, _ => .wait s

/-- A sampling record (Table 3-12). -/
def sampleRec (b : List Byte) : SampleRec :=
  { seed := le64 b, position := le64 (b.drop 8), temp := le32 (b.drop 16), topP := le32 (b.drop 20)
    minP := le32 (b.drop 24), repPen := le32 (b.drop 28), topK := le16 (b.drop 32), penCount := le16 (b.drop 34) }

/-- Fields within Table 3-12. -/
def SampleRec.ok (r : SampleRec) : Bool :=
  let v := fun w => ofF32 w
  let within := fun (x lo hi : Fp) => !x.isNan && !x.lt lo && !hi.lt x
  let one := Fp.fin false 1 0
  ((v r.temp).isFinite && !(v r.temp).positive && !(v r.temp).lt (.fin false 0 0) ||
    within (v r.temp) (.fin false 1 (-16)) (.fin false 64 0)) &&
  ((v r.topP).positive && !one.lt (v r.topP)) &&
  (within (v r.minP) (.fin false 0 0) one && (v r.minP).lt one) &&
  within (v r.repPen) (.fin false 1 (-4)) (.fin false 16 0) && r.penCount.toNat ≤ 4096

/-- One lane of SAMPLE: the token, or the exception. -/
def evalSampleLane (e : Env) (a rec : TDesc) (pen : Option TDesc) (pier m : Nat) (s : State) : (Nat ⊕ Nat) × Nat :=
  let r := sampleRec (readDense e rec pier [0, m] s)
  if !r.ok then (.inr 0x12, 0)
  else
    let v := a.dim 0
    let logits := (List.range v).map (fun i => (i, readF32 e a (ownerOf a pier [i, m]) [i, m] s))
    let ids := match pen with
      | some d => ((List.range r.penCount.toNat).map (fun i => (readInt e d pier [i, m] s).toNat)).filter (· < v)
      | none => []
    match sampleLane r logits ids with
    | some t => (.inl t, sampleOod r logits ids)
    | none => (.inr 0x10, 0)

/-- SAMPLE: the combining pier is the first of SRC0's set. -/
def evalSample (e : Env) (st : Stitch) (s : State) : Ev :=
  match e.prog.desc st.src0, e.prog.desc st.src1, e.prog.desc st.dst with
  | some a, some rec, some dst =>
    let pen := e.prog.desc st.src2
    gate e ([a, rec] ++ pen.toList) s fun s =>
      let res := (List.range (a.dim 1)).map (fun m => (m, evalSampleLane e a rec pen a.pierFirst m s))
      let s1 := foldS res (fun (m, r, n) s1 =>
        let t := match r with
          | .inl t => t
          | .inr _ => 0xFFFFFFFF
        oodAt (e.actual a.pierFirst) n (writeDense e dst a.pierFirst [0, m] (leBytes 4 t) s1)) s
      let exc := res.filterMap (fun (m, r, _) => match r with
        | .inr c => some (m, c)
        | .inl _ => none)
      .done (exc.foldl (fun l x => l ||| laneBit x.1) 0) ((exc.filter (fun x => x.2 = 0x10)).foldl (fun l x => l ||| laneBit x.1) 0) s1
  | _, _, _ => .wait s

/-! ### GATHER and SCATTER (R99, R100) -/

/-- Moves `n` elements from a source index to a destination index, both at the start of a block of their types: copied
unchanged between equal types, converted at the destination otherwise (R99); ACC adds to what DST held (R83). -/
def moveRun (e : Env) (a dst : TDesc) (acc : Bool) (src tgt : Nat → List Nat) (n : Nat) (old : State) (s : State) : State :=
  let d := allCopies dst
  let val := fun j => readF32 e a a.pierFirst (src j) old
  let sum := fun j => if acc then fadd (readF32 e dst dst.pierFirst (tgt j) old) (val j) else val j
  if a.dtype = dst.dtype && dst.dtype = 8 then
    foldS (List.range (n / 128)) (fun g s =>
      writeLc12Part e d d.pierFirst (tgt (128 * g)) (lc12Part e a a.pierFirst (src (128 * g)) old) s) s
  else if a.dtype = dst.dtype && dst.isStream then
    foldS (List.range (n / 32)) (fun g s =>
      let i := src (32 * g)
      let blk := (rawRow e a (ownerOf a a.pierFirst i) (placeIdx a i) old).getD ((placeIdx a i).getD 0 0 / 32) (0, [])
      writeRaw e d d.pierFirst (tgt (32 * g)) blk s) s
  else if isAct dst.dtype then
    foldS (List.range (n / 32)) (fun g s =>
      writeRaw e d d.pierFirst (tgt (32 * g)) (quantBlock (afmtOf dst.dtype) ((List.range 32).map (fun j => val (32 * g + j)))) s) s
  else if a.dtype = dst.dtype && !acc then
    foldS (List.range n) (fun j s => writeDense e d d.pierFirst (tgt j) (readDense e a a.pierFirst (src j) old) s) s
  else foldS (List.range n) (fun j s => writeDense e d d.pierFirst (tgt j) (denseOf dst.dtype (sum j)) s) s

/-- Copies one column (all of dimension 0) from a source index to a destination index. -/
def copyColumn (e : Env) (a dst : TDesc) (acc : Bool) (from_ dest : List Nat) (old : State) (s : State) : State :=
  moveRun e a dst acc (fun j => j :: from_) (fun j => j :: dest) (dst.dim 0) old s

/-- A zero column; ACC adds it. -/
def zeroColumn (e : Env) (dst : TDesc) (acc : Bool) (dest : List Nat) (s : State) : State :=
  let d := allCopies dst
  if dst.dtype = 8 then
    foldS (List.range (dst.dim 0 / 128)) (fun g s => writeLc12Part e d d.pierFirst ((128 * g) :: dest) (List.replicate 49 0) s) s
  else if dst.isStream then
    foldS (List.range (dst.dim 0 / 32)) (fun g s => writeRaw e d d.pierFirst ((32 * g) :: dest) (0, List.replicate 32 0) s) s
  else
    foldS (List.range (dst.dim 0)) (fun i s =>
      let b := if acc then denseOf dst.dtype (fadd (readF32 e dst dst.pierFirst (i :: dest) s) 0) else List.replicate (elemBytes dst.dtype) 0
      writeDense e d d.pierFirst (i :: dest) b s) s

/-- Flat copy between tensors of the same number of elements (COLLECT). Dimension 0 of a stream type is a multiple of its
block (R80), so blocks align. -/
def collect (e : Env) (a dst : TDesc) (acc : Bool) (s : State) : State :=
  moveRun e a dst acc (unflat a.dims) (unflat dst.dims) dst.total s s

/-- Columns of a tensor: index tuples of dimensions 1 and above. -/
def columns (d : TDesc) : Nat := d.total / d.dim 0

/-- GATHER. -/
def evalGather (e : Env) (st : Stitch) (s : State) : Ev :=
  match e.prog.desc st.src0, e.prog.desc st.dst with
  | some a, some dst =>
    if st.variant = 1 then gate e [a] s fun s => .done 0 0 (collect e a dst st.acc s)
    else
      match e.prog.desc st.src1 with
      | none => .wait s
      | some ix =>
        gate e [a, ix] s fun s =>
          let at_ := fun i => (readInt e ix ix.pierFirst (unflat ix.dims i) s).toInt
          let outside := fun i => decide (at_ i < 0 ∨ (columns a : Int) ≤ at_ i)
          let n := List.range (columns dst)
          let s1 := foldS n (fun i t =>
            let dest := unflat (dst.dims.drop 1) i
            if outside i then zeroColumn e dst st.acc dest t
            else copyColumn e a dst st.acc (unflat (a.dims.drop 1) (at_ i).toNat) dest s t) s
          let bad := (n.filter outside).foldl (fun l i => l ||| laneBit i) 0
          .done bad 0 s1
  | _, _ => .wait s

/-- KV_APPEND of one unit on one role's pier: key and value quantised and stored at the unit's position. -/
def appendUnit (e : Env) (k v pos kv : TDesc) (role : Nat) (unit : List Nat) (s : State) : Ev :=
  let j := (kvUnit kv role unit).2
  let p := (readInt e pos role (bcast pos (0 :: unit)) s).toInt
  let (headBad, s) := accessLines e role (kvHeadLines e kv role j) s
  let (listBad, s) := accessLines e role (if p < 0 then [] else kvEntryLines e kv role j [p.toNat] s) s
  let frame := if p < 0 then none else kvFrame e kv role j p.toNat s
  if headBad || listBad then .fault 2 (e.actual role) s
  else match frame with
  | none => .fault 7 (e.actual role) s
  | some f =>
    let put := fun (src : TDesc) value s =>
      let xs := (List.range (src.dim 0)).map (fun i => readF32 e src role ([i, 0] ++ unit) s)
      let (b, n) := storeKv kv.wide xs
      countN (4 * e.actual role + 1) n
        (engineWrite (e.actual role) (kvAddr kv f p.toNat value) e.run.ctx b s)
    .done 0 0 (put v true (put k false s))

/-- SCATTER. -/
def evalScatter (e : Env) (st : Stitch) (s : State) : Ev :=
  match e.prog.desc st.src0, e.prog.desc st.dst with
  | some a, some dst =>
    if st.variant = 1 then
      gate e [a] s fun s =>
        .done 0 0 (foldS (List.range (columns dst)) (fun i t =>
          copyColumn e a dst st.acc (unflat (a.dims.drop 1) i) (unflat (dst.dims.drop 1) i) s t) s)
    else
      match e.prog.desc st.src1 with
      | none => .wait s
      | some b =>
        if st.variant = 0 then
          gate e [a, b] s fun s =>
            let at_ := fun i => (readInt e b b.pierFirst (unflat b.dims i) s).toInt
            let outside := fun i => decide (at_ i < 0 ∨ (columns dst : Int) ≤ at_ i)
            let n := List.range (columns a)
            let s1 := foldS (n.filter (fun i => !outside i)) (fun i t =>
              copyColumn e a dst st.acc (unflat (a.dims.drop 1) i) (unflat (dst.dims.drop 1) (at_ i).toNat) s t) s
            let bad := (n.filter outside).foldl (fun l i => l ||| laneBit i) 0
            .done bad 0 s1
        else
          match e.prog.desc st.src2 with
          | none => .wait s
          | some pos =>
            gate e [a, b, pos] s fun s =>
              let jobs := ((kvUnits dst).filter (fun u => !masked e dst u)).flatMap (fun u =>
                (e.ordered (unitRoles dst u)).map (fun r => (u, r)))
              jobs.foldl (fun ev (u, r) => ev.andThen (appendUnit e a b pos dst r u)) (.done 0 0 s)
  | _, _ => .wait s

end Sys2Proof.Machine
end

