-- ==== Sys2Proof/Machine/Runs.lean ====
section
/-!
DEFINITION. Machine/Runs.lean: runs of bound programs: which stitch may start, the thirteen operations as commands, HALT
and timeouts, the end of a raw run, and a line read by a pier (03_stitch_programs.md R85 to R106, R112; R128).
-/
namespace Sys2Proof.Machine

/-! ### Stitches of a run -/

/-- A run's operands; descriptors of ARENA offsets behind a partner window are marked. -/
def envOf (s : State) (r : Run) : Option Env :=
  let mark := fun (v : BitVec 512) =>
    if fld v 56 8 = 1 && (windowOf s r.ctx (fld v 64 64)).isSome then
      v ^^^ BitVec.ofNat 512 ((1 ^^^ kindWindow) * 2 ^ 56)
    else v
  (modelOf s r.ctx).bind (fun m => (m.programs[r.prog]?).map (fun p =>
    { run := r, prog := { p with descs := p.descs.map mark }, model := m }))

/-- Bytes an operand's part spans from its first to its last (R85). -/
def extentBytes (d : TDesc) : Nat :=
  let dims := localDims d
  let last := (List.range 4).foldl (fun a i => a + (dims.getD (i + 1) 1 - 1) * d.stride (i + 1)) 0
  last + (if d.isStream then streamRowBytes d (dims.getD 0 1) else dims.getD 0 1 * elemBytes d.dtype)

/-- A run of bytes an operand takes up: the space it lies in and where. -/
structure OperandExtent where
  /-- 0 memory of pier `at_`, 1 scratch of pier `at_`, 2 device memory by DPA, 3 SERVICE class `at_`, 4 partner windows. -/
  space : Nat
  at_ : Nat
  lo : Nat
  len : Nat
deriving DecidableEq, Repr

/-- Extents of an operand on a pier (R85): of a pier-local one the part of every role the pier carries, of any other the whole
tensor. CONST data is never written. -/
def extentsOn (s : State) (e : Env) (d : TDesc) (pier : Nat) : List OperandExtent :=
  let n := extentBytes d
  let len := fun r => if d.isSkive then skiveSpan e d r s (partRowCount d) 0 else n
  let mine := d.piers.filter (fun r => e.actual r = pier)
  match d.kind with
  | 0 | 1 => mine.map (fun r => ⟨0, pier, e.localOf d.kind r d.base, len r⟩)
  | 2 => mine.map (fun r => ⟨1, pier, e.scratch r + d.base, len r⟩)
  | 3 => [⟨2, 0, e.slotDpa (d.base % 16) 0, n⟩]
  | 4 => [⟨3, d.base % 16, 0, n⟩]
  | 6 => [⟨4, 0, d.base, n⟩]
  | _ => []

/-- Two extents share a byte; memory of a pier and a DPA range are compared line by line. -/
def OperandExtent.meets (t : Tbl Region) (a b : OperandExtent) : Bool :=
  let mixed := fun (l d : OperandExtent) => (linesOf l.lo l.len).any (fun x =>
    (dpaOfLocal t l.at_ x).any (fun y => overlaps (y / 64 * 64) 64 d.lo d.len))
  if a.space = b.space then a.at_ = b.at_ && overlaps a.lo a.len b.lo b.len
  else if a.space = 0 && b.space = 2 then mixed a b
  else if a.space = 2 && b.space = 0 then mixed b a
  else false

/-- Two operands of a run overlap on a pier; paged tensors always may. -/
def operandsMeet (s : State) (e : Env) (pier : Nat) (a b : TDesc) : Bool :=
  (a.paged && b.paged) || (extentsOn s e a pier).any (fun x => (extentsOn s e b pier).any (x.meets s.store.regions))

/-- The place of stitch `i` in the list is taken: an ALT stitch's is where its own OFFLOAD's place is and its port was found
down (R106). An OFFLOAD stands before its ALT stitches. -/
def placeTaken (p : Program) (r : Run) : Nat → Nat → Bool
  | 0, i => (p.stitch i).any (fun st => !st.alt)
  | fuel + 1, i =>
    match p.stitch i with
    | none => false
    | some st =>
      if !st.alt then true
      else match (List.range i).find? (fun j => (p.stitch j).any (fun o => o.opcode = 11 && o.op 160 16 ≤ i && i < o.op 160 16 + o.op 176 8)) with
        | some j => placeTaken p r fuel j && ((p.stitch j).any (fun o => r.portsDown.getLsbD (o.op 128 3)))
        | none => false

/-- Skipped by R106: a place not taken, and an OFFLOAD whose port the run found down. -/
def skipped (p : Program) (r : Run) (i : Nat) : Bool :=
  !placeTaken p r i i || (p.stitch i).any (fun st => st.opcode = 11 && r.portsDown.getLsbD (st.op 128 3))

/-- Stitch `i` is still to be done. -/
def Run.openAt (r : Run) (p : Program) (i : Nat) : Bool := !r.completed.contains i && !skipped p r i

/-- An earlier incomplete stitch holds this one back on a pier of both: an engine both use, or an overlap with a write
(R85). -/
def heldBack (s : State) (e : Env) (st : Stitch) (i : Nat) : Bool :=
  let p := e.prog
  (List.range i).any (fun j =>
    e.run.openAt p j &&
      match p.stitch j with
      | none => false
      | some o =>
        let piers := ((st.roles p).map e.actual).filter (((o.roles p).map e.actual).contains ·)
        piers.any (fun q =>
          let meets := fun (xs ys : List TDesc) => xs.any (fun x => ys.any (operandsMeet s e q x))
          st.engines &&& o.engines ≠ 0 || meets (st.writes p) (o.reads p ++ o.writes p) || meets (st.reads p) (o.writes p)))

/-- A BARRIER between stitches `j` and `i` covers two piers (R86). -/
def barrierBetween (e : Env) (j i : Nat) (p q : Nat) : Bool :=
  (List.range i).any (fun k => j < k && (e.prog.stitch k).any (fun b =>
    b.opcode = 12 && ((b.roles e.prog).map e.actual).contains p && ((b.roles e.prog).map e.actual).contains q))

/-- Device memory that stitch `i` may read old, new or mixed on a pier (R86): an earlier stitch of another pier, or a chiplet's
through OFFLOAD, writes it, and no BARRIER covers both piers in between. Each byte then reads as a free value. -/
def fogOf (s : State) (e : Env) (i : Nat) (pier dpa : Nat) : Option Byte :=
  let byDpa : OperandExtent := ⟨2, 0, dpa, 1⟩
  let open_ := (List.range i).any (fun j =>
    placeTaken e.prog e.run j j && (e.prog.stitch j).any (fun o =>
      let from_ := ((o.roles e.prog).map e.actual).filter (· ≠ pier)
      from_.any (fun q => !barrierBetween e j i pier q) &&
        (o.writes e.prog).any (fun d => (d.kind = 3 || (d.kind = 1 && o.opcode = 11)) &&
          (List.range 320).any (fun q => (extentsOn s e d q).any (·.meets s.store.regions byDpa)))))
  if open_ then some (Config.freeByteAt s.freeCtr (2 ^ 20 + pier + 512 * (i + 65536 * e.run.id)) dpa) else none

/-- A raw run starts no further stitch: a command or a suspension waits for its next stitch boundary (R112). -/
def stopped (r : Run) (s : State) : Bool :=
  match r.kind with
  | .raw i => !r.cmds.isEmpty || (streamGet s i).suspNext ≠ 0
  | _ => false

/-- The run, its environment and the stitch, where stitch `i` with `opcode` may start. -/
def startable (id i opcode : Nat) (s : State) : Option (Env × Stitch) :=
  match runGet s id with
  | none => none
  | some r =>
    match envOf s r with
    | none => none
    | some e =>
      match e.prog.stitch i with
      | none => none
      | some st =>
        if alive s && !s.service.quiesced && !stopped r s && st.opcode = opcode && r.openAt e.prog i &&
            !heldBack s e st i && !r.items.any (fun t => t.1 = i) then some ({ e with fog := fogOf s e i }, st) else none

/-- A collective or BARRIER (Table 3-7 WAIT_TIMEOUT), or a SIGNAL, which waits for a partner (R102). -/
def collective (opcode : Nat) : Bool := 6 ≤ opcode && opcode ≤ 13 && opcode ≠ 11

/-- Notes since when each collective of a run that nothing holds back has made no progress (R87). -/
def noteStalled (id : Nat) (s : State) : State :=
  match (runGet s id).bind (envOf s) with
  | none => s
  | some e =>
    let now := (List.range e.prog.stitches.length).filter (fun i =>
      e.run.openAt e.prog i && (e.prog.stitch i).any (fun st => collective st.opcode && !heldBack s e st i))
    let at_ := fun i => ((e.run.stalled.find? (fun w => w.1 = i)).map (·.2)).getD s.ticks
    runMod id (fun r => { r with stalled := now.map (fun i => (i, at_ i)) }) s

/-- Stitch `i` is complete on every pier of its set. -/
def finish (id i : Nat) (lanes noCand : W16) (s : State) : State :=
  noteStalled id (runMod id (fun r => { r with completed := r.completed ++ [i], laneExc := r.laneExc ||| (lanes &&& r.lanes)
                                               noCand := r.noCand ||| (noCand &&& r.lanes) }) s)

/-! ### HALT (R87, R167, R290) -/

/-- ABORT for a run's items that the chiplet holds; items not yet sent are dropped. -/
def abortItems (id : Nat) (s : State) : State :=
  let by_ := s.girth.abortTicks.toNat
  foldS (List.range 6) (fun n s =>
    let p := portGet s n
    let mine := p.items.filter (fun t => t.run = id && t.sent && t.aborted.isNone)
    let items := (p.items.filter (fun t => t.run ≠ id || t.sent)).map (fun t =>
      if t.run = id && t.aborted.isNone then { t with aborted := some (after by_ s) } else t)
    if p.items.any (fun t => t.run = id) then
      foldS mine (fun t => girthSend n (.abort t.tag)) (portSet n { p with items := items } s)
    else s) s

/-- What a faulted run has written to SCRATCH, ARENA and RUN tensors is undefined (R87): the rows of every tensor that a stitch
of the run writes, where the stitch is complete or may have started. -/
def scribbleRun (e : Env) (s : State) : State :=
  let (n, s0) := drawFree s
  let ran := (List.range e.prog.stitches.length).filter (fun i =>
    e.run.completed.contains i || (e.run.openAt e.prog i && (e.prog.stitch i).any (fun st => !heldBack s e st i)))
  let ds := (ran.flatMap (fun i => ((e.prog.stitch i).map (Stitch.writes e.prog)).getD [])).eraseDups
  foldS ds (fun d s =>
    if !d.paged && 1 ≤ d.kind && d.kind ≤ 3 then
      let len := if d.isStream then streamRowBytes d (rowElems d) else rowElems d * elemBytes d.dtype
      foldS (if d.pierLocal then d.piers else [d.pierFirst]) (fun role s =>
        foldS ((rowIdx { d with dims := localDims d }).map (rowOffset d)) (fun off s =>
          writeBytes e d role off ((List.range len).map (fun o => Config.scribble (n * 4096 + d.idx) role (off + o))) s) s) s
    else s) s0

/-- The end of a batch's run, or of a prefill run, reaches the core that schedules it (Table 1-14). -/
def ringRunEnd (id : Nat) (s : State) : State :=
  match runGet s id with
  | some r =>
    match r.kind with
    | .raw _ => s
    | _ => ringDoorbell (schedCore r.ctx) 1 s
  | none => s

/-- Removes a run. -/
def dropRun (id : Nat) (s : State) : State :=
  let pool := match runGet s id with
    | some r => s.piers.pool.filter (fun a => !r.kvAlloc.contains a)
    | none => s.piers.pool
  let s := ringRunEnd id s
  sleepIfQuiet { s with piers := { s.piers with runs := s.piers.runs.filter (fun r => r.id ≠ id), pool := pool } }

/-- Ends a stream's prefill run, where one is under way. -/
def dropPrefill (i : Nat) (s : State) : State :=
  match s.piers.runs.find? (fun r => r.kind = .prefill i) with
  | some r => dropRun r.id (abortItems r.id s)
  | none => s

/-- Restarts a stream after a run of it ended faulted. -/
def restartFrom (id code i : Nat) (s : State) : State :=
  restart i code (dropPrefill i (streamMod i (fun x => { x with lastRun := id }) s))

/-- A run ends faulted: its record, its items aborted, its writable tensors undefined, its streams restarted. A raw run
to which a SUSPEND has come takes it now; one to which a CANCEL has come ends CANCELLED. -/
def haltRun (id stitch code pier : Nat) (s : State) : State :=
  match runGet s id with
  | none => s
  | some r =>
    let s1 := abortItems id { s with piers := { s.piers with excs := s.piers.excs ++ [(id, stitch, code, pier)] } }
    let s2 := dropRun id (match envOf s1 r with
      | some e => scribbleRun e s1
      | none => s1)
    match r.kind with
    | .batch b =>
      let lanes := ((s2.service.batches.find? (fun t => t.1 = b)).map (fun t => t.2.lanes)).getD []
      let bs := s2.service.batches.map (fun t => if t.1 = b then (t.1, { t.2 with run := none }) else t)
      foldS (lanes.filterMap (·)) (restartFrom id code) { s2 with service := { s2.service with batches := bs } }
    | .prefill i => restartFrom id code i s2
    | .raw i =>
      if r.cmds.any (fun c => cmdByte c.2 0 = 4) then applyCmds r.cmds s2
      else applyCmds r.cmds (restartFrom id code i s2)

/-- Parts of 64 lines that an operand behind a window takes. -/
def winParts (d : TDesc) : Nat := (d.base % 64 + extentBytes d + 4095) / 4096

/-- Operands behind a window that a stitch has still to read: WINDOW READs for those not yet asked for. -/
def askWindows (id i : Nat) (e : Env) (ds : List TDesc) (s : State) : State :=
  foldS ds (fun d s => foldS (List.range (winParts d)) (fun k s =>
    let u := WinUser.read id i d.idx k
    let have_ := e.run.winData.any (fun p => p.1 = d.idx && p.2.1 = k)
    if have_ || s.pair.winReqs.any (fun w => w.2 = u) then s
    else
      match windowOf s e.run.ctx d.base with
      | none => s
      | some (w, o) =>
        let t := s.viaduct.nextTag
        let lines := min 64 ((o % 64 + extentBytes d + 63) / 64 - 64 * k)
        let m := ViaMsg.wRead t w e.run.ctx (BitVec.ofNat 64 (o / 64 * 64 + 4096 * k)) lines
        { s with viaduct := { s.viaduct with window := s.viaduct.window ++ [m], nextTag := t + 1 }
                 pair := { s.pair with winReqs := s.pair.winReqs ++ [(t, u)] } }) s) s

/-- A collective that has made no progress for STITCH_TIMEOUT (R87). -/
def overran (r : Run) (i : Nat) (s : State) : Bool :=
  (r.stalled.find? (fun w => w.1 = i)).any (fun w => due (w.2 + 1 + s.piers.stitchTimeout.toNat) s)

/-- Stitch `i` of a run as its command carries it out: a collective past STITCH_TIMEOUT, a lost pier or partner ends the run, operands behind a window are
read first, and then the whole stitch is done. -/
def runStitch (id i opcode : Nat) (f : Env → Stitch → State → Ev) (s : State) : State :=
  match startable id i opcode s with
  | none => s
  | some (e, st) =>
    if overran e.run i s then haltRun id i 8 (e.actual ((st.roles e.prog).headD 0)) s
    else match (st.roles e.prog).find? (fun q => !memUp s (e.actual q)) with
    | some q => haltRun id i 3 (e.actual q) s
    | none =>
      let wins := (st.reads e.prog).filter (fun d => d.kind = kindWindow)
      let missing := wins.filter (fun d => (List.range (winParts d)).any (fun k =>
        !e.run.winData.any (fun p => p.1 = d.idx && p.2.1 = k)))
      if ((st.reads e.prog) ++ (st.writes e.prog)).any (fun d => d.kind = kindWindow) && !s.viaduct.up then
        haltRun id i 3 (e.actual ((st.roles e.prog).headD 0)) s
      else if !missing.isEmpty then askWindows id i e missing s
      else match f e st s with
      | .done lanes nc s1 => runMod id (fun r => { r with winData := [] }) (finish id i lanes nc s1)
      | .fault code pier s1 => haltRun id i code pier (if code = 1 then raise (320 + pier) .uc i s1 else s1)
      | .wait s1 => s1

/-! ### OFFLOAD (R104) -/

/-- One operand record of an item. -/
def operandRecord (e : Env) (d : Option TDesc) (write : Bool) (s : State) : List Byte :=
  match d with
  | none => List.replicate 8 0 ++ [0xFF] ++ List.replicate 15 0
  | some d =>
    let role := d.pierFirst
    let dpa := if d.kind = 3 then e.slotDpa (d.base % 16) 0
      else (dpaOfLocal s.store.regions (e.actual role) (e.localOf d.kind role d.base)).getD 0
    leBytes 8 dpa ++ [BitVec.ofNat 8 d.dtype, BitVec.ofNat 8 d.rank, BitVec.ofNat 8 (b2n write), 0] ++
      (List.range 3).flatMap (fun i => leBytes 4 (d.dim i))

/-- The 128-byte item (Table 3-13). -/
def itemBytes (e : Env) (st : Stitch) (tag : W32) (mask deadline : Nat) (s : State) : List Byte :=
  leBytes 4 tag.toNat ++ leBytes 2 (st.op 144 16) ++ leBytes 2 e.run.ctx ++ leBytes 4 (st.op 224 32) ++ leBytes 2 mask ++
    [0, 0] ++ leBytes 8 deadline ++ List.replicate 8 0 ++
    [(e.prog.desc st.dst, true), (e.prog.desc st.src0, false), (e.prog.desc st.src1, false), (e.prog.desc st.src2, false)].flatMap
      (fun d => operandRecord e d.1 d.2 s)

/-- ITEM_TAG counts up, skipping tags still outstanding (R289). -/
def freshTag (items : List Item) : Nat → W32 → W32
  | 0, t => t
  | n + 1, t => if items.any (fun i => i.tag = t) then freshTag items n (t + 1) else t

def runOffload (id i : Nat) (s : State) : State :=
  match startable id i 11 s with
  | none => s
  | some (e, st) =>
    let masked := (e.prog.desc (st.op 184 12)).isSome
    let mask := (laneMask e (st.op 184 12) (st.op 196 10) s).toNat % 65536
    if masked && mask = 0 then finish id i 0 0 s
    else
      let n := st.op 128 3
      let p := portGet s n
      if p.st ≠ .up && !(p.st = .quiescing && p.quiesceBy.isNone) then haltRun id i 6 ((st.roles e.prog).headD 0) s
      else
        let tag := freshTag p.items (p.items.length + 1) p.nextTag
        let ts := s.tsNow.toNat + s.piers.offloadTimeout.toNat
        let it : Item := { tag := tag, ctx := e.run.ctx, run := id, stitch := i, pier := (st.roles e.prog).headD 0
                           deadline := after s.piers.offloadTimeout.toNat s, bytes := itemBytes e st tag mask ts s
                           sent := false, aborted := none }
        let s1 := portSet n { p with items := p.items ++ [it], nextTag := tag + 1 } s
        runMod id (fun r => { r with items := r.items ++ [(i, n, tag.toNat)] }) s1

/-! ### BARRIER and SIGNAL (R101, R102) -/

/-- Writes of a run's piers that their home has not accepted yet (R102, R112). -/
def unaccepted (ctx : Nat) (piers : List Nat) (s : State) : Bool :=
  s.coh.posted.any (fun w => w.ctx = ctx && match w.requester with
    | .pier p => piers.contains p.val
    | _ => false)

/-- The signal word a WAIT reads; a signal tensor lies on one place, or each pier reads its own. -/
def signalWords (e : Env) (d : TDesc) (s : State) : List W64 :=
  if d.replicated || d.isPartial then d.piers.map (fun q => readU64 e d q [0] s) else [readU64 e d d.pierFirst [0] s]

/-- A pair-scope stitch may go on: the run carries a coupling tag in MIRRORED, and the partner's run of the same tag has joined
(R102). The partner's run is outside this member; its joining is the command's operand. -/
def coupled (r : Run) (joined : Bool) (s : State) : Bool := r.coupling ≠ 0 && s.pair.st = .mirrored && joined

def evalBarrier (e : Env) (st : Stitch) (joined : Bool) (s : State) : Ev :=
  if st.op 128 1 = 1 && !coupled e.run joined s then .wait s
  else if st.variant = 0 then .done 0 0 s
  else
    match e.prog.desc st.src0 with
    | none => .wait s
    | some d =>
      gate e [d] s fun s =>
        if (signalWords e d s).all (fun w => BitVec.ofNat 64 (st.op 192 64) ≤ w) then .done 0 0 s else .wait s

/-- SIGNAL: the word is written once every earlier stitch of the run on its pier set is complete; a word behind a partner
window is written there, and the stitch completes with its WRITE_ACK. -/
def runSignal (id i : Nat) (joined : Bool) (s : State) : State :=
  match startable id i 13 s with
  | none => s
  | some (e, st) =>
    let earlier := (List.range i).any (fun j => e.run.openAt e.prog j &&
      (((e.prog.stitch j).map (fun o => (o.roles e.prog).any (st.roles e.prog).contains)).getD false))
    if overran e.run i s then haltRun id i 8 (e.actual ((st.roles e.prog).headD 0)) s
    else if earlier || unaccepted e.run.ctx ((st.roles e.prog).map e.actual) s || s.pair.winReqs.any (fun w => w.2 = .write id) ||
        (st.op 128 1 = 1 && !coupled e.run joined s) || s.pair.winReqs.any (fun w => w.2 = .signal id i) then s
    else
      match e.prog.desc st.dst with
      | none => s
      | some d =>
        match (if d.kind = kindWindow then windowOf s e.run.ctx d.base else none) with
        | some (w, off) =>
          if s.viaduct.up then sendWindowWrite (.signal id i) w e.run.ctx off (leBytes 8 (st.op 192 64)) s
          else haltRun id i 3 (e.actual ((st.roles e.prog).headD 0)) s
        | none =>
          let piers := if d.replicated || d.isPartial then d.piers else [d.pierFirst]
          finish id i 0 0 (foldS piers (fun q s => writeBytes e d q 0 (leBytes 8 (st.op 192 64)) s) s)

/-! ### The commands -/

def execMatvec (run idx : Nat) (s : State) : Host.Outcome State Fault Refusal := .next (runStitch run idx 1 evalMatmul s)
def execMatmul (run idx : Nat) (s : State) : Host.Outcome State Fault Refusal := .next (runStitch run idx 2 evalMatmul s)
def execAttend (run idx : Nat) (s : State) : Host.Outcome State Fault Refusal := .next (runStitch run idx 3 evalAttend s)
def execNorm (run idx : Nat) (s : State) : Host.Outcome State Fault Refusal := .next (runStitch run idx 4 evalNorm s)
def execElem (run idx : Nat) (s : State) : Host.Outcome State Fault Refusal := .next (runStitch run idx 5 evalElem s)
def execReduce (run idx : Nat) (arrival : List (List Nat)) (s : State) : Host.Outcome State Fault Refusal :=
  .next (runStitch run idx 6 (fun e st => evalReduce e st arrival) s)
def execRoute (run idx : Nat) (s : State) : Host.Outcome State Fault Refusal := .next (runStitch run idx 7 evalRoute s)
def execSample (run idx : Nat) (s : State) : Host.Outcome State Fault Refusal := .next (runStitch run idx 8 evalSample s)
def execGather (run idx : Nat) (s : State) : Host.Outcome State Fault Refusal := .next (runStitch run idx 9 evalGather s)
def execScatter (run idx : Nat) (s : State) : Host.Outcome State Fault Refusal := .next (runStitch run idx 10 evalScatter s)
def execOffload (run idx : Nat) (s : State) : Host.Outcome State Fault Refusal := .next (runOffload run idx s)
def execBarrier (run : Nat) (stitch : PairStitch) (s : State) : Host.Outcome State Fault Refusal :=
  .next (runStitch run stitch.idx 12 (fun e st => evalBarrier e st stitch.joined) s)

/-- WAIT_REREAD (R101): a waiting pier reads the signal word again. -/
def execWaitReread (run : Nat) (stitch : PairStitch) (s : State) : Host.Outcome State Fault Refusal :=
  .next (runStitch run stitch.idx 12 (fun e st s => if st.variant = 1 then evalBarrier e st stitch.joined s else .wait s) s)

def execSignal (run : Nat) (stitch : PairStitch) (s : State) : Host.Outcome State Fault Refusal :=
  .next (runSignal run stitch.idx stitch.joined s)

/-- Codes of Table 3-7 that end a run. -/
def endsRun (code : Nat) : Bool := 1 ≤ code && code ≤ 8

/-- HALT (R87). -/
def execHalt (run : Nat) (stitch : W16) (code : Byte) (pier : Pier) (s : State) : Host.Outcome State Fault Refusal :=
  .next (if alive s && endsRun code.toNat then haltRun run stitch.toNat code.toNat pier.val s else s)

/-- STITCH_TIMEOUT (R87): the stitch is one the run has come to on that pier, and it has made no progress for
STITCH_TIMEOUT. -/
def execStitchTimeout (run idx : Nat) (pier : Pier) (s : State) : Host.Outcome State Fault Refusal :=
  .next <|
    match runGet s run with
    | none => s
    | some r =>
      match (envOf s r).bind (fun e => (e.prog.stitch idx).map (fun st => (e, st))) with
      | none => s
      | some (e, st) =>
        if alive s && r.openAt e.prog idx && ((st.roles e.prog).map e.actual).contains pier.val &&
            overran r idx s then
          haltRun run idx 8 pier.val s
        else s

/-- OFFLOAD_TIMEOUT (R87): the item's deadline passes. -/
def execOffloadTimeout (port : Port) (tag : W32) (s : State) : Host.Outcome State Fault Refusal :=
  .next <|
    match (portGet s port.val).items.find? (fun t => t.tag = tag) with
    | none => s
    | some t => if alive s && t.aborted.isNone && due t.deadline s then haltRun t.run t.stitch 5 t.pier s else s

/-- Every stitch of the run is complete or skipped. -/
def Run.allDone (r : Run) (p : Program) : Bool := (List.range p.stitches.length).all (fun i => !r.openAt p i)

/-- Every pier of the run stands at a stitch boundary, and every write already issued has been accepted (R112, R157). -/
def runQuiet (r : Run) (s : State) : Bool :=
  r.items.isEmpty && !unaccepted r.ctx (List.range 320) s && !s.pair.winReqs.any (fun w =>
    match w.2 with
    | .write q | .signal q _ => decide (q = r.id)
    | _ => false)

/-- Slots that a WRITABLE descriptor of a raw program names (R111). -/
def outputSlots (p : Program) : List Nat :=
  ((p.descs.zipIdx.map (fun (v, n) => tdesc n v)).filter (fun d => d.kind = 3 && d.writable)).map (fun d => d.base % 16)

/-- Output slots of two runs of a program overlap (R112). -/
def outputsMeet (p : Program) (a b : Run) : Bool :=
  let outs := fun (r : Run) => (outputSlots p).map (fun k => r.slots.getD k (0, 0))
  (outs a).any (fun x => (outs b).any (fun y => overlaps x.1.toNat x.2.toNat y.1.toNat y.2.toNat))

/-- The output slots of a run that another run of the program overlapped hold undefined contents (R112). -/
def clashRun (e : Env) (s : State) : State :=
  if !e.run.clash then s
  else
    let (n, s0) := drawFree s
    foldS (outputSlots e.prog) (fun k s =>
      let len := (e.run.slots.getD k (0, 0)).2.toNat
      pokeBytes (.pierEngine (Fin.ofNat 320 (e.prog.piers.headD 0)) (Fin.ofNat 4096 e.run.ctx)) (e.slotDpa k 0)
        ((List.range len).map (fun o => Config.scribble (n * 4096) k o)) s) s0

/-- RAW_RUN_END (R112, R157, R161): the last stitch is complete, or the run has reached the stitch boundary at which a
SUSPEND, a CANCEL or a host-side suspension acts. -/
def execRawRunEnd (run : Nat) (s : State) : Host.Outcome State Fault Refusal :=
  .next <|
    match runGet s run with
    | none => s
    | some r =>
      match r.kind, envOf s r with
      | .raw i, some e =>
        let x := streamGet s i
        if !alive s || !runQuiet r s then s
        else if r.allDone e.prog then
          let s1 := dropRun run (clashRun e s)
          let late := x.deadlineTs ≠ 0 && x.deadlineTs ≤ s.tsNow
          applyCmds r.cmds (if late then endStream i .limited 3 r.laneExc s1 else endStream i .done 6 r.laneExc s1)
        else if !r.cmds.isEmpty || x.suspNext ≠ 0 || s.pair.leaving then
          let s1 := dropRun run s
          let s2 := applyCmds r.cmds (streamMod i (fun x => { x with lastRun := run }) s1)
          let y := streamGet s2 i
          let s3 := if y.suspNext ≠ 0 || (y.holds && s.pair.leaving) then suspend i y.suspNext s2 else s2
          let z := streamGet s3 i
          if z.holds then streamSet i { z with st := .queued, queuedSince := s.ticks } s3 else s3
        else s
      | _, _ => s

/-! ### The array's own commands (R43 to R45, R51, R56, R62) -/

/-- Lane accumulators after one step: both blocks of the weight record against each lane's operand, which the operand port
reads from scratch (R43). -/
def stepLanes (s : State) (p : Nat) (acc : List W32) (w : WeightStep) (o : OperandRead) : List W32 :=
  let wb := weightBlocks w (codebookByte s p)
  let byte := fun i => (mget s.store.scratch (p * 524288 + i % 524288)).toNat
  (List.zip acc o.lanes).map (fun (a, l) => accumulate a wb (laneBlocks o.fmt byte l))

/-- A codebook in scratch: entry n's four bytes from 7C000h + 4n. A stitch that needs another one loads it (R108). -/
def putCodebook (p : Nat) (entries : List W32) (s : State) : State :=
  let b := entries.flatMap (fun w => leBytes 4 w.toNat)
  let s := pierSet p { pierGet s p with codebook := none } s
  { s with store := { s.store with scratch := msetN s.store.scratch (p * 524288 + 0x7C000) b } }

/-- The weight record presented at the array: the unpacker's, or the skive decoder's next decoded step (R62), and what the
decoder keeps. -/
def presented (x : PierSt) (weight : Option WeightStep) : Option WeightStep × List WeightStep :=
  match weight with
  | some w => (some w, x.released)
  | none => (x.released.head?, x.released.tail)

/-- ARRAY_STEP: a weight record waits for its operand; with both, the step is taken; at a row's last step the sixteen
results go to scratch and the accumulators to 0. The results take 64 bytes from `rowDst`, lane 0 lowest; R45 does not say how
they lie there (DESIGN CHOICE, notes/assumptions/81.md). A codebook write that waited follows the step (R56). -/
def execArrayStep (pier : Pier) (weight : Option WeightStep) (operand : Option OperandRead)
    (rowDst : Option (BitVec 19)) (s : State) : Host.Outcome State Fault Refusal :=
  .next <|
    let p := pier.val
    let x := pierGet s p
    if !alive s || !memUp s p then s
    else
      let (new, rest) := presented x weight
      match x.held.orElse (fun _ => new), operand with
      | some w, some o =>
        let acc := stepLanes s p x.acc w o
        let s1 := count (4 * p) s
        let s2 := match rowDst with
          | some d =>
            let b := acc.flatMap (fun v => leBytes 4 v.toNat)
            { s1 with store := { s1.store with scratch := msetN s1.store.scratch (p * 524288 + d.toNat) b } }
          | none => s1
        let y := { x with acc := if rowDst.isSome then List.replicate 16 0 else acc, held := if x.held.isSome then new else none
                          released := rest, codebookWait := none }
        let s3 := pierSet p y s2
        match x.codebookWait with
        | some c => putCodebook p c s3
        | none => s3
      | some w, none => if x.held.isSome then s else pierSet p { x with held := some w, released := rest } s
      | none, _ => s

/-- CODEBOOK_LOAD (R56): it waits while an LC12 step stands at the array. -/
def execCodebookLoad (pier : Pier) (entries : List W32) (s : State) : Host.Outcome State Fault Refusal :=
  .next <|
    let p := pier.val
    let x := pierGet s p
    if !alive s || !memUp s p then s
    else if x.held.any (fun w => w.fmt = .lc12) then pierSet p { x with codebookWait := some entries } s
    else putCodebook p entries s

/-- The run whose incomplete stitch of an index uses a pier. -/
def runAt (s : State) (pier stitch : Nat) : Option Run :=
  s.piers.runs.find? (fun r =>
    match envOf s r with
    | some e => r.openAt e.prog stitch && (((e.prog.stitch stitch).map (fun st => ((st.roles e.prog).map e.actual).contains pier)).getD false)
    | none => false)

/-- The steps of a decoded frame: element fields and the two scales of each (R54, R60). -/
def frameToSteps (f : WFmt) (syms : List Nat) (scales : List Byte) : List WeightStep :=
  (List.range (syms.length / 64)).map (fun k =>
    { fmt := f, elems := BitVec.ofNat 512 (leNat (((syms.drop (64 * k)).take 64).map (BitVec.ofNat 8)))
      scale0 := scales.getD (2 * k) 0, scale1 := scales.getD (2 * k + 1) 0 })

/-- Format and steps of one row of a stitch's weights on a pier. -/
def rowOfStitch (s : State) (pier stitch : Nat) : Option (Nat × WFmt × Nat) :=
  (runAt s pier stitch).bind (fun r => (envOf s r).bind (fun e =>
    ((e.prog.stitch stitch).bind (fun st => e.prog.desc st.src0)).map (fun d => (r.id, wfmtOf d.dtype, (rowElems d + 63) / 64))))

/-- SKIVE_FRAME_DECODE (R60 to R63): a frame of a row's stream that decodes is released to the array step by step; one that
fails stops the stream, raises the pier's skive-decode source and ends the run. Each row's stream starts at FRAME_SEQ 0
(R80), and so does the stream of another stitch or run. -/
def execSkiveFrameDecode (pier : Pier) (slot : Fin 16) (stitch : W16) (header : W32) (scales payload : List Byte)
    (s : State) : Host.Outcome State Fault Refusal :=
  .next <|
    let p := pier.val
    let x := pierGet s p
    let (run, fmt, row) := (rowOfStitch s p stitch.toNat).getD (0, .e2m1, 0)
    let fresh : SkiveStream := ⟨run, slot.val, stitch, 0, 0, false⟩
    let cur := match x.stream with
      | some c => if c.run = run && c.slot = slot.val && c.stitch = stitch then c else fresh
      | none => fresh
    if !alive s || !memUp s p || cur.stopped || scales.length ≠ 2 * frameSteps header then s
    else
      match skiveFrame (tget (fun _ => 0) x.slots slot.val) cur.expected.toNat header payload with
      | some syms =>
        let n := cur.steps + frameSteps header
        let next := if row ≤ n && row ≠ 0 then fresh else { cur with expected := cur.expected + 1, steps := n }
        pierSet p { x with stream := some next, released := x.released ++ frameToSteps fmt syms scales } s
      | none =>
        let s1 := raise (320 + p) .uc stitch.toNat (pierSet p { x with stream := some { cur with stopped := true } } s)
        match runAt s1 p stitch.toNat with
        | some r => haltRun r.id stitch.toNat 1 p s1
        | none => s1

/-- MEMORY_READ (R128): a line that reads with poison ends the run of the pier that reads it (R87). -/
def execMemoryRead (dpa : Dpa) (req : MemRequester) (errs : List (Fin 36 × W16)) (s : State) :
    Host.Outcome State Fault Refusal :=
  .next <|
    if !alive s then s
    else
      let (ln, s1) := memRead (dpa.toNat / 64 * 64) req errs s
      match req with
      | .pierEngine p c =>
        if !ln.poison then s1
        else
          let onPier := fun (r : Run) => (envOf s1 r).bind (fun e => findBelow e.prog.stitches.length (fun i =>
            r.openAt e.prog i && (((e.prog.stitch i).map (fun st => ((st.roles e.prog).map e.actual).contains p.val)).getD false)))
          match (s1.piers.runs.filter (fun r => r.ctx = c.val)).findSome? (fun r => (onPier r).map (fun i => (r.id, i))) with
          | some (id, i) => haltRun id i 2 p.val s1
          | none => s1
      | _ => s1

end Sys2Proof.Machine
end

