-- ==== Sys2Proof/Machine/Sched.lean ====
section
/-!
DEFINITION. Machine/Sched.lean: the scheduler: batch boundaries, prefill runs, KV pages, spilling, deadlines and flushes
(05_generation_service.md R149, R152, R156 to R163, R168, R169).
-/
namespace Sys2Proof.Machine

/-! ### KV pages of a lane (R138, R162) -/

/-- Class 5 descriptors of a program, in index order; the k-th of the prefill program holds the KV of the k-th of the
decode program (notes/assumptions/17.md). -/
def kvDescs (p : Program) : List TDesc :=
  (p.descs.zipIdx.map (fun (v, i) => tdesc i v)).filter (fun d => d.kind = 4 && d.base % 16 = 5 && d.paged)

/-- Units of a lane: every index of the dimensions between the first and the last, which is the lane. -/
def laneUnits (d : TDesc) (lane : Nat) : List (Nat × List Nat) :=
  let inner := (d.dims.drop 1).take (d.rank - 2)
  if lane < d.dim (d.rank - 1) then
    (List.range (inner.foldl (· * ·) 1)).map (fun u => (u, unflat inner u ++ [lane]))
  else []

/-- A page of 256 positions of a tensor, in bytes. -/
def pageBytes (d : TDesc) : Nat := 512 * kvBytes d.wide (d.dim 0)

/-- Pages a lane needs for positions below `len`. -/
def pagesFor (p : Program) (lane len : Nat) : List KvPage :=
  (kvDescs p).zipIdx.flatMap (fun (d, k) =>
    (laneUnits d lane).flatMap (fun (u, unit) =>
      (unitRoles d unit).flatMap (fun role =>
        (List.range ((len + 255) / 256)).map (fun i =>
          { tensor := k, unit := u, index := i, pier := tget (fun r => r) p.subst role, resident := true, frame := 0
            bytes := pageBytes d, moving := false, data := [] }))))

/-- Two pages are the same page of a stream. -/
def KvPage.same (a b : KvPage) : Bool := a.tensor = b.tensor && a.unit = b.unit && a.index = b.index

/-- POOL share of a pier: base and bytes. -/
def poolShares (s : State) (p : Nat) : List (Nat × Nat) :=
  ((validRegions s.store.regions).filter (fun e => e.2.isPool && e.2.hasPier p)).map (fun e => (e.2.localB, e.2.share))

/-- Bytes in use in a pier's POOL share: allocations, resident pages, working memory, pages withheld by a burnish. -/
def poolUsed (s : State) (p : Nat) : List (Nat × Nat) :=
  (s.piers.pool.filter (fun a => a.2.1 = p)).map (fun a => (a.2.2.1, a.2.2.2)) ++
  s.service.streams.flatMap (fun e => (e.2.kv.filter (fun k => k.resident && k.pier = p)).map (fun k => (k.frame * 256, k.bytes))) ++
  (s.sec.contexts.filter (fun c => c.2.st ≠ .free)).map (fun c => (Config.arenaLocal c.1 p, Config.arenaBytes c.1 p)) ++
  s.sec.contexts.flatMap (fun c => (c.2.withheld.filter (fun w => w.1 = p)).map (fun w => (w.2.1, w.2.2)))

/-- A free place of `n` bytes in a pier's POOL share. -/
def poolPlace (fresh p n : Nat) (s : State) : Option Nat :=
  if !memUp s p then none
  else (poolShares s p).findSome? (fun r => placeIn fresh r.1 (r.1 + r.2) 256 n (poolUsed s p))

/-- Result of paging a stream in. -/
inductive Paged where
  | ok (s : State)
  /-- A read-back is under way. -/
  | waits (s : State)
  | noRoom (s : State)

def setPage (i n : Nat) (k : KvPage) (s : State) : State := streamMod i (fun x => { x with kv := x.kv.set n k }) s

/-- Starts the read-back of a stream's spilled pages (R163). -/
def startReadback (i : Nat) (s : State) : State :=
  if canRequest s then streamMod i (fun x => { x with kv := x.kv.map (fun k => if k.resident then k else { k with moving := true, moved := 0 }) }) s
  else s

/-- Gives a stream its pages for positions below `len` in a lane of a program: pages on other piers than the lane's move
there (notes/assumptions/17.md), missing ones are allocated. -/
def pageIn (i : Nat) (p : Program) (lane len : Nat) (s : State) : Paged :=
  if (streamGet s i).kv.any (fun k => !k.resident || k.moving) then .waits (startReadback i s)
  else
    (pagesFor p lane len).foldl (fun st want =>
      match st with
      | .ok s =>
        let x := streamGet s i
        match x.kv.findIdx? (fun k => k.same want && k.pier = want.pier) with
        | some _ => st
        | none =>
          let (n, s) := drawFree s
          match poolPlace n want.pier want.bytes s with
          | none => .noRoom s
          | some a =>
            let put := { want with frame := a / 256 }
            match x.kv.findIdx? (fun k => k.same want && !(pagesFor p lane len).any (fun w => w.same k && w.pier = k.pier)) with
            | some m =>
              let old := x.kv.getD m put
              .ok (setPage i m put (copyLines old.pier (old.frame * 256) want.pier a want.bytes s))
            | none => .ok (streamSet i { x with kv := x.kv ++ [put] } s)
      | other => other) (.ok s)

/-! ### Priorities and victims (R158, R162) -/

/-- Effective priority. -/
def effPriority (s : State) (x : Stream) : Nat :=
  if x.st = .queued then min 7 (x.priority.toNat + (s.ticks - x.queuedSince) / s.service.ageingTicks.toNat) else x.priority.toNat

/-- Descending effective priority, then earlier cinch. -/
def ahead (s : State) (a b : Nat) : Bool :=
  let x := streamGet s a
  let y := streamGet s b
  let earlier := decide (x.cinchTs.toNat < y.cinchTs.toNat) || (x.cinchTs = y.cinchTs && decide (x.cinchSeq < y.cinchSeq))
  decide (effPriority s y < effPriority s x) || (effPriority s x = effPriority s y && earlier)

/-- Streams in the scheduler's order. -/
def inOrder (s : State) (l : List Nat) : List Nat :=
  let insert := fun (acc : List Nat) a => acc.takeWhile (fun b => !ahead s a b) ++ [a] ++ acc.dropWhile (fun b => !ahead s a b)
  l.foldl insert []

/-- The context's spill area is configured (R163, Table 15-11). -/
def spillOn (s : State) (ctx : Nat) : Bool := (ctxGet s ctx).spillSlots ≠ 0

/-- Free spill slots of a context. -/
def spillFree (s : State) (ctx : Nat) : Nat := (ctxGet s ctx).spillSlots.toNat - (ctxGet s ctx).spillUsed.length

/-- Streams whose pages may be spilled, best victim first: QUEUED or SUSPENDED ones of any context, lowest effective
priority first, latest cinch first. -/
def victims (s : State) (except_ : Option Nat) : List Nat :=
  (inOrder s ((streamIds s).filter (fun i =>
    let x := streamGet s i
    (x.st = .queued || x.st = .suspended) && except_ ≠ some i && !x.raw && x.kv.any (·.resident) &&
      spillOn s x.ctx.toNat && x.kv.all (fun k => k.bytes ≤ (ctxGet s x.ctx.toNat).spillSlotKib.toNat * 1024) &&
      (x.kv.filter (·.resident)).length ≤ spillFree s x.ctx.toNat + (x.kv.filter (fun k => k.resident && k.moving)).length))).reverse

/-- Starts spilling the first victim; none where there is none. A spill already under way counts. -/
def spillVictim (except_ : Option Nat) (s : State) : Option State :=
  if !canRequest s then none
  else if (streamIds s).any (fun i => (streamGet s i).kv.any (fun k => k.resident && k.moving)) then some s
  else (victims s except_).head?.map (fun i =>
    streamMod i (fun x => { x with kv := x.kv.map (fun k => if k.resident then { k with moving := true, moved := 0 } else k) }) s)

/-- KV_SPILL_DONE (R163, R343): the engine's transfers of the page have ended; the page has left under the context key; its frame is free, its entry non-resident. A page
that delivers poison is not written out: the stream restarts. -/
def spillDone (i n : Nat) (s : State) : State :=
  let x := streamGet s i
  match x.kv[n]? with
  | none => s
  | some k =>
    if !(k.resident && k.moving) || k.moved < k.bytes || !canRequest s then s
    else
      let c := ctxGet s x.ctx.toNat
      let lines := (List.range ((k.bytes + 63) / 64)).map (fun j => engineLine s k.pier (k.frame * 256 + 64 * j) x.ctx.toNat)
      match findBelow c.spillSlots.toNat (fun m => !c.spillUsed.contains m) with
      | none => setPage i n { k with moving := false } s
      | some slot =>
        if lines.any (·.poison) then restart i 2 s
        else
          let s1 := ctxSet x.ctx.toNat { c with spillUsed := c.spillUsed ++ [slot], spillCtr := c.spillCtr + 1 } s
          count 2608 (setPage i n { k with resident := false, frame := slot, moving := false,
                                           data := (lines.flatMap (fun l => lineBytes l.data)).take k.bytes } s1)

def execKvSpillDone (record : Fin 262144) (page : Nat) (s : State) : Host.Outcome State Fault Refusal :=
  .next (if alive s then spillDone record.val page s else s)

/-- KV_READBACK_DONE (R163): with the engine's transfers of it ended, the page returns to a fresh frame and its slot is free; a page that fails its tag is
discarded and the stream restarts. -/
def readbackDone (i n : Nat) (tagOk : Bool) (s : State) : State :=
  let x := streamGet s i
  match x.kv[n]? with
  | none => s
  | some k =>
    if k.resident || !k.moving || k.moved < k.bytes || !canRequest s then s
    else if !tagOk then restart i 0xFF (count 2610 s)
    else
      let (m, s) := drawFree s
      match poolPlace m k.pier k.bytes s with
      | none => setPage i n { k with moving := false } s
      | some a =>
        let c := ctxGet s x.ctx.toNat
        let s1 := ctxSet x.ctx.toNat { c with spillUsed := c.spillUsed.filter (· ≠ k.frame) } s
        count 2609 (setPage i n { k with resident := true, frame := a / 256, moving := false, data := [] }
          (engineWrite k.pier a x.ctx.toNat k.data s1))

def execKvReadbackDone (record : Fin 262144) (page : Nat) (tagOk : Bool) (s : State) : Host.Outcome State Fault Refusal :=
  .next (if alive s then readbackDone record.val page tagOk s else s)

/-! ### Boundary step 1: tokens (R160, R161, R168) -/

/-- STOP_CHECK and the append of one sampled token. -/
def takeToken (i : Nat) (t : W32) (s : State) : State :=
  let x := streamGet s i
  if t ≠ 0xFFFFFFFF && x.stopIds.contains t then endStream i .done 1 0 s
  else if x.maxNew ≤ x.committed.length + x.opened.length + 1 then endStream i .limited 2 0 (appendToken i t s)
  else if x.deadlineTs ≠ 0 && x.deadlineTs ≤ s.tsNow then endStream i .limited 3 0 (appendToken i t s)
  else
    let s1 := appendToken i t s
    streamMod i (fun x => { x with st := .decode }) s1

/-- A lane that found no candidate: the stream restarts, or ends at the second time in a row at one POSITION. -/
def noCandidate (i : Nat) (s : State) : State :=
  let x := streamGet s i
  let pos := x.tokens.length
  if x.noCand = some pos then endStream i .done 5 0 (raise 2932 .ce i s)
  else restart i 0x10 (streamSet i { x with noCand := some pos } s)

/-- The tokens a run has processed for a stream, and what it sampled where the last one is among them. -/
def processed (i n lane : Nat) (r : Run) (s : State) : State :=
  let x := streamGet s i
  let done := x.prefilled + n
  let s1 := streamSet i { x with prefilled := done } s
  if done < x.tokens.length then s1
  else if r.noCand.getLsbD lane then noCandidate i s1
  else takeToken i (le32 (slice (tget (fun _ => []) r.services 6) (4 * lane) 4)) s1

/-! ### Boundary step 2 -/

/-- What takes effect at a stream's boundary besides commands: suspensions that waited, the lost program, the full target,
the leaving member, the requeue of R162. -/
def boundaryOf (i : Nat) (s : State) : State :=
  let x := streamGet s i
  if !x.holds then s
  else if x.suspNext ≠ 0 then suspend i x.suspNext s
  else if !x.raw && (programOf s x.ctx.toNat .decode).isNone then suspend i suspModel s
  else if s.pair.leaving then suspend i 0 s
  else if s.service.heldRecords.toNat ≤ x.sealed.length then
    if x.held then suspend i suspHeld s
    else streamMod i (fun x => { x with st := .queued, queuedSince := s.ticks }) (leaveLane i s)
  else if x.requeue then
    let s1 := streamMod i (fun x => { x with st := .queued, queuedSince := s.ticks }) (leaveLane i s)
    if spillOn s x.ctx.toNat then s1 else count 2606 (freeKv i s1)
  else s

/-- Commands of a list that name stream `i`. -/
def cmdsFor (s : State) (i : Nat) (cmds : List (Nat × BitVec 512)) : List (Nat × BitVec 512) :=
  cmds.filter (fun c => cmdField c.2 8 8 = ((streamGet s i).handle i).toNat)

/-- A prefill run of the stream is under way. -/
def inPrefill (s : State) (i : Nat) : Bool := s.piers.runs.any (fun r => r.kind = .prefill i)

/-- The scheduler queues the streams that are CINCHED. -/
def queueCinched (s : State) : State :=
  foldS ((streamIds s).filter (fun i => (streamGet s i).st = .cinched))
    (fun i s => streamMod i (fun x => { x with st := .queued, queuedSince := s.ticks }) s) s

/-! ### Service classes and page lists (R103, R139, R160) -/

/-- Bytes nothing fills: masked lanes and outputs before they are written. -/
def freeBytes (fresh k n : Nat) : List Byte := (List.range n).map (Config.freeByteAt fresh k)

/-- Distinct tokens among the PEN_WINDOW most recent ones. -/
def penaltyList (x : Stream) : List W32 := ((x.tokens.drop (x.tokens.length - x.penWindow.toNat)).eraseDups).take 4096

/-- The sampling record of a stream for the token at `pos` (Table 3-12). -/
def sampleBytes (x : Stream) (pos : Nat) : List Byte :=
  leBytes 8 x.seed.toNat ++ leBytes 8 pos ++ leBytes 4 x.temp.toNat ++ leBytes 4 x.topP.toNat ++ leBytes 4 x.minP.toNat ++
    leBytes 4 x.repPen.toNat ++ leBytes 2 x.topK.toNat ++ leBytes 2 (penaltyList x).length ++ List.replicate 28 0

/-- Input classes of a run (Table 3-11): for each lane its stream, the first position and how many tokens it processes. -/
def fillClasses (fresh : Nat) (lanes : List (Option (Nat × Nat × Nat))) (s : State) : Tbl (List Byte) :=
  let each := fun (k w : Nat) (f : Stream → Nat → Nat → List Byte) =>
    (lanes.zipIdx.flatMap (fun (l, n) => match l with
      | some (i, first, cnt) => slice (f (streamGet s i) first cnt) 0 w
      | none => freeBytes fresh (16 * k + n) w))
  let tok := fun (x : Stream) (p : Nat) => leBytes 4 (x.tokens.getD p 0).toNat
  [(0, each 0 4 (fun x first cnt => tok x (first + cnt - 1))),
   (1, each 1 4 (fun _ first _ => leBytes 4 first)),
   (2, each 2 4 (fun _ first cnt => leBytes 4 (first + cnt))),
   (3, each 3 64 (fun x first cnt => sampleBytes x (first + cnt))),
   (4, each 4 16384 (fun x _ _ => (penaltyList x).flatMap (fun t => leBytes 4 t.toNat))),
   (6, freeBytes fresh 200 64),
   (7, match lanes.headD none with
      | some (i, first, cnt) => (List.range cnt).flatMap (fun j => tok (streamGet s i) (first + j)) ++
          freeBytes fresh 201 (4 * (16384 - cnt))
      | none => [])]

/-- Pages that a unit's list names on a pier, in entry order; none where one is missing. -/
def listEntries (x : Stream) (k u pier : Nat) : List Byte :=
  let ps := x.kv.filter (fun p => p.tensor = k && p.unit = u && p.pier = pier)
  let n := ps.foldl (fun m p => max m (p.index + 1)) 0
  (List.range n).flatMap (fun i =>
    match ps.find? (fun p => p.index = i) with
    | some p => leBytes 8 (if p.resident then 2 ^ 63 + p.frame else p.frame)
    | none => leBytes 8 0)

/-- Writes the page-list headers and lists of one descriptor on one role's pier, in POOL memory of the context; answers
the header base. -/
def putLists (fresh : Nat) (p : Program) (ctx : Nat) (lanes : List (Option Nat)) (d : TDesc) (k role : Nat) (s : State) :
    Option (Nat × Nat × State) :=
  let pier := tget (fun r => r) p.subst role
  let units := (List.range (d.total / d.dim 0)).map (fun f => (unflat (d.dims.drop 1) f).take (d.rank - 1))
  let mine := units.filter (fun u => (unitRoles d u).contains role)
  let lists := mine.map (fun u =>
    let lane := u.getD (d.rank - 2) 0
    match lanes.getD lane none with
    | some i => listEntries (streamGet s i) k (flat (d.dims.drop 1) (u.take (d.rank - 2))) pier
    | none => [])
  let n := 8 * mine.length + (lists.map List.length).sum
  match poolPlace fresh pier (max 8 n) s with
  | none => none
  | some a =>
    let heads := (lists.foldl (fun (acc : Nat × List Byte) l =>
      (acc.1 + l.length, acc.2 ++ leBytes 8 (l.length / 8 * 2 ^ 32 + acc.1))) (a + 8 * mine.length, [])).2
    some (a, max 8 n, engineWrite pier a ctx (heads ++ lists.flatMap id) s)

/-- A run of a program for lanes of streams; none where its page lists find no room. -/
def launch (kind : RunKind) (ctx idx : Nat) (p : Program) (lanes : List (Option (Nat × Nat × Nat))) (s : State) :
    Option (Nat × State) :=
  let (n, s) := drawFree s
  let id := s.piers.nextRun
  let down := (List.range 6).foldl (fun v q => if (portGet s q).st = .up then v else withBit v q) (0 : BitVec 6)
  let mask := lanes.zipIdx.foldl (fun v (l, k) => if l.isSome then withBit v k else v) (0 : W16)
  let base : Run := { id := id, ctx := ctx, prog := idx, kind := kind, portsDown := down, lanes := mask
                      services := fillClasses n lanes s
                      count := ((lanes.headD none).map (fun l => l.2.2)).getD 0 }
  let jobs := (kvDescs p).zipIdx.flatMap (fun (d, k) => d.piers.map (fun role => (d, k, role)))
  let out := jobs.foldl (fun (acc : Option (Run × State)) (d, k, role) =>
    match acc with
    | none => none
    | some (r, s) =>
      let (m, s) := drawFree s
      (putLists m p ctx (lanes.map (fun l => l.map (·.1))) d k role s).map (fun (a, len, s) =>
        let e := (ctx, tget (fun q => q) p.subst role, a, len)
        ({ r with kvBase := tset (fun _ => 0) r.kvBase (512 * d.idx + role) a, kvAlloc := r.kvAlloc ++ [e] },
         { s with piers := { s.piers with pool := s.piers.pool ++ [e] } }))) (some (base, s))
  out.map (fun (r, s) => (id, noteStalled id { s with piers := { s.piers with runs := s.piers.runs ++ [r], nextRun := id + 1 } }))

/-! ### Boundary step 3 -/

def batchGet (s : State) (b : Nat) : Option Batch := (s.service.batches.find? (fun t => t.1 = b)).map (·.2)
def batchMod (b : Nat) (f : Batch → Batch) (s : State) : State :=
  { s with service := { s.service with batches := s.service.batches.map (fun t => if t.1 = b then (t.1, f t.2) else t) } }

/-- Length of a stream's KV after the next tokens it processes. -/
def nextLen (x : Stream) : Nat := x.prefilled + 1

/-- A QUEUED generation stream that may take a lane (R152, R158, R290). -/
def candidate (s : State) (i : Nat) : Bool :=
  let x := streamGet s i
  x.st = .queued && !s.pair.leaving && x.sealed.length < s.service.heldRecords.toNat &&
    !(List.range 6).any (fun n => (portGet s n).items.any (fun t => t.run = x.lastRun && x.lastRun ≠ 0))

/-- The stream processes its prompt, or prompt and committed tokens, first (R159). -/
def needsPrefill (x : Stream) : Bool := x.prefilled = 0 || x.prefilled + 1 < x.tokens.length

/-- Lane refill (R158, R162): candidates in order; only step 1 of R162 is applied for a page, the candidate never its own
victim. -/
def refill (b ctx lane : Nat) (p : Program) (s : State) : State :=
  let cands := inOrder s ((streamIds s).filter (fun i =>
    candidate s i && !(streamGet s i).raw && (streamGet s i).ctx.toNat = ctx))
  (cands.foldl (fun (acc : Bool × State) i =>
    if acc.1 then acc
    else
      match pageIn i p lane (nextLen (streamGet acc.2 i)) acc.2 with
      | .ok s =>
        let take := fun (x : Stream) =>
          { x with st := if needsPrefill x then .prefill else .decode, place := some (b, lane), restartPending := false }
        (true, batchMod b (fun B => { B with lanes := B.lanes.set lane (some i) }) (streamMod i take s))
      | .waits s => (false, s)
      | .noRoom s => (false, (spillVictim (some i) s).getD s)) (false, s)).2

/-- Fills the free lanes of a batch. -/
def refillAll (b : Nat) (s : State) : State :=
  match batchGet s b with
  | none => s
  | some B =>
    match programOf s B.ctx.toNat .decode with
    | none => s
    | some (_, p) =>
      foldS ((List.range 16).filter (fun l => (B.lanes.getD l none).isNone)) (fun l s => refill b B.ctx.toNat l p s) s

/-- The lowest-priority slot-holding stream of a context. -/
def lowest (s : State) (ctx : Nat) : Option Nat :=
  (inOrder s ((streamIds s).filter (fun i => (streamGet s i).holds && !(streamGet s i).raw && (streamGet s i).ctx.toNat = ctx))).getLast?

/-- R162 for a slot-holding stream that needs a page: a victim is spilled, or the lowest-priority stream goes back to
QUEUED, and where the context has no spill area its KV is released. -/
def makeRoom (b ctx : Nat) (s : State) : State :=
  match spillVictim none s with
  | some s1 => s1
  | none =>
    match lowest s ctx with
    | none => s
    | some i =>
      if (streamGet s i).place.any (fun q => q.1 = b) && !inPrefill s i then
        let s1 := streamMod i (fun x => { x with st := .queued, queuedSince := s.ticks }) (leaveLane i s)
        if spillOn s ctx then s1 else count 2606 (freeKv i s1)
      else streamMod i (fun x => { x with requeue := true }) s

/-- Pages for every lane that will run; false where one still waits. -/
def pageLanes (b : Nat) (p : Program) (fuel : Nat) (s : State) : Bool × State :=
  match fuel with
  | 0 => (false, s)
  | fuel + 1 =>
    let lanes := ((batchGet s b).map (·.lanes)).getD []
    let work := lanes.zipIdx.filterMap (fun (l, n) => l.map (fun i => (n, i)))
    let out := (work.filter (fun w => !inPrefill s w.2)).foldl (fun (acc : Bool × State) (n, i) =>
      if !acc.1 then acc
      else
        match pageIn i p n (nextLen (streamGet acc.2 i)) acc.2 with
        | .ok s => (true, s)
        | .waits s => (false, s)
        | .noRoom s => (false, makeRoom b (streamGet s i).ctx.toNat s)) (true, s)
    if out.1 then out else if (batchGet out.2 b).map (·.lanes) = (batchGet s b).map (·.lanes) then out
    else pageLanes b p fuel out.2

/-- Starts the next prefill run of a stream: at most PREFILL_CHUNK tokens, the stream in lane 0 (R159); where it is short of a
page, R162 makes room. -/
def startPrefill (i : Nat) (s : State) : State :=
  let x := streamGet s i
  match programOf s x.ctx.toNat .prefill with
  | none => s
  | some (idx, p) =>
    let n := min s.service.prefillChunk.toNat (x.tokens.length - x.prefilled)
    if n = 0 || inPrefill s i then s
    else
      match pageIn i p 0 (x.prefilled + n) s with
      | .ok s1 => ((launch (.prefill i) x.ctx.toNat idx p [some (i, x.prefilled, n)] s1).map (·.2)).getD s1
      | .waits s1 => s1
      | .noRoom s1 => makeRoom ((x.place.map (·.1)).getD 1024) x.ctx.toNat s1

/-- The percentage of the POOL that is free has come down to KV_SPILL_LOW (Table 5-14). -/
def poolLow (s : State) : Bool :=
  let piers := List.range 320
  let total := (piers.map (fun p => ((poolShares s p).map (·.2)).sum)).sum
  let used := (piers.map (fun p => ((poolUsed s p).map (·.2)).sum)).sum
  total ≠ 0 && (total - used) * 100 ≤ s.service.kvSpillLow.toNat * total

/-- Spilling of idle streams begins at KV_SPILL_LOW (Table 5-14). -/
def spillIdle (s : State) : State :=
  if poolLow s then (spillVictim none s).getD s else s

/-- Step 3 of the boundary: lanes refilled, prefill runs started, pages found, the next run launched; a batch whose lanes
have all emptied is dissolved. -/
def nextRun (b : Nat) (s : State) : State :=
  let s := refillAll b (spillIdle s)
  match batchGet s b with
  | none => s
  | some B =>
    if B.lanes.all (·.isNone) then
      { s with service := { s.service with batches := s.service.batches.filter (fun t => t.1 ≠ b) } }
    else
      match programOf s B.ctx.toNat .decode with
      | none => s
      | some (idx, p) =>
        let hasPrefill := (programOf s B.ctx.toNat .prefill).isSome
        let s1 := if hasPrefill then
            foldS (B.lanes.filterMap (fun l => l.bind (fun i => if needsPrefill (streamGet s i) then some i else none))) startPrefill s
          else s
        let (ready, s2) := pageLanes b p 17 s1
        let lanes := (((batchGet s2 b).map (·.lanes)).getD []).map (fun l => l.bind (fun i =>
          let x := streamGet s2 i
          if hasPrefill && needsPrefill x then none else some (i, x.prefilled, 1)))
        if !ready || lanes.all (·.isNone) then s2
        else
          match launch (.batch b) B.ctx.toNat idx p lanes s2 with
          | some (id, s3) =>
            foldS (lanes.filterMap (fun l => l.map (·.1))) (fun i s => streamMod i (fun x => { x with lastRun := id }) s)
              (batchMod b (fun B => { B with run := some id }) s3)
          | none => s2

/-- Contents of the slots that are not output slots, out of the request lines: after the descriptor and the block of 320
bytes, in slot order, each padded to a whole line (R180). -/
def Stream.inputsAt (x : Stream) (outs : List Nat) : List (List Byte) :=
  (x.slots.zipIdx.foldl (fun (acc : Nat × List (List Byte)) e =>
    let n := if outs.contains e.2 then 0 else e.1.2.toNat
    (acc.1 + (n + 63) / 64 * 64, acc.2 ++ [slice x.reqBytes acc.1 n])) (384, [])).2

/-- Launches the raw run of a queued request: inputs as cinched are put back into their slots (R111, R112). -/
def launchRaw (i : Nat) (s : State) : State :=
  let x := streamGet s i
  match programOf s x.ctx.toNat .raw with
  | none => suspend i suspModel s
  | some (idx, p) =>
    let id := s.piers.nextRun
    let down := (List.range 6).foldl (fun v q => if (portGet s q).st = .up then v else withBit v q) (0 : BitVec 6)
    let r : Run := { id := id, ctx := x.ctx.toNat, prog := idx, kind := .raw i, portsDown := down, slots := x.slots
                     coupling := x.coupling }
    let put := foldS (List.zip x.slots (x.inputsAt (outputSlots p))) (fun (sl, bytes) s =>
      if bytes.isEmpty then s
      else pokeBytes (.transferEngine 0 (Fin.ofNat 4096 x.ctx.toNat)) (Config.arenaDpa x.ctx.toNat sl.1).toNat bytes s) s
    let others := (put.piers.runs.filter (fun q => q.ctx = r.ctx && q.prog = idx && outputsMeet p r q)).map (·.id)
    let runs := put.piers.runs.map (fun q => if others.contains q.id then { q with clash := true } else q)
    streamMod i (fun x => { x with st := .decode, lastRun := id, restartPending := false })
      (noteStalled id { put with piers := { put.piers with runs := runs ++ [{ r with clash := !others.isEmpty }], nextRun := id + 1 } })

/-- A new batch, or a raw run, for the first stream in order that may have one: every batch of its context is full and
fewer than 1,024 exist. -/
def newWork (b : Nat) (s : State) : State :=
  let full := fun (c : BitVec 12) => s.service.batches.all (fun t => t.2.ctx ≠ c || t.2.lanes.all (·.isSome))
  let may := fun i =>
    let x := streamGet s i
    candidate s i && (x.raw || ((programOf s x.ctx.toNat .decode).isSome && full x.ctx && s.service.batches.length < 1024))
  match (inOrder s ((streamIds s).filter may)).head? with
  | none => s
  | some i =>
    let x := streamGet s i
    if x.raw then launchRaw i s
    else
      let B : Batch := { ctx := x.ctx, lanes := List.replicate 16 none, run := none, cmds := [] }
      nextRun b { s with service := { s.service with batches := s.service.batches ++ [(b, B)] } }

/-- Steps 1 and 2 of a batch's boundary. -/
def boundary (b : Nat) (B : Batch) (r : Option Run) (s : State) : State :=
  let lanes := B.lanes.zipIdx.filterMap (fun (l, n) => l.map (fun i => (n, i)))
  let s1 := match r with
    | some r =>
      foldS (lanes.filter (fun w => r.lanes.getLsbD w.1)) (fun (n, i) s => processed i 1 n r s)
        (dropRun r.id (batchMod b (fun B => { B with run := none }) s))
    | none => s
  let waitsOn := fun (c : Nat × BitVec 512) => lanes.any (fun w => inPrefill s1 w.2 && !(cmdsFor s1 w.2 [c]).isEmpty)
  let s2 := applyCmds (B.cmds.filter (fun c => !waitsOn c)) (batchMod b (fun B => { B with cmds := B.cmds.filter waitsOn }) s1)
  foldS (lanes.filter (fun w => !inPrefill s2 w.2)) (fun w s => boundaryOf w.2 s) s2

/-- BATCH_BOUNDARY (R156): of a batch whose run is complete, or that has none under way; a number no batch has forms the
next one, or starts a raw run (notes/assumptions/18.md). -/
def execBatchBoundary (batch : Fin 1024) (s : State) : Host.Outcome State Fault Refusal :=
  .next <|
    if !alive s || s.service.quiesced then s
    else
      let s := queueCinched s
      match batchGet s batch.val with
      | none => newWork batch.val s
      | some B =>
        match B.run.bind (runGet s) with
        | none => nextRun batch.val (boundary batch.val B none s)
        | some r =>
          match envOf s r with
          | some e => if r.allDone e.prog then nextRun batch.val (boundary batch.val B (some r) s) else s
          | none => s

/-- PREFILL_RUN_END (R159): the run's tokens are processed; the last chunk's sample is the first new token; commands for
the stream apply; the next chunk's run starts. -/
def execPrefillRunEnd (record : Fin 262144) (s : State) : Host.Outcome State Fault Refusal :=
  .next <|
    let i := record.val
    match s.piers.runs.find? (fun r => r.kind = .prefill i) with
    | none => s
    | some r =>
      match envOf s r with
      | none => s
      | some e =>
        if !alive s || s.service.quiesced || !r.allDone e.prog then s
        else
          let s1 := processed i r.count 0 r (dropRun r.id s)
          let b := ((streamGet s i).place.map (·.1)).getD 1024
          let cmds := ((batchGet s1 b).map (·.cmds)).getD []
          let mine := cmdsFor s1 i cmds
          let s2 := applyCmds mine (batchMod b (fun B => { B with cmds := B.cmds.filter (fun c => !mine.contains c) }) s1)
          let s3 := boundaryOf i s2
          if (streamGet s3 i).st = .prefill then startPrefill i s3 else s3

/-! ### Timers -/

/-- RECORD_FLUSH (R149): FLUSH_TICKS since the open record's first token. -/
def execRecordFlush (record : Fin 262144) (s : State) : Host.Outcome State Fault Refusal :=
  .next <|
    let x := streamGet s record.val
    if alive s && x.live && x.flushTicks ≠ 0 && !x.opened.isEmpty && due (x.openSince + 1 + x.flushTicks.toNat) s then
      sealOpen record.val s
    else s

/-- DEADLINE_CHECK (R161): streams of the core's contexts that hold no slot. -/
def execDeadlineCheck (core : Core) (s : State) : Host.Outcome State Fault Refusal :=
  .next <|
    let late := fun i =>
      let x := streamGet s i
      x.live && !x.holds && x.st ≠ .submitted && schedCore x.ctx.toNat = core.val && x.deadlineTs ≠ 0 && x.deadlineTs ≤ s.tsNow
    if coreRuns core.val s then foldS ((streamIds s).filter late) (fun i s => endStream i .limited 3 0 s) s else s

end Sys2Proof.Machine
end

