-- ==== Sys2Proof/Machine/Binding.lean ====
section
/-!
DEFINITION. Machine/Binding.lean: the sealed image, the checks of program binding, and the scratch, decoder slots and
substitute piers that a bound program takes (03_stitch_programs.md R77 to R84, R88 to R110; 04_stacked_store.md R135 to
R137; 05_generation_service.md R164).
-/
namespace Sys2Proof.Machine

/-! ### The image (Tables 4-10, 4-11) -/

/-- Unit `u` of stripe `t` lies on this approach pier: units 0 to 2 are the data chunks, on the other three stacks in
ascending order, and unit 3 is the parity unit, on stack t mod 4 (R136). -/
def stripePier (t u : Nat) : Nat :=
  let parity := t % 4
  256 + 16 * (if u = 3 then parity else if u < parity then u else u + 1) + t % 16

/-- Pier and local address of a unit; none where LOAD_MODEL chose no IMG_BASE on that pier, or it is out of service. -/
def unitPlace (s : State) (m : Model) (t u : Nat) : Option (Nat × Nat) :=
  let q := stripePier t u
  ((m.imgBase.find? (fun e => e.1 = q)).filter (fun _ => memUp s q)).map (fun e => (q, e.2 + t / 16 * 65536))

/-- The stored bytes of a unit; none where its sixteenth is fenced or it delivers poison (R137). -/
def readUnit (s : State) (ctx : Nat) (m : Model) (t u : Nat) : Option (List Byte) :=
  (unitPlace s m t u).bind (fun (q, a) =>
    let lines := (List.range 1024).map (fun i => engineLine s q (a + 64 * i) ctx)
    if lines.any (·.poison) then none else some (lines.flatMap (fun l => lineBytes l.data)))

def writeUnit (ctx : Nat) (m : Model) (t u : Nat) (b : List Byte) (s : State) : State :=
  match unitPlace s m t u with
  | some (q, a) => engineWrite q a ctx b s
  | none => s

def xorBytes (a b : List Byte) : List Byte := List.zipWith (· ^^^ ·) a b

/-- A chunk as it is stored: from its own unit, or rebuilt from the other three of its stripe (R137); none where two units
of the stripe are lost. -/
def readChunk (s : State) (ctx : Nat) (m : Model) (k : Nat) : Option (List Byte) :=
  (readUnit s ctx m (k / 3) (k % 3)).orElse fun _ =>
    ((List.range 4).filter (· ≠ k % 3)).foldl (fun acc u =>
      acc.bind (fun x => (readUnit s ctx m (k / 3) u).map (xorBytes x))) (some (List.replicate 65536 0))

/-- Stores chunk `k` and brings its stripe's parity unit up to date; after the last chunk the zero chunks that pad its
stripe follow (R136). -/
def placeChunk (ctx : Nat) (m : Model) (k : Nat) (data : List Byte) (s : State) : State :=
  let t := k / 3
  let parity := if k % 3 = 0 then some data else (readUnit s ctx m t 3).map (xorBytes data)
  let s1 := writeUnit ctx m t (k % 3) data s
  let s2 := match parity with
    | some b => writeUnit ctx m t 3 b s1
    | none => s1
  if k + 1 = m.chunkCount then
    foldS ((List.range 3).filter (k % 3 < ·)) (fun u => writeUnit ctx m t u (List.replicate 65536 0)) s2
  else s2

/-- A chunk decrypted: chunk 0 and the tag chunks are plaintext, every other one is ciphertext under the model key. -/
def plainChunk (s : State) (ctx : Nat) (m : Model) (k : Nat) : Option (List Byte) :=
  (readChunk s ctx m k).map (fun b =>
    if k = 0 || m.tagChunk ≤ k then b else Config.unsealChunk (ctxGet s ctx).modelKey k b)

/-- Bytes `off` on of a context's image, decrypted; none where a chunk is lost. -/
def imageRead (s : State) (ctx : Nat) (m : Model) (off n : Nat) : Option (List Byte) :=
  let k0 := off / 65536
  let chunks := (List.range ((off % 65536 + n + 65535) / 65536)).map (fun i => plainChunk s ctx m (k0 + i))
  if chunks.any (·.isNone) then none else some (slice (chunks.flatMap (·.getD [])) (off % 65536) n)

def n16 (l : List Byte) (off : Nat) : Nat := leNat (slice l off 2)
def n32 (l : List Byte) (off : Nat) : Nat := leNat (slice l off 4)
def n64 (l : List Byte) (off : Nat) : Nat := leNat (slice l off 8)
/-- Bytes `off` to `off + n - 1` are 0. -/
def zeros (l : List Byte) (off n : Nat) : Bool := (slice l off n).all (· = 0)

/-- Section `k` of chunk 0. -/
def sectionOf (c0 : List Byte) (k : Nat) : Section :=
  let b := slice c0 (64 + 32 * k) 32
  { kind := b.getD 0 0, place := b.getD 1 0, pierFirst := le16 (b.drop 2), pierCount := le16 (b.drop 4)
    offset := le64 (b.drop 8), partBytes := le32 (b.drop 16), deployOffset := le32 (b.drop 20) }

/-- Parts a section has in the image. -/
def Section.parts (x : Section) : Nat := if x.kind = 2 && x.place = 0 then x.pierCount.toNat else 1
/-- Piers of a section. -/
def Section.piers (x : Section) : List Nat :=
  if x.kind = 2 then (List.range x.pierCount.toNat).map (x.pierFirst.toNat + ·) else []

/-- A section is as Table 4-11 allows; `rsv` is its RSV bytes. -/
def Section.ok (x : Section) (tagChunk portion : Nat) (rsv : Bool) : Bool :=
  let kind := x.kind.toNat
  let off := x.offset.toNat
  rsv && decide (1 ≤ kind ∧ kind ≤ 3) && decide (x.place.toNat ≤ 1) && decide (65536 ≤ off) && off % 64 = 0 &&
    decide (off + x.parts * x.partBytes.toNat ≤ tagChunk * 65536) &&
    (if kind = 2 then decide (1 ≤ x.pierCount.toNat) && decide (x.pierFirst.toNat + x.pierCount.toNat ≤ 320) &&
        decide (x.deployOffset.toNat + x.partBytes.toNat ≤ portion)
     else x.pierFirst = 0 && x.pierCount = 0 && x.deployOffset = 0)

/-- The header and section table of chunk 0; none where R135 does not hold. -/
def headerOf (c0 : List Byte) (imageLen : Nat) : Option Model :=
  let nSec := n16 c0 6
  let chunks := n32 c0 8
  let portion := n32 c0 12
  let tagChunk := n32 c0 0x24
  let secs := (List.range nSec).map (sectionOf c0)
  let rsvOk := fun k => zeros c0 (64 + 32 * k + 6) 2 && zeros c0 (64 + 32 * k + 0x18) 8
  if slice c0 0 4 = [0x4B, 0x53, 0x4D, 0x49] && n16 c0 4 = 1 && decide (1 ≤ nSec ∧ nSec ≤ 64) &&
      chunks * 65536 = imageLen && portion % 65536 = 0 && decide (1 ≤ tagChunk ∧ tagChunk ≤ chunks) &&
      decide (tagChunk = 1 ∨ tagChunk * 65536 + 16 * tagChunk ≤ chunks * 65536) && zeros c0 0x28 24 &&
      zeros c0 (64 + 32 * nSec) (65536 - 64 - 32 * nSec) &&
      secs.zipIdx.all (fun (x, k) => x.ok tagChunk portion (rsvOk k)) then
    some { chunkCount := chunks, portionBytes := portion, modelId := BitVec.ofNat 128 (leNat (slice c0 16 16))
           keyId := le32 (c0.drop 0x20), tagChunk := tagChunk, sections := secs, imgBase := []
           portionBase := [], programs := [], vocab := none }
  else none

/-- The vocabulary table (R164); none where it is rejected. -/
def vocabOf (b : List Byte) : Option (List (Nat × Nat) × List Byte) :=
  let n := n32 b 4
  let strBytes := n32 b 8
  let es := (List.range n).map (fun i => let v := n32 b (16 + 4 * i); (v % 2 ^ 26, v / 2 ^ 26))
  if slice b 0 4 = [0x4B, 0x56, 0x4F, 0x43] && zeros b 12 4 && decide (n ≤ 1048576) &&
      decide (16 + 4 * n + strBytes ≤ b.length) && es.all (fun e => e.2 ≤ 48 && e.1 + e.2 ≤ strBytes) then
    some (es, slice b (16 + 4 * n) strBytes)
  else none

/-! ### Programs (R77, R78) -/

/-- The areas of a program body: descriptor table, skive tables, constant pool. -/
def bodyAreas (b : List Byte) : List (Nat × Nat) :=
  [(n32 b 0x14, 64 * n16 b 0x10), (n32 b 0x18, 64 * n16 b 0x12), (n32 b 0x1C, n32 b 0x20)]

/-- Reason of the header check, 0 for none. -/
def headerReason (b : List Byte) : Nat :=
  let body := n32 b 0xC
  let areas := bodyAreas b
  let role := (b.getD 6 0).toNat
  let list := n32 b 8
  let inBody := areas.all (fun a => a.1 % 64 = 0 && (a.2 = 0 || (64 ≤ a.1 && a.1 + a.2 ≤ body)))
  let apart := fun i j => let x := areas.getD i (0, 0); let y := areas.getD j (0, 0); !overlaps x.1 x.2 y.1 y.2 || x.2 = 0 || y.2 = 0
  if slice b 0 4 ≠ [0x4B, 0x53, 0x54, 0x50] || n16 b 4 ≠ 1 || 2 < role || list = 0 || 65536 < list ||
      body % 64 ≠ 0 || 1048576 < body || n16 b 0x10 = 0 || 4095 < n16 b 0x10 || 4096 < n16 b 0x12 ||
      n32 b 0x24 % 256 ≠ 0 || 524288 < n32 b 0x24 || b.length < body + 32 * list || !inBody ||
      !(apart 0 1 && apart 0 2 && apart 1 2) then 1
  else if !(zeros b 7 1 && zeros b 0x28 24) then 3
  else 0

/-- A program as its section holds it, not yet bound. -/
def programFrom (b : List Byte) : Program :=
  let body := n32 b 0xC
  let at_ := fun base n size => (List.range n).map (fun i => leNat (slice b (base + size * i) size))
  { role := match (b.getD 6 0).toNat with
      | 0 => .raw
      | 1 => .decode
      | _ => .prefill
    stitches := (at_ body (n32 b 8) 32).map (BitVec.ofNat 256)
    descs := (at_ (n32 b 0x14) (n16 b 0x10) 64).map (BitVec.ofNat 512)
    skives := (at_ (n32 b 0x18) (n16 b 0x12) 64).map (BitVec.ofNat 512)
    consts := slice b (n32 b 0x1C) (n32 b 0x20), scratchBytes := n32 b 0x24, scratchBase := [], subst := []
    bound := false }

/-! ### Descriptors (R79 to R82) -/

/-- Bytes and type of a service class (Table 3-11). -/
def classBytes (c : Nat) : Nat := match c with
  | 0 | 1 | 2 | 6 => 64
  | 3 => 1024
  | 4 => 262144
  | 7 => 65536
  | _ => 0

/-- Row length or element size (STRIDE0 of R82). -/
def TDesc.unit0 (d : TDesc) : Nat := if d.isStream then streamRowBytes d (rowElems d) else elemBytes d.dtype

/-- Reason 05h: the rules of R79 to R82. The strides of a pier-local part are held against the part's own sizes, and a cut row
of a stream type has parts that are rows themselves (DEDUCED, notes/assumptions/90.md). -/
def descValid (p : Program) (d : TDesc) : Bool :=
  let ld := fun i => (localDims d).getD i 1
  let group := if d.dtype = 8 then 128 else 32
  let span := (d.dims.drop d.shardDim).take d.shardSpan
  let above := (List.range 5).filter (d.rank ≤ ·)
  let width := if d.dtype = 2 then 0 else 1
  let cls := d.base % 16
  decide (1 ≤ d.rank ∧ d.rank ≤ 5) && d.dims.all (fun n => 1 ≤ n && n < 2 ^ 31) &&
  above.all (fun n => d.dim n = 1 && (n = 0 || d.stride n = 0)) &&
  (d.isSkive != (d.skive = 0xFFFF)) &&
  (!d.isSkive || (decide (d.skive < p.skives.length) && decide (2 ≤ d.dtype ∧ d.dtype ≤ 4) && d.strides.all (· = 0) &&
    fld (p.skives.getD d.skive 0) 0 8 = width)) &&
  !(d.replicated && d.isPartial) && (!(d.replicated || d.isPartial) || d.shard = 0) &&
  decide (1 ≤ d.pierCount) && decide (d.pierFirst + d.pierCount ≤ 320) &&
  (if d.sharded then decide (1 ≤ d.shardSpan) && decide (d.shardDim + d.shardSpan ≤ d.rank) &&
      span.foldl (· * ·) 1 % d.pierCount = 0
   else d.shardSpan = 0) &&
  !(d.isSkive && d.writable) &&
  (!d.isStream || (d.dim 0 % group = 0 && (!d.cutRow || d.dim 0 / d.pierCount % group = 0) &&
    (d.isSkive || d.rank = 1 || d.stride 1 = d.unit0 || (!d.writable && d.stride 1 = 0)))) &&
  (d.paged = (d.dtype = 9 || d.dtype = 10)) &&
  (!d.writable || (decide (1 ≤ d.kind) && d.kind ≠ 5 && (d.kind ≠ 4 || cls = 5 || cls = 6) &&
    (d.paged || (List.range d.rank).all (fun n => n = 0 ||
      (if n = 1 then (if d.isStream then d.unit0 else ld 0 * d.unit0) ≤ d.stride 1
       else ld (n - 1) * d.stride (n - 1) ≤ d.stride n))))) &&
  (d.dtype = 8 || d.codebook = 0) &&
  (d.kind ≠ 4 || (cls < 8 && (if cls = 3 then d.dtype = 0xE else if cls = 5 then d.paged else d.dtype = 0xB)))

/-- The descriptor's extent lies in its region (reason 08h). A skive-coded tensor's extent is what its streams take, where
the image holds them; a run slot's length is known only at the SUBMIT (R111). -/
def descFits (s : State) (ctx : Nat) (m : Model) (p : Program) (d : TDesc) : Bool :=
  let e : Env := { run := { id := 0, ctx := ctx, prog := 0, kind := .raw 0 }, prog := p, model := m }
  let held := !d.isSkive || d.kind = 0 || d.kind = 5
  let len := fun q => if !d.isSkive then extentBytes d else if held then skiveSpan e d q s (partRowCount d) 0 else 0
  let piers := d.piers.filter (memUp s)
  let top := d.base + len d.pierFirst
  match d.kind with
  | 0 => piers.all (fun q => d.base + len q ≤ m.portionBytes) && (d.dtype ≠ 8 || decide (d.codebook + 16384 ≤ m.portionBytes))
  | 1 =>
    match windowOf s ctx d.base with
    | some (w, _) => (windowOf s ctx (top - 1)).any (·.1 = w)
    | none => d.paged || d.piers.all (fun q => top ≤ Config.arenaBytes ctx q)
  | 2 => decide (top ≤ p.scratchBytes)
  | 4 => d.paged || decide (extentBytes d ≤ classBytes (d.base % 16))
  | 5 => decide (top ≤ p.consts.length)
  | _ => true

/-- Reason for descriptor `n`, 0 for none; where several hold, the lowest. -/
def descReason (s : State) (ctx : Nat) (m : Model) (p : Program) (d : TDesc) : Nat :=
  if 0xE < d.dtype || 5 < d.kind then 2
  else if d.flags / 32 ≠ 0 || d.shard / 64 ≠ 0 || ((d.kind = 3 || d.kind = 4) && d.base / 16 ≠ 0) then 3
  else if !descValid p d then 5
  else if !descFits s ctx m p d then 8
  else 0

/-- Reason for skive table `t` (R58, R59). -/
def skiveReason (t : BitVec 512) : Nat :=
  let used := 32 + 4 * skiveSyms t
  if fld t 16 16 ≠ 0 || fld t used (512 - used) ≠ 0 then 3 else if skiveValid t then 0 else 9

/-- The codebook of an LC12 descriptor holds an E4M3 NaN on some pier of its set (R57). -/
def codebookBad (s : State) (ctx : Nat) (m : Model) (d : TDesc) : Bool :=
  d.dtype = 8 && d.piers.any (fun q =>
    (engineBytes s q (tget (fun _ => 0) m.portionBase q + d.codebook) ctx 16384).any (fun b => b &&& 0x7F = 0x7F))

/-! ### Stitches (R83, R84, R88 to R106) -/

/-- VARIANT and FUNC values listed (reason 02h). -/
def codesOk (st : Stitch) : Bool :=
  let v := st.variant
  match st.opcode with
  | 1 | 2 | 8 | 11 | 13 => v = 0
  | 3 | 4 | 7 | 9 | 12 => decide (v ≤ 1)
  | 5 => v = 0 && [0, 1, 2, 3, 4, 5, 6, 7, 0x10, 0x11, 0x12, 0x13, 0x14, 0x15, 0x16, 0x20, 0x21, 0x22, 0x30].contains (st.op 128 8)
  | 6 | 10 => decide (v ≤ 2)
  | _ => false

/-- Named OPERANDS bits of an operation: first bit, length. -/
def namedOps (opcode : Nat) : List (Nat × Nat) :=
  match opcode with
  | 1 | 2 => [(128, 12), (140, 10)]
  | 3 => [(128, 8), (144, 16), (160, 32), (192, 12)]
  | 4 => [(128, 32)]
  | 5 => [(128, 8), (160, 32), (192, 10)]
  | 7 => [(128, 5), (144, 12)]
  | 11 => [(128, 3), (144, 16), (160, 16), (176, 8), (184, 12), (196, 10), (224, 32)]
  | 12 | 13 => [(128, 1), (192, 64)]
  | _ => []

/-- Common fields of a stitch (Table 3-5). -/
def namedBits : List (Nat × Nat) := [(0, 13), (15, 13), (32, 12), (48, 12), (64, 12), (80, 9), (96, 9)]

/-- Every unnamed bit of the stitch is 0 (reason 03h). -/
def rsvOk (v : BitVec 256) (opcode : Nat) : Bool :=
  let named := namedBits ++ namedOps opcode
  (List.range 256).all (fun b => !v.getLsbD b || named.any (fun f => f.1 ≤ b && b < f.1 + f.2))

/-- Dimensions with `l` first and 1 above. -/
def shape (d : TDesc) (l : List Nat) : Bool := (List.range (max 5 l.length)).all (fun i => d.dim i = l.getD i 1)

def isF32 (d : TDesc) : Bool := d.dtype = 0
def isF (d : TDesc) : Bool := d.dtype ≤ 1
def isInt (d : TDesc) : Bool := d.dtype = 0xB

/-- Absent, or as `f` says. -/
def absentOr (o : Option TDesc) (f : TDesc → Bool) : Bool := (o.map f).getD true
/-- Present, and as `f` says. -/
def has (o : Option TDesc) (f : TDesc → Bool) : Bool := (o.map f).getD false

/-- `d` matches `t` in every dimension or has size 1 there (R95). -/
def broadcasts (t d : TDesc) : Bool := (List.range 5).all (fun i => d.dim i = t.dim i || d.dim i = 1)

/-- Position operand of ROPE: [1, …], its dimensions above 0 as the last ones of DST (`ropeIdx`). -/
def positionsOk (dst ps : TDesc) : Bool :=
  isInt ps && ps.dim 0 = 1 && decide (ps.rank ≤ dst.rank) && (List.range ps.rank).all (fun i =>
    i = 0 || ps.dim i = 1 || ps.dim i = dst.dim (dst.rank - ps.rank + i))

/-- A type whose only use is as weights, or as paged KV (Table 3-3). -/
def fixedUse (d : TDesc) : Bool := (2 ≤ d.dtype && d.dtype ≤ 4) || (8 ≤ d.dtype && d.dtype ≤ 0xA)

/-- The mover can bring elements of `t` into `o`: unchanged, or converted at the destination (R99). -/
def movable (t o : TDesc) : Bool :=
  !t.paged && !o.paged && (t.dtype = o.dtype || ((isF t || t.isStream) && (isF o || (isAct o.dtype && o.dim 0 % 32 = 0))))

/-- ELEM operand rules (R95, Table 3-8). -/
def elemOk (f : Nat) (dst : TDesc) (a b c : Option TDesc) : Bool :=
  let bin := fun (o : Option TDesc) => has o (fun d => isF d && broadcasts dst d)
  let same := has a (fun d => isF32 d && d.dims = dst.dims)
  let out := isF dst || (isAct dst.dtype && dst.dim 0 % 32 = 0)
  if f = 0 then has a (fun d => d.dims = dst.dims && !fixedUse dst && (d.dtype = dst.dtype || ((isF d || d.isStream) && out)))
  else if f = 0x22 then
    isF32 dst && has a (fun d => isF32 d && d.dims = dst.dims) && has b (fun d => d.dtype = 0xC)
  else if f = 0x30 then
    out && dst.dim 0 % 2 = 0 && same && has b (fun d => isF32 d && shape d [dst.dim 0, d.dim 1]) &&
      has c (positionsOk dst)
  else
    out && same && (!(decide (1 ≤ f ∧ f ≤ 6) || f = 0x20 || f = 0x21) || bin b) && (f ≠ 4 || bin c)

/-- Operand types, shapes and limits (reason 06h). -/
def operandsOk (st : Stitch) (p : Program) : Bool :=
  let a := p.desc st.src0
  let b := p.desc st.src1
  let c := p.desc st.src2
  let d := p.desc st.dst
  let x := p.desc st.extra
  let maskOk := fun ex => absentOr x (fun t => isInt t && shape t [t.dim 0] && decide (ex < t.dim 0))
  (!st.acc || has d isF32) &&
  match st.opcode with
  | 1 | 2 =>
    has a (fun w => w.isStream && shape w [w.dim 0, w.dim 1] && decide (w.dim 0 ≤ 16384) &&
      has b (fun y => isAct y.dtype && shape y [w.dim 0, y.dim 1] && decide (y.dim 1 ≤ (if st.opcode = 1 then 16 else 16384)) &&
        has d (fun o => isF o && shape o [w.dim 1, y.dim 1])) &&
      absentOr c (fun t => isF t && shape t [w.dim 1])) && maskOk (st.op 140 10)
  | 3 =>
    let heads := st.op 128 8
    decide (1 ≤ heads ∧ heads ≤ 16) &&
    has b (fun k => k.paged && k.dim 0 % 32 = 0 && decide (32 ≤ k.dim 0 ∧ k.dim 0 ≤ 256) &&
      (let units := k.dims.drop 1
       let q := [k.dim 0, heads] ++ units
       has a (fun t => isF32 t && shape t q) && has d (fun t => isF32 t && shape t q) &&
       has c (fun t => isInt t && shape t (1 :: units)) &&
       (if st.variant = 1 then has x (fun t => isF32 t && shape t ([2, heads] ++ units)) else st.op 192 12 = noTensor)))
  | 4 =>
    let eps := st.op 128 32
    (decide (eps < 0x7F800001) || eps = 0x80000000) &&
    has a (fun t => isF32 t && shape t [t.dim 0, t.dim 1] && decide (t.dim 0 ≤ 65536) &&
      has b (fun g => isF g && shape g [t.dim 0]) &&
      (st.variant = 0 || absentOr c (fun g => isF g && shape g [t.dim 0])) &&
      has d (fun o => (isF o || (isAct o.dtype && o.dim 0 % 32 = 0)) && o.dims = t.dims))
  | 5 => has d (fun o => elemOk (st.op 128 8) o a b c)
  | 6 =>
    has a (fun t => isF32 t && t.isPartial && has d (fun o => isF32 o && o.dims = t.dims) &&
      (st.variant ≠ 2 || has b (fun g => isF32 g && g.isPartial && shape g (2 :: t.dims.drop 1))))
  | 7 =>
    let k := st.op 128 5
    decide (1 ≤ k ∧ k ≤ 16) &&
    has a (fun t => isF32 t && shape t [t.dim 0, t.dim 1] && decide (t.dim 0 ≤ 1024 ∧ t.dim 1 ≤ 16) &&
      has d (fun o => o.dtype = 0xC && shape o [k, t.dim 1]) && has x (fun o => isInt o && shape o [t.dim 0]))
  | 8 =>
    has a (fun t => isF32 t && shape t [t.dim 0, t.dim 1] && decide (t.dim 0 ≤ 1048576 ∧ t.dim 1 ≤ 16) &&
      has b (fun r => r.dtype = 0xE && shape r [1, t.dim 1]) && absentOr c (fun r => isInt r && shape r [4096, t.dim 1]) &&
      has d (fun o => isInt o && shape o [1, t.dim 1]))
  | 9 =>
    if st.variant = 0 then
      has a (fun t => has d (fun o => has b (fun i => isInt i && movable t o && o.dim 0 = t.dim 0 && i.total = columns o)))
    else has a (fun t => has d (fun o => movable t o && o.total = t.total))
  | 10 =>
    if st.variant = 0 then
      has a (fun t => has d (fun o => has b (fun i => isInt i && movable t o && o.dim 0 = t.dim 0 && i.total = columns t)))
    else if st.variant = 1 then has a (fun t => has d (fun o => !t.paged && o.dims = t.dims && o.dtype = t.dtype))
    else
      has d (fun o => o.paged &&
        (let v := [o.dim 0, 1] ++ o.dims.drop 1
         has a (fun t => isF32 t && shape t v) && has b (fun t => isF32 t && shape t v) &&
         has c (fun t => isInt t && shape t (1 :: o.dims.drop 1))))
  | 11 => decide (st.op 128 3 ≤ 5) && maskOk (st.op 196 10)
  | 12 => st.variant = 0 || has a (fun t => t.dtype = 0xD)
  | _ => has d (fun t => t.dtype = 0xD)

/-- One pier set is another. -/
def sameSet (a b : List Nat) : Bool := a.all b.contains && b.all a.contains

/-- A pier holds an index of a tensor: every pier of a replicated or PARTIAL set, the owner otherwise; a tensor that is not
pier-local lies where every pier reads it. -/
def heldAt (d : TDesc) (q : Nat) (idx : List Nat) : Bool :=
  !d.pierLocal || (if d.sharded then ownerOf d q idx = q else d.piers.contains q)

/-- Indices of DST that stand for all of them where placement is concerned: every index of the dimensions that a shard may
cut, 0 in the others. -/
def shardIdx (dst : TDesc) (ds : List TDesc) : List (List Nat) :=
  let cut := fun i => (dst :: ds).any (fun d => d.sharded && d.shardDim ≤ i + 1 && i < d.shardDim + d.shardSpan + 1)
  let dims := dst.dims.zipIdx.map (fun (n, i) => if cut i then n else 1)
  (List.range (dims.foldl (· * ·) 1)).map (unflat dims)

/-- Every pier that computes an element of DST holds what it computes it from: `need` gives, for an index of DST, each
operand with the indices wanted of it. Values cross between piers only in REDUCE, ROUTE, SAMPLE, GATHER and SCATTER (R86). -/
def ownOperands (dst : TDesc) (ds : List TDesc) (need : List Nat → List (TDesc × List Nat)) : Bool :=
  (shardIdx dst ds).all (fun i => (computePiers dst i).all (fun q => (need i).all (fun (d, j) => heldAt d q j)))

/-- Reason 07h for an engine operation whose operands lie on other piers (R86; DEDUCED, notes/assumptions/91.md). -/
def colocated (st : Stitch) (p : Program) : Bool :=
  let a := (p.desc st.src0).toList
  let b := (p.desc st.src1).toList
  let c := (p.desc st.src2).toList
  let x := (p.desc st.extra).toList
  let ends := fun (d : TDesc) (j : List Nat) => [(d, 0 :: j), (d, (d.dim 0 - 1) :: j)]
  has (p.desc st.dst) fun dst =>
  match st.opcode with
  | 1 | 2 => ownOperands dst (b ++ c) (fun i =>
      (if a.any (·.sharded) then [] else a.map (fun d => (d, [0, 0])) ++ b.flatMap (fun d => ends d [i.getD 1 0])) ++
        c.map (fun d => (d, [i.getD 0 0])))
  | 3 => ownOperands dst (a ++ b ++ c ++ x) (fun i =>
      a.map (fun d => (d, i)) ++ c.map (fun d => (d, 0 :: i.drop 2)) ++ x.map (fun d => (d, 0 :: i.drop 1))) &&
      b.all (fun kv => (shardIdx dst b).all (fun i => (computePiers dst i).all (fun q =>
        (unitRoles kv ((i.drop 2).take (kv.rank - 1))).contains q)))
  | 4 => ownOperands dst (a ++ b ++ c) (fun i =>
      a.flatMap (fun d => ends d (i.drop 1)) ++ (b ++ c).flatMap (fun d => ends d []))
  | 5 => ownOperands dst (a ++ b ++ c) (fun i =>
      a.map (fun d => (d, i)) ++
      b.flatMap (fun d => if d.dtype = 0xC then ends d [laneOf dst i]
        else if st.op 128 8 = 0x30 then ends d [0] ++ ends d [d.dim 1 - 1] else [(d, bcast d i)]) ++
      c.map (fun d => (d, if d.dtype = 0xB then ropeIdx dst d i else bcast d i)))
  | _ => true

/-- Placement rules of the operations and R84 (reason 07h). -/
def placed (st : Stitch) (p : Program) : Bool :=
  let a := p.desc st.src0
  let b := p.desc st.src1
  let d := p.desc st.dst
  let x := p.desc st.extra
  let roles := st.roles p
  let onDim := fun (t : TDesc) n => t.sharded && t.shardDim = n && t.shardSpan = 1
  let sameAs := fun (t u : TDesc) => t.pierFirst = u.pierFirst && t.pierCount = u.pierCount
  (st.pierCount = 0 || (match st.derived p with
    | some l => sameSet l (st.written p)
    | none => true)) && !roles.isEmpty && roles.all (· < 320) && (st.opcode < 1 || 5 < st.opcode || colocated st p) &&
  match st.opcode with
  | 1 | 2 =>
    has a (fun w =>
      (if !w.sharded then true
       else if onDim w 1 then
        has b (fun y => y.replicated && sameAs y w) && has d (fun o => onDim o 0 && sameAs o w)
       else onDim w 0 && has b (fun y => onDim y 0 && sameAs y w) && has d (fun o => o.isPartial && sameAs o w)) &&
      absentOr x (fun t => (t.replicated || t.pierCount = 1) && sameAs t w))
  | 4 => has a (fun t => !t.sharded || 1 ≤ t.shardDim)
  | 6 => has a (fun t => has d (fun o => o.replicated || o.pierCount = 1 || (o.sharded && sameAs o t)))
  | 7 => has a (fun t => t.pierCount = 1)
  | 8 => has a (fun t => (!t.sharded || onDim t 0) &&
      has d (fun o => !o.pierLocal || (o.pierFirst = t.pierFirst && (o.pierCount = 1 || o.replicated))))
  | 10 => st.variant ≠ 1 || has a (fun t => t.pierCount = 1 && has d (fun o => !o.isPartial))
  | 11 => roles.length = 1
  | _ => true

/-- ALT, FALLBACK and OFFLOAD operand rules (R104, R106; reason 0Bh). -/
def offloadOk (st : Stitch) (i : Nat) (p : Program) : Bool :=
  let all := p.stitches.map stitchOf
  let covers := fun (o : Stitch) k => o.opcode = 11 && o.op 160 16 ≤ k && k < o.op 160 16 + o.op 176 8
  let first := st.op 160 16
  let n := st.op 176 8
  -- HDM: MODEL, ARENA and RUN; a sharded part has no address of its own for the whole (DESIGN CHOICE, notes/assumptions/92.md)
  let hdm := fun (d : TDesc) => (d.kind ≤ 1 || d.kind = 3) && !d.paged && !(d.sharded && d.pierLocal) && d.rank ≤ 3
  (!st.alt || (all.zipIdx.filter (fun (o, j) => covers o i && j < i)).length = 1) &&
  (st.opcode ≠ 11 ||
    ((n = 0 || (decide (i < first) && decide (first + n ≤ all.length))) &&
      (List.range n).all (fun k => ((all[first + k]?).map (·.alt)).getD false) &&
      [st.dst, st.src0, st.src1, st.src2].all (fun t => absentOr (p.desc t) hdm)))

/-- Writability and use of RUN and SERVICE (R103, R111; reason 0Ch). -/
def usesOk (st : Stitch) (p : Program) : Bool :=
  let wr := st.writes p
  let rd := st.reads p
  let outSlot := fun (d : TDesc) => d.kind = 3 && p.descs.zipIdx.any (fun (v, n) =>
    let o := tdesc n v
    o.kind = 3 && o.writable && o.base % 16 = d.base % 16)
  wr.all (·.writable) && (rd ++ wr).all (fun d => d.kind ≠ (if p.role = .raw then 4 else 3)) &&
    !rd.any outSlot && !(st.acc && wr.any (fun d => d.kind = 3))

/-- Reason for stitch `i`, 0 for none; where several hold, the lowest. -/
def stitchReason (p : Program) (v : BitVec 256) (i : Nat) : Nat :=
  let st := stitchOf v
  let idxs := [st.dst, st.src0, st.src1, st.src2, st.extra]
  if !codesOk st then 2
  else if !rsvOk v st.opcode then 3
  else if idxs.any (fun t => t ≠ noTensor && p.descs.length ≤ t) then 4
  else if !operandsOk st p then 6
  else if !placed st p then 7
  else if !offloadOk st i p then 0xB
  else if !usesOk st p then 0xC
  else 0

/-- First element with a reason. -/
def firstReason {α : Type} (f : α → Nat → Nat) (l : List α) : Option (Nat × Nat) :=
  (l.zipIdx.map (fun (x, i) => (f x i, i))).find? (fun r => r.1 ≠ 0)

/-- The checks of R107 on one program after its header: its reason and the index concerned. -/
def programReason (s : State) (ctx : Nat) (m : Model) (b : List Byte) : Option (Nat × Nat) :=
  let p := programFrom b
  (firstReason (fun v i => descReason s ctx m p (tdesc i v)) p.descs).orElse fun _ =>
    (firstReason (fun t _ => skiveReason t) p.skives).orElse fun _ =>
    (firstReason (fun v i => if codebookBad s ctx m (tdesc i v) then 0xA else 0) p.descs).orElse fun _ =>
    firstReason (fun v i => stitchReason p v i) p.stitches

/-! ### Scratch and decoder slots (R108, R109) -/

/-- The base a scratch allocation of role `role` gets on pier `q`. An LC12 role that meets an allocation above 7C000h, made
before LC12 came to the pier, does not fit there: reason 0Dh (DESIGN CHOICE, notes/assumptions/88.md). -/
def scratchPlace (s : State) (q : Nat) (p : Program) (role : Nat) : Option Nat :=
  let x := pierGet s q
  let used := x.allocs.map (fun a => (a.base, a.bytes))
  let lc := p.piers.any (fun r => tget (fun k => k) p.subst r = q && p.lc12 r) || p.lc12 role || (rolesOn s q).any (fun r => r.2.2.1.lc12 r.2.2.2)
  if p.lc12 role && used.any (fun u => 0x7C000 < u.1 + u.2) then none
  else if p.scratchBytes = 0 then some 0
  else
    match firstFit 0 0x7C000 256 p.scratchBytes used with
    | some b => some b
    | none => if lc then none else firstFit 0 0x80000 256 p.scratchBytes used

/-- Decoder slots of a pier with further tables added; none where more than 16 are needed. -/
def slotsWith (t : Tbl (BitVec 512)) : List (BitVec 512) → Option (Tbl (BitVec 512))
  | [] => some t
  | r :: rs =>
    if t.any (·.2 = r) then slotsWith t rs
    else match findBelow 16 (fun n => !t.any (·.1 = n)) with
      | some n => slotsWith (tset (fun _ => 0) t n r) rs
      | none => none

/-- Gives role `role` of program `idx` to pier `q`; the reason where it cannot take it. -/
def giveRole (ctx idx : Nat) (p : Program) (role q : Nat) (s : State) : Except Nat (Nat × State) :=
  let x := pierGet s q
  match scratchPlace s q p role with
  | none => .error 0xD
  | some b =>
    match slotsWith x.slots (p.tables role) with
    | none => .error 0xE
    | some t =>
      let allocs := if p.scratchBytes = 0 then x.allocs else x.allocs ++ [⟨ctx, idx, role, b, p.scratchBytes⟩]
      .ok (b, pierSet q { x with slots := t, allocs := allocs } s)

/-! ### Substitutes (R110) -/

/-- Pier kind: store or approach. -/
def sameKind (a b : Nat) : Bool := decide (a < 256) == decide (b < 256)

/-- Surviving piers that may take the role of `role`, in the order they are tried. -/
def candidates (s : State) (set : List Nat) (role : Nat) : List Nat :=
  let alive := (List.range 320).filter (fun q => sameKind q role && q ≠ role && memUp s q)
  alive.filter set.contains ++ alive.filter (fun q => !set.contains q)

/-- Sections with a part for a role's pier (Table 4-11). -/
def sectionsOf (m : Model) (role : Nat) : List Section := m.sections.filter (fun x => x.piers.contains role)

/-- Deploys the parts of role `role` at a base on pier `q`, in section order, under the context's tag and current epoch
(R136); none where the image has lost a part. -/
def deployAt (ctx : Nat) (m : Model) (role q base : Nat) (s : State) : Option State :=
  (sectionsOf m role).foldl (fun acc x =>
    let k := if x.place = 0 then role - x.pierFirst.toNat else 0
    acc.bind (fun s1 => (imageRead s ctx m (x.offset.toNat + k * x.partBytes.toNat) x.partBytes.toNat).map (fun b =>
      engineWrite q (base + x.deployOffset.toNat) ctx b s1))) (some s)

/-- Deploys every role's parts at the portion reserved for it. -/
def deployAll (ctx : Nat) (m : Model) (s : State) : Option State :=
  m.portionBase.foldl (fun acc e => acc.bind (deployAt ctx m e.1 e.1 e.2)) (some s)

/-- A place for the deployed portion of `role` on pier `q`: the one it has, or a fresh one with the parts restored from
the sealed image (R134). -/
def restorePortion (ctx : Nat) (m : Model) (role q : Nat) (s : State) : Option (Model × State) :=
  let key := placeKey role q
  if (sectionsOf m role).isEmpty || m.portionBase.any (·.1 = key) then some (m, s)
  else
    let (n, s1) := drawFree s
    (poolPlace n q m.portionBytes s1).bind (fun b =>
      (deployAt ctx m role q b
        { s1 with piers := { s1.piers with pool := s1.piers.pool ++ [(ctx, q, b, m.portionBytes)] } }).map (fun s2 =>
          ({ m with portionBase := tset (fun _ => 0) m.portionBase key b }, s2)))

/-- Gives one role to the first pier that can take it. -/
def tryPiers (ctx idx : Nat) (p : Program) (role : Nat) (m : Model) (s : State) :
    List Nat → Except Nat (Program × Model × State)
  | [] => .error 0xD
  | q :: qs =>
    match giveRole ctx idx p role q s with
    | .error e => if qs.isEmpty then .error e else tryPiers ctx idx p role m s qs
    | .ok (b, s1) =>
      match restorePortion ctx m role q s1 with
      | none => tryPiers ctx idx p role m s qs
      | some (m1, s2) =>
        .ok ({ p with scratchBase := tset (fun _ => 0) p.scratchBase role b, subst := tset (fun k => k) p.subst role q }, m1, s2)

/-- A role goes to its own pier while that is in service, to a substitute otherwise. -/
def placeOne (ctx idx : Nat) (p : Program) (role : Nat) (m : Model) (s : State) : Except Nat (Program × Model × State) :=
  tryPiers ctx idx p role m s (if memUp s role then [role] else candidates s p.piers role)

def placeAll (ctx idx : Nat) (p : Program) (m : Model) (s : State) : List Nat → Except Nat (Program × Model × State)
  | [] => .ok ({ p with bound := true }, m, s)
  | r :: rs =>
    match placeOne ctx idx p r m s with
    | .error e => .error e
    | .ok (p1, m1, s1) => placeAll ctx idx p1 m1 s1 rs

/-- Ports that a program needs and that are absent (reason 0Fh). -/
def portMissing (s : State) (p : Program) : Option Nat :=
  (p.stitches.zipIdx.find? (fun (v, _) =>
    let st := stitchOf v
    st.opcode = 11 && st.op 176 8 = 0 && !(portGet s (st.op 128 3)).present)).map (·.2)

/-- Binds the programs in section order; a failure gives its reason and index, and leaves nothing bound (R107). -/
def bindAll (ctx : Nat) (m : Model) (s : State) : List Program → Except (Nat × Nat) (Model × State)
  | [] => .ok (m, s)
  | p :: ps =>
    let idx := m.programs.length
    match placeAll ctx idx p m s p.piers with
    | .error e => .error (e, 0)
    | .ok (p1, m1, s1) =>
      match portMissing s p with
      | some i => .error (0xF, i)
      | none =>
        let m2 := { m1 with programs := m1.programs ++ [p1] }
        bindAll ctx m2 (modelSet ctx (some m2) s1) ps

/-- The programs an image may carry (R78): one raw program, or one decode program and at most one prefill program. -/
def rolesOk (ps : List Program) : Bool :=
  let n := fun r => (ps.filter (fun p => p.role = r)).length
  (ps.length = 1 && n .raw = 1) || (n .raw = 0 && n .decode = 1 && n .prefill ≤ 1)

/-- Status of a binding reason (Table 3-14). -/
def reasonStatus (r : Nat) : Nat := if r = 0xD || r = 0xE then stFull else if r = 0xF then stState else stFormat

/-- The sections of a kind, decrypted. -/
def sectionBytes (s : State) (ctx : Nat) (m : Model) (kind : Byte) : List (Option (List Byte)) :=
  (m.sections.filter (·.kind = kind)).map (fun x => imageRead s ctx m x.offset.toNat x.partBytes.toNat)

/-- Binds a deployed image: the bound model, or status, reason and index. A section that the image has lost fails like a chunk
whose tag fails (DESIGN CHOICE, notes/assumptions/8.md). -/
def bindImage (ctx : Nat) (m : Model) (s : State) : Except (Nat × Nat × Nat) (Model × State) :=
  let read1 := sectionBytes s ctx m 1
  let read3 := sectionBytes s ctx m 3
  let bodies := read1.filterMap id
  let vocabs := read3.filterMap id
  let ps := bodies.map programFrom
  let header := (bodies.map headerReason).find? (· ≠ 0)
  if (read1 ++ read3).any (·.isNone) then .error (stFormat, 0, 0)
  else if header.isSome || !rolesOk ps then .error (stFormat, header.getD 1, 0)
  else match bodies.findSome? (programReason s ctx m) with
  | some (r, i) => .error (reasonStatus r, r, i)
  | none =>
    if 1 < vocabs.length || vocabs.any (fun v => (vocabOf v).isNone) then .error (stFormat, 0, 0)
    else
      let m1 := { m with vocab := vocabs.head?.bind vocabOf }
      match bindAll ctx m1 (modelSet ctx (some m1) s) ps with
      | .error (r, i) => .error (reasonStatus r, r, i)
      | .ok r => .ok r

end Sys2Proof.Machine
end

