-- ==== Sys2Proof/Machine/GirthItems.lean ====
section
/-!
DEFINITION. Machine/GirthItems.lean: the ends of offload items and what they wait for, and the commands that end such waits
(10_girth_ports.md R289, R290; 08_keystones_and_cache.md R241, R247, R257, R258, R260).
-/
namespace Sys2Proof.Machine

/-! ### Port state -/

/-- GP_STATUS.STATE. -/
def GpState.code : GpState → Nat
  | .off => 0 | .training => 1 | .init => 2 | .up => 3 | .quiescing => 4 | .fenced => 5

/-- STATE changes: GIRTH_STATE record (Table 17-2). -/
def setGp (n : Nat) (st : GpState) (s : State) : State :=
  let p := portGet s n
  if p.st = st then s else trace 0x18 (uPort n) (n + 256 * st.code) 0 (portSet n { p with st := st } s)

/-- A stopping port sends QUIESCE once no item is outstanding (R292 steps 2, 3). -/
def quiesceIfIdle (n : Nat) (s : State) : State :=
  let p := portGet s n
  if p.st = .quiescing && p.quiesceBy.isNone && p.items.isEmpty then
    girthSend n .quiesce (portSet n { p with quiesceBy := some (after s.girth.abortTicks.toNat s) } s)
  else s

/-! ### Ends of items (R105, R289, R290) -/

/-- An item leaves the port. -/
def dropItem (n : Nat) (tag : W32) (s : State) : State :=
  let p := portGet s n
  quiesceIfIdle n (portSet n { p with items := p.items.filter (fun t => t.tag ≠ tag), cmpWait := p.cmpWait.filter (fun w => w.1 ≠ tag) } s)

/-- The completion reaches the issuing pier: the stitch is complete, or the run ends with OFFLOAD_FAIL. The completion of an
item already aborted is discarded and counted (R87). -/
def releaseCmp (n : Nat) (tag : W32) (status : Byte) (s : State) : State :=
  match (portGet s n).items.find? (fun t => t.tag = tag) with
  | none => s
  | some t =>
    let s1 := dropItem n tag s
    if t.aborted.isSome then count (2496 + 8 * n + 4) s1
    else if status = 0 then finish t.run t.stitch 0 0 s1
    else haltRun t.run t.stitch 4 t.pier s1

/-- Every write of the chiplet that came before the completion is accepted at its home. -/
def cmpReady (n : Nat) (left : List (BitVec 12) × Nat) (s : State) : Bool :=
  left.1.isEmpty && !s.coh.fences.any (fun f => f.1 = left.2) && !s.coh.retried.any (fun x => x.isWb && reqAgent x.requester = some (n + 1))

/-- Releases the completions whose waits have ended. -/
def releaseCmps (s : State) : State :=
  foldS (List.range 6) (fun n s =>
    foldS (portGet s n).cmpWait (fun w s => if cmpReady n w.2.2 s then releaseCmp n w.1 w.2.1 s else s) s) s

/-! ### Commands that end waits -/

/-- WB (R247). -/
def execWb (slot : Fin 9) (line : LineAddr) (data : LineData) (poison : Bool) (s : State) :
    Host.Outcome State Fault Refusal :=
  .next (releaseCmps (wbArrives slot line data poison s))

/-- A store of the cluster to an HDM line that the line store owns is made there: E becomes M (R233; DESIGN CHOICE,
notes/assumptions/97.md). -/
def storeOwned (cls : Nat) (space : Bool) (line : BitVec 46) (data : LineData) (mask : W64) (s : State) : Option State :=
  let own := fun (x : TrestleLine) => x.st = .e || x.st = .m
  let l : LineAddr := BitVec.ofNat 32 line.toNat
  let sent := s.coh.evict.any (fun b => b.line = l && b.slot = 8)
  if cls = 0 && space && !sent && s.coh.trestleLines.any (fun e => e.1 = l.toNat && own e.2) then
    some { s with coh := { s.coh with
      trestleLines := tmod (fun _ => ⟨.none, 0, false⟩) s.coh.trestleLines l.toNat
        (fun x => { x with st := .m, data := mergeLine x.data data mask }) } }
  else none

/-- DC_STORE (R257): a store that finds every entry in use, and none that can drain, waits. -/
def execDcStore (cls : Fin 16) (space : Bool) (line : BitVec 46) (data : LineData) (mask : W64) (s : State) :
    Host.Outcome State Fault Refusal :=
  .next <|
    if !alive s then s
    else match storeOwned cls.val space line data mask s with
      | some t => t
      | none => releaseCmps ((dcStoreIn cls.val space line data mask s).getD s)

def execDcFence (cls : Fin 16) (s : State) : Host.Outcome State Fault Refusal :=
  .next (if alive s then releaseCmps (dcFence cls.val s) else s)

/-- MERGE_TIMEOUT (R257): MERGE_TICKS have passed from the entry's allocation. -/
def execMergeTimeout (slice : Fin 16) (space : Bool) (line : BitVec 46) (s : State) : Host.Outcome State Fault Refusal :=
  .next <|
    match s.coh.merges.find? (fun m => m.slice = slice.val && m.isOf space line.toNat) with
    | some m =>
      if alive s && due (m.born + 1 + s.coh.mergeTicks.toNat) s && canDrain m s then
        releaseCmps (endFences (drainMerge m s))
      else s
    | none => s

/-- DC_RANGE_INV_END (R260): the drains of the range have been accepted, and its lines are invalid. -/
def execDcRangeInvEnd (s : State) : Host.Outcome State Fault Refusal :=
  .next <|
    match s.coh.rangeJob with
    | none => s
    | some j =>
      if !alive s then s
      else
        let s1 := releaseCmps (endFences (drainWhere (fun m => inJob j m.space m.line.toNat) s))
        if (s1.coh.merges ++ s1.coh.draining).any (fun m => inJob j m.space m.line.toNat) then s1
        else
          let (n, s2) := dcInvalidate (fun x => x.st ≠ .none && inJob j x.space x.line.toNat) s1
          { s2 with coh := { s2.coh with rangeJob := none, linesInv := BitVec.ofNat 31 n } }

end Sys2Proof.Machine
end

