-- ==== Sys2Proof/Machine/Girth.lean ====
section
/-!
DEFINITION. Machine/Girth.lean: girth ports: flits, start, stop, fence, host accesses and offload items
(10_girth_ports.md R279 to R294; 13_security.md R347).
-/
namespace Sys2Proof.Machine

/-- Source of port `n` by its row of Table 10-9. -/
def portSource (n i : Nat) : Nat := 2868 + 8 * n + i

/-! ### Fence (R293) -/

/-- GP_PWREN low, CPnT stopped: nothing queued, held or half done. -/
def GirthPort.stopped (p : GirthPort) : GirthPort :=
  { p.unpowered with st := p.st, pwrgd := false, txns := [], cmpWait := [], items := [], kxStep := 0 }

/-- The port is fenced: its items end and their runs report OFFLOAD_LOST, its requests' answers are discarded, and the
sweep begins. -/
def fencePort (n : Nat) (s : State) : State :=
  let p := portGet s n
  if p.st = .off || p.st = .fenced then s
  else
    let items := p.items
    let q := { p.stopped with sweepBusy := true, sweepPoison := true }
    let s1 := settleSlot (n + 1) true (setGp n .fenced (portSet n q s))
    foldS items (fun t s => if t.aborted.isSome then s else haltRun t.run t.stitch 6 t.pier s) s1

/-- A link failure (R281). -/
def linkFailure (n : Nat) (s : State) : State := fencePort n (raise (portSource n 1) .uc 0 s)

/-- GP_FENCE (R293). -/
def execGpFence (port : Port) (s : State) : Host.Outcome State Fault Refusal :=
  .next (if writable s then fencePort port.val s else s)

/-! ### Flits (R280, R281, R283) -/

/-- ACK_LOW widened against the flits sent. -/
def widenAck (p : GirthPort) (low : W32) : W64 :=
  let last := p.txNum - 1
  last - BitVec.ofNat 64 ((last.truncate 32 - low).toNat)

/-- Sends the held flits again, as first sent. -/
def replayFlits (n : Nat) (s : State) : State :=
  let p := portGet s n
  let held := p.held.map (fun (h : HeldFlit) => { h with replays := h.replays + 1 })
  let s1 := portSet n { p with held := held, replays := satAdd p.replays held.length } s
  foldS held (fun h s => count (2496 + 8 * n + 2) (sendFlit n h s)) s1

/-- A NAK: replay, or a UCIe retrain once a flit has been replayed four times. -/
def nakFlits (n : Nat) (s : State) : State :=
  let p := portGet s n
  if p.held.any (fun h => 4 ≤ h.replays) then
    raise (portSource n 0) .ce 0 (portSet n { p with retrain := some (after 100000 s) } s)
  else replayFlits n s

/-- Step `k` of Table 10-8 begins. -/
def portStep (n k bound : Nat) (s : State) : State :=
  portSet n { portGet s n with step := k, stepDeadline := after bound s } s

/-- A start fails: GP_PWREN low, OFF, the girth-init source. -/
def startFails (n : Nat) (s : State) : State :=
  raise (portSource n 4) .uc 0 (setGp n .off (portSet n (portGet s n).stopped s))

/-- What ends a step of Table 10-8 in time; a step that has overrun its bound ends the attempt (R291). -/
def inStep (n : Nat) (f : State → State) (s : State) : State :=
  if due (portGet s n).stepDeadline s then startFails n s else f s

/-- The port's HELLO (Table 10-7). -/
def sendHello (n : Nat) (s : State) : State := girthSend n (.hello (portGet s n).encStart s.coh.moesi) s

/-- GIRTH_FLIT: the flit's ACK, NAK and credits, and whether it is accepted; the first accepted flit ends step 3. Its slots
are freed as it is accepted, and their credit is owed; credits are in force while the port is UP or QUIESCING (R283,
notes/assumptions/19.md). -/
def girthFlit (n : Nat) (f : GirthFlit) (s : State) : State :=
  let p := portGet s n
  let a := widenAck p f.ackLow
  let s1 :=
    if f.checkOk then
      portSet n { p with peerAck := a, held := p.held.filter (fun h => decide ((a + 1).toNat ≤ h.num.toNat)) } s
    else s
  let s2 := if f.checkOk && f.nak then nakFlits n s1 else s1
  let q := portGet s2 n
  if f.checkOk && f.flitNum = q.rxLast + 1 then
    let c := f.crClass.toNat
    let credits := if 1 ≤ c && c ≤ 5 then q.credits.set (c - 1) (q.credits.getD (c - 1) 0 + f.crCount.toNat) else q.credits
    let inForce := q.st = .up || q.st = .quiescing
    let slots := fun (c : Nat) => if inForce then f.slots.getD c 0 else 0
    let q1 := { q with rxLast := f.flitNum, lastFlit := s.ticks, credits := credits
                       rxCredits := q.rxCredits.mapIdx (fun c k => k - slots c)
                       rxOwed := q.rxOwed.mapIdx (fun c k => k + slots c) }
    let overrun := (List.range 5).any (fun c => q.rxCredits.getD c 0 < slots c)
    let s3 := count (2497 + 8 * n) (portSet n q1 s2)
    let s4 := if f.protoError || overrun then raise (portSource n 2) .uc 0 s3 else s3
    let s5 := if q.step = 3 then inStep n (fun s => sendHello n (portStep n 4 1000 s)) s4 else s4
    girthPump n ((portGet s5 n).outq.length + 1) s5
  else portSet n { q with nak := true } s2

def execGirthFlit (port : Port) (f : GirthFlit) (s : State) : Host.Outcome State Fault Refusal :=
  .next <|
    if alive s && (portGet s port.val).linked then
      if due ((portGet s port.val).lastFlit + 101) s then linkFailure port.val s else girthFlit port.val f s
    else s

/-- GIRTH_KEEPALIVE (R281): nothing is waiting that can go, so a flit of IDLE slots goes. -/
def execGirthKeepalive (port : Port) (s : State) : Host.Outcome State Fault Refusal :=
  .next <|
    let n : Nat := port
    let p := portGet s n
    if !alive s || !p.linked || 512 ≤ p.held.length then s
    else
      let s1 := girthPump n (p.outq.length + 1) s
      if (portGet s1 n).txNum = p.txNum then girthFlitOut n [] s1 else s1

/-- GIRTH_LINK_IDLE_TIMEOUT (R281): no flit accepted for 100 ticks. -/
def execGirthLinkIdleTimeout (port : Port) (s : State) : Host.Outcome State Fault Refusal :=
  .next <|
    let p := portGet s port.val
    if alive s && p.linked && due (p.lastFlit + 101) s then linkFailure port.val s else s

/-- GIRTH_RETRAIN_END (R281). -/
def execGirthRetrainEnd (port : Port) (ok : Bool) (s : State) : Host.Outcome State Fault Refusal :=
  .next <|
    let n : Nat := port
    let p := portGet s n
    if !alive s || p.retrain.isNone then s
    else
      let fresh := fun (h : HeldFlit) => { h with replays := 0 }
      let s1 := portSet n { p with retrain := none, held := p.held.map fresh, lastFlit := s.ticks } s
      if ok && !p.retrain.any (fun d => due d s) then replayFlits n s1 else linkFailure n s1

/-! ### Start (R291, Table 10-8) -/

/-- Step 1: GP_PWREN high. -/
def beginStart (n : Nat) (s : State) : State :=
  let p := portGet s n
  let q := { p with pwren := true, step := 1, stepDeadline := after 100000 s, replays := 0, encOn := false, encStart := p.enc, peerHash := tget (fun _ => 0) s.sec.girthPeer n }
  let q := { q with helloOk := false, creditIn := false, readyIn := false, kxStep := 0, startAfterSweep := false }
  setGp n .training (portSet n q s)

/-- START: it waits for the end of a sweep (R294). It drives GP_PWREN high whatever GP_PRSNT_N reads (R291), where R5
keeps the power of an absent chiplet off (DESIGN CHOICE, notes/assumptions/79.md). -/
def gpStart (n : Nat) (s : State) : State :=
  let p := portGet s n
  if p.st ≠ .off then countIgnored (0x50000 + 0x1000 * n) s
  else if p.sweepBusy then portSet n { p with startAfterSweep := true } s
  else beginStart n s

def execGpStart (port : Port) (s : State) : Host.Outcome State Fault Refusal :=
  .next (if writable s then gpStart port.val s else s)

/-- GP_PWRGD (step 1). -/
def execGpPwrgd (port : Port) (s : State) : Host.Outcome State Fault Refusal :=
  .next <|
    let n : Nat := port
    let p := portGet s n
    if !alive s || !p.pwren then s
    else
      let s1 := portSet n { p with pwrgd := true } s
      if p.step = 1 then inStep n (portStep n 2 1000000) s1 else s1

/-- GIRTH_TRAIN_DONE (step 2): flits are exchanged from FLIT_NUM 0. -/
def execGirthTrainDone (port : Port) (s : State) : Host.Outcome State Fault Refusal :=
  .next <|
    let n : Nat := port
    let p := portGet s n
    if !alive s || p.step ≠ 2 then s
    else
      let ones : W64 := BitVec.allOnes 64
      let q := { p with txNum := 0, rxLast := ones, peerAck := ones, nak := false, held := [], outq := [], lastFlit := s.ticks }
      let q := { q with credits := [0, 0, 0, 0, 0], rxCredits := [1024, 0, 1024, 4096, 64], rxOwed := [0, 0, 0, 0, 0]
                        txns := [], cmpWait := [] }
      inStep n (fun s => girthFlitOut n [] (setGp n .init (portStep n 3 1000 (portSet n q s)))) s

/-- Step 6: CREDIT and MODE (Tables 10-2, 10-6). -/
def beginCredits (n : Nat) (s : State) : State :=
  girthSend n (.mode (forcedMode s)) (girthSend n (.credit [1024, 0, 1024, 4096, 64]) (portStep n 6 1000 s))

/-- The port is UP once both sides are READY. -/
def portUp (n : Nat) (s : State) : State :=
  let p := portGet s n
  if p.creditIn && p.readyIn then setGp n .up (portSet n { p with step := 0 } s) else s

/-- HELLO (step 4). -/
def takeHello (n : Nat) (body : HelloBody) (s : State) : State :=
  let p := portGet s n
  let q := { p with vendor := body.vendor, device := body.device, itemsMax := body.itemsMax, txnMax := body.txnMax }
  let s1 := portSet n { q with helloOk := true } s
  let mode := if s.coh.moesi then body.caps.getLsbD 2 else body.caps.getLsbD 1
  if body.version ≠ 1 || !mode || (p.encStart && !body.caps.getLsbD 0) then startFails n s1
  else if p.encStart then
    girthSend n (.kx 0x22) (girthSend n (.kx 0x21) (girthSend n (.kx 0x20) (portStep n 5 2000000 s1)))
  else beginCredits n s1

def execHello (port : Port) (body : HelloBody) (s : State) : Host.Outcome State Fault Refusal :=
  .next <|
    let p := portGet s port.val
    if !alive s || p.step ≠ 4 || !p.linked then s else inStep port.val (takeHello port.val body) s

/-- Minimum credits of Table 10-2. -/
def creditsOk (counts : List W16) : Bool :=
  (List.zip [72, 64, 64, 80, 16] (counts.map (·.toNat))).all (fun c => decide (c.1 ≤ c.2)) && counts.length = 5

/-- CREDIT (step 6): counts below the minimum are a protocol error. -/
def execCredit (port : Port) (counts : List W16) (s : State) : Host.Outcome State Fault Refusal :=
  .next <|
    let n : Nat := port
    let p := portGet s n
    if !alive s || p.step ≠ 6 || p.creditIn || !p.linked then s
    else inStep n (fun s =>
      if !creditsOk counts then raise (portSource n 2) .uc 0 s
      else
        let s1 := portSet n { p with credits := counts.map (·.toNat), creditIn := true } s
        portUp n (girthSend n .ready s1)) s

/-- READY (step 6). -/
def execReady (port : Port) (s : State) : Host.Outcome State Fault Refusal :=
  .next <|
    let n : Nat := port
    let p := portGet s n
    if !alive s || p.step ≠ 6 || !p.linked then s
    else inStep n (fun s => portUp n (portSet n { p with readyIn := true } s)) s

/-- GIRTH_START_TIMEOUT: a step overruns its bound. -/
def execGirthStartTimeout (port : Port) (s : State) : Host.Outcome State Fault Refusal :=
  .next <|
    let p := portGet s port.val
    if alive s && p.step ≠ 0 && due p.stepDeadline s then startFails port.val s else s

/-- A message of the key exchange (R347): the static key is accepted by its hash, or any under an all-zero GIRTH_PEER. -/
def girthKx (n : Nat) (m : GirthKx) (s : State) : State :=
  let p := portGet s n
  let dest := fun (k : Nat) (s : State) => portSet n { portGet s n with kxStep := k } s
  match m with
  | .nonce _ => if p.kxStep = 0 then dest 1 s else s
  | .share _ => if p.kxStep = 1 then dest 2 s else s
  | .ident h =>
    if p.kxStep ≠ 2 then s
    else if p.peerHash = 0 then girthSend n (.kx 0x23) (dest 3 (count 2774 s))
    else if p.peerHash = h then girthSend n (.kx 0x23) (dest 3 s)
    else startFails n s
  | .sig valid =>
    if p.kxStep ≠ 3 then s else if valid then girthSend n (.kx 0x24) (dest 4 s) else startFails n s
  | .done =>
    if p.kxStep ≠ 4 then s
    else
      let (k, s1) := (s.sec.draw, { s with sec := { s.sec with draw := s.sec.draw + 1 } })
      let s2 := { s1 with sec := { s1.sec with girthKeys := tset (fun _ => 0) s1.sec.girthKeys n k } }
      beginCredits n (portSet n { portGet s2 n with encOn := true, kxStep := 0 } s2)

/-- GIRTH_KEY_EXCHANGE (step 5). -/
def execGirthKeyExchange (port : Port) (m : GirthKx) (s : State) : Host.Outcome State Fault Refusal :=
  .next <|
    let p := portGet s port.val
    if alive s && p.step = 5 && p.linked then inStep port.val (girthKx port.val m) s else s

/-! ### Stop, presence, sweep (R292, R294) -/

/-- GP_STOP. -/
def gpStop (n : Nat) (s : State) : State :=
  let p := portGet s n
  if p.st ≠ .up then countIgnored (0x50000 + 0x1000 * n) s
  else quiesceIfIdle n (setGp n .quiescing (portSet n { p with quiesceBy := none } s))

def execGpStop (port : Port) (s : State) : Host.Outcome State Fault Refusal :=
  .next (if writable s then gpStop port.val s else s)

/-- QUIESCE has overrun ABORT_TICKS: girth-abort, and the port is fenced (R292 step 3). -/
def quiesceFails (n : Nat) (s : State) : State := fencePort n (raise (portSource n 5) .uc 0 s)

/-- QUIESCE_DONE: power off, and a sweep without poison. -/
def execQuiesceDone (port : Port) (s : State) : Host.Outcome State Fault Refusal :=
  .next <|
    let n : Nat := port
    let p := portGet s n
    if !alive s || p.st ≠ .quiescing || p.quiesceBy.isNone then s
    else if p.quiesceBy.any (fun d => due d s) then quiesceFails n s
    else settleSlot (n + 1) false (setGp n .off (portSet n { p.stopped with sweepBusy := true, sweepPoison := false } s))

/-- GP_PRSNT_N (R292). -/
def execGpPrsntN (port : Port) (level : Bool) (s : State) : Host.Outcome State Fault Refusal :=
  .next <|
    let n : Nat := port
    let p := portGet s n
    if p.present = !level then s
    else
      let s1 := portSet n { p with present := !level } s
      if alive s && p.st ≠ .off then raise (portSource n 7) .uc 0 s1 else s1

/-- GIRTH_SWEEP_END (R294, R326): the slot is cleared everywhere, a fenced port is OFF, and a START that waited runs. -/
def execGirthSweepEnd (port : Port) (s : State) : Host.Outcome State Fault Refusal :=
  .next <|
    let n : Nat := port
    let p := portGet s n
    if !alive s || !p.sweepBusy then s
    else
      let s1 := sweepSlot (n + 1) p.sweepPoison (portSet n { p with sweepBusy := false, sweepPoison := false } s)
      let s2 := if p.st = .fenced then setGp n .off s1 else s1
      if p.startAfterSweep then beginStart n s2 else s2

/-! ### Chiplet errors and host accesses (R284, R287, R288) -/

/-- The port takes messages of its chiplet. -/
def portOpen (s : State) (n : Nat) : Bool := alive s && ((portGet s n).st = .up || (portGet s n).st = .quiescing)

/-- CHIPLET_ERROR (Table 10-6). -/
def execChipletError (port : Port) (code : Byte) (s : State) : Host.Outcome State Fault Refusal :=
  .next (if alive s && (portGet s port.val).linked then raise (portSource port.val 6) .uc code.toNat s else s)

/-- Reason of a NACK of a host access, none where it may go on. -/
def hostNack (s : State) (n ctx : Nat) (line : BitVec 46) : Option Nat :=
  let p := portGet s n
  let page := line.toNat / 64
  if !p.items.any (fun i => i.sent && i.ctx = ctx) then some 1
  else if !bmeOn s || !p.hwin.any (fun w => w.en && w.base.toNat ≤ page && page ≤ w.last.toNat) then some 4
  else none

/-- A refused request: NACK, counted, girth-access raised. -/
def nackPort (n : Nat) (txn : BitVec 12) (reason : Nat) (s : State) : State :=
  raise (portSource n 3) .uc reason (count (2496 + 8 * n + 3) (girthSend n (.nack txn (BitVec.ofNat 8 reason)) s))

/-- H_RD: DATA with SPACE 1. -/
def execHRd (port : Port) (txn : BitVec 12) (ctx : Ctx) (line : BitVec 46) (fill : LineData) (fillPoison : Bool) (s : State) :
    Host.Outcome State Fault Refusal :=
  .next <|
    let n : Nat := port
    if !portOpen s n then s
    else if (portGet s n).txns.any (fun t => t.txn = txn) then raise (portSource n 2) .uc 0 s
    else
      match hostNack s n ctx.val line with
      | some r => nackPort n txn r s
      | none =>
        match dcHostRead (3 + n) line fill fillPoison s with
        | some (l, s1) => girthSend n (.data txn true l.data l.poison) s1
        | none => s

/-- H_WR: the store enters a merge entry, then CMP with STATE I. -/
def execHWr (port : Port) (txn : BitVec 12) (ctx : Ctx) (line : BitVec 46) (data : LineData) (mask : W64) (s : State) :
    Host.Outcome State Fault Refusal :=
  .next <|
    let n : Nat := port
    if !portOpen s n then s
    else if (portGet s n).txns.any (fun t => t.txn = txn) then raise (portSource n 2) .uc 0 s
    else
      match hostNack s n ctx.val line with
      | some r => nackPort n txn r s
      | none =>
        match dcStoreIn (3 + n) false line data mask s with
        | some s1 => releaseCmps (girthSend n (.cmp txn 0 0 false) s1)
        | none => s

/-! ### Offload items (R289, R290) -/

/-- OFFLOAD_ITEM_SEND: the port sends its oldest waiting item while fewer than min(1,024, ITEMS_MAX) are outstanding. -/
def execOffloadItemSend (port : Port) (s : State) : Host.Outcome State Fault Refusal :=
  .next <|
    let n : Nat := port
    let p := portGet s n
    if !portOpen s n || min 1024 p.itemsMax.toNat ≤ (p.items.filter (·.sent)).length then s
    else
      match p.items.find? (fun t => !t.sent) with
      | none => s
      | some t =>
        let items := modFirst (fun (x : Item) => !x.sent) (fun x => { x with sent := true }) p.items
        count (2496 + 8 * n + 5) (girthSend n (.item t.bytes) (portSet n { p with items := items } s))

/-- WR_INVs of the port's chiplet that the homes have not completed. -/
def openWrites (s : State) (n : Nat) : List (BitVec 12) :=
  let mine := fun (t : Txn) => match t.req with
    | .wrInv _ _ _ => decide (reqAgent t.requester = some (n + 1))
    | _ => false
  ((s.coh.txns.filter mine).map (·.txn)) ++
    ((portGet s n).txns.filter (fun t => s.coh.retried.any (fun x => !x.isWb && reqAgent x.requester = some (n + 1) && x.line = t.line))).map (·.txn)

/-- An item past its deadline ends its run (R87). -/
def itemOverdue (n : Nat) (tag : W32) (s : State) : State :=
  match (portGet s n).items.find? (fun t => t.tag = tag && t.aborted.isNone) with
  | some t => if due t.deadline s then haltRun t.run t.stitch 5 t.pier s else s
  | none => s

/-- An ABORT not confirmed in time raises girth-abort, and is waited for again (R290). -/
def abortOverdue (n : Nat) (s : State) : State :=
  let p := portGet s n
  let isLate := fun (d : Option Nat) => d.any (fun d => due d s)
  if p.items.any (fun t => isLate t.aborted) then
    let again := fun (t : Item) => if isLate t.aborted then { t with aborted := some (after s.girth.abortTicks.toNat s) } else t
    raise (portSource n 5) .uc 0 (portSet n { p with items := p.items.map again } s)
  else s

/-- OFFLOAD_CMP: held until the writes before it are accepted at their homes; an unknown tag is discarded and counted. One
past the item's deadline finds its run ended. -/
def execOffloadCmp (port : Port) (tag : W32) (status : Byte) (s : State) : Host.Outcome State Fault Refusal :=
  .next <|
    let n : Nat := port
    if !portOpen s n then s
    else
      let s := itemOverdue n tag s
      let p := portGet s n
      match p.items.find? (fun t => t.sent && t.tag = tag) with
      | none => count (2496 + 8 * n + 4) s
      | some t =>
        if t.aborted.isSome then releaseCmp n tag status s
        else if p.cmpWait.any (fun w => w.1 = tag) then count (2496 + 8 * n + 4) s
        else releaseCmps (dcFence (3 + n) (portSet n { p with cmpWait := p.cmpWait ++ [(tag, status, openWrites s n, s.coh.fenceCtr)] } s))

/-- ABORT_DONE: the item ends. -/
def execAbortDone (port : Port) (tag : W32) (s : State) : Host.Outcome State Fault Refusal :=
  .next <|
    let n : Nat := port
    if !portOpen s n then s
    else if (portGet s n).items.any (fun t => t.tag = tag && t.aborted.isSome) then dropItem n tag (abortOverdue n s)
    else count (2496 + 8 * n + 4) s

/-- ABORT_TICKS_EXPIRY (R290, R292): an ABORT or QUIESCE not confirmed in time raises girth-abort; an overrun QUIESCE
fences the port. -/
def execAbortTicksExpiry (port : Port) (s : State) : Host.Outcome State Fault Refusal :=
  .next <|
    let n : Nat := port
    let p := portGet s n
    if !alive s then s
    else if p.st = .quiescing && p.quiesceBy.any (fun d => due d s) then quiesceFails n s
    else abortOverdue n s

end Sys2Proof.Machine
end

