-- ==== Sys2Proof/Machine/Submit.lean ====
section
/-!
DEFINITION. Machine/Submit.lean: submission queues, SUBMIT and the commands for streams (05_generation_service.md R141 to
R157; 07_host_port.md R209 to R212, R216).
-/
namespace Sys2Proof.Machine

/-! ### The request window (R209) -/

/-- Base DPA of the request window. -/
def windowBase (s : State) : Option Nat := ((validRegions s.store.regions).find? (fun e => e.2.isWindow)).map (·.2.baseB)

/-- Bytes of the window. -/
def winBytes (s : State) (off n : Nat) : List Byte :=
  match windowBase s with
  | some b => peekBytes s (b + off) n
  | none => List.replicate n 0

/-- What reading bytes of the window does beside delivering them (R115, R128). -/
def winTouch (off n : Nat) (s : State) : State :=
  match windowBase s with
  | some b => (readRun .service (b + off) n s).2.2
  | none => s

/-- Entries of a queue. -/
def ringSize (code : Nat) : Nat := 64 * 2 ^ code

/-- Pages of the window that a queue pair's submission queue takes: first and number. -/
def QpEntry.sqPages (q : QpEntry) : Nat × Nat := (q.sqPage.toNat, max 1 (ringSize q.sqSize.toNat / 64))

/-! ### Doorbell and fetch -/

/-- Fetching is held (FETCH_HELD, Table 7-10). -/
def fetchHeld (s : State) : Bool := !bmeOn s || !s.host.dlUp || resetBusy s

/-- SQ_TAIL_WRITE (R210 to R212): the doorbell reaches the scheduler core and the bridle fetch. -/
def execSqTailWrite (qp : Qp) (be : BitVec 2) (value : W16) (s : State) : Host.Outcome State Fault Refusal :=
  .next <|
    if !barOpen s then refuseAccess true none s
    else
      let q := qpGet s qp
      if !q.armed || be ≠ 3 || ringSize q.sqSize.toNat ≤ value.toNat then count 2550 s
      else ringDoorbell (schedCore q.ctx.toNat) 0 (qpSet qp { q with sqTail := value.toNat, pendingBit := true } s)

/-- Written and unacknowledged entries of a completion queue. -/
def QpEntry.unacked (q : QpEntry) : Nat := q.produced - q.head

/-- A further slot of the completion queue can be reserved or written (R216). -/
def QpEntry.room (q : QpEntry) : Bool := q.unacked + q.reserved + 1 ≤ ringSize q.cqSize.toNat - 1

/-- The host port holds the queue pair's pending bit, and its next entry can be fetched (R39, R216). -/
def QpEntry.fetchable (q : QpEntry) : Bool :=
  q.armed && !q.disarming && q.pendingBit && q.sqHead ≠ q.sqTail && q.room

/-- Pending queue pairs of a scheduler core are served in ascending number (Table 1-14). -/
def lowestPending (s : State) (n : Nat) (q : QpEntry) : Bool :=
  !s.host.qps.any (fun p => p.1 < n && schedCore p.2.ctx.toNat = schedCore q.ctx.toNat && p.2.fetchable)

/-- SQ_FETCH (R39, R141, R211, R216): core 2 + (n mod 4) serves bit 0; the entry at SQ_HEAD is fetched and reserves its
completion's slot. -/
def execSqFetch (qp : Qp) (s : State) : Host.Outcome State Fault Refusal :=
  .next <|
    let q := qpGet s qp
    if !coreRuns (schedCore q.ctx.toNat) s || s.service.quiesced || fetchHeld s || !q.fetchable ||
        !lowestPending s qp q then s
    else
      let e : BitVec 512 := BitVec.ofNat 512 (leNat (winBytes s (q.sqPages.1 * 4096 + 64 * q.sqHead) 64))
      let head := (q.sqHead + 1) % ringSize q.sqSize.toNat
      let s := winTouch (q.sqPages.1 * 4096 + 64 * q.sqHead) 64 s
      let s1 := dispatchBit (schedCore q.ctx.toNat) 0 { s with host := { s.host with nextFetch := s.host.nextFetch + 1 } }
      qpSet qp { q with sqHead := head, reserved := q.reserved + 1, fetched := q.fetched ++ [(s.host.nextFetch, e)]
                        pendingBit := head ≠ q.sqTail } s1

/-! ### The next command of a kind -/

/-- Listed opcodes (Table 5-1). -/
def opcodes : List Nat := [1, 2, 3, 4, 5, 6, 0x10, 0x11, 0x12, 0x13, 0x14]

/-- The row that processes an entry: a reserved opcode fails check 1 of Table 5-4. -/
def rowOf_ (e : BitVec 512) : Nat := if opcodes.contains (cmdByte e 0) then cmdByte e 0 else 1

/-- What a command names, for the order of R141: a handle, or a context. -/
def targetKey (s : State) (n : Nat) (e : BitVec 512) : Option Nat :=
  let op := cmdByte e 0
  if rowOf_ e = 1 then none
  else if op ≤ 6 then some (cmdField e 8 8)
  else some (2 ^ 64 + (if op = 0x12 then cmdField e 4 2 else (qpGet s n).ctx.toNat))

/-- The commands of queue pair `n` are processed. -/
def serves (n : Nat) (s : State) : Bool :=
  alive s && !s.faults.safe && !s.service.quiesced && (qpGet s n).armed

/-- The oldest fetched command of a row, unless one fetched before it names the same target; and the state without it. -/
def takeCmd (n row : Nat) (s : State) : Option (BitVec 512 × State) :=
  let q := qpGet s n
  match q.fetched.find? (fun f => rowOf_ f.2 = row) with
  | none => none
  | some (k, e) =>
    let t := targetKey s n e
    let before := s.host.qps.any (fun p => p.2.fetched.any (fun f => decide (f.1 < k) && t.isSome && targetKey s p.1 f.2 = t))
    if !serves n s || before then none
    else some (e, qpSet n { q with fetched := q.fetched.filter (fun f => f.1 ≠ k) } s)

/-- Processes the next command of a row. -/
def withCmd (n row : Nat) (f : BitVec 512 → State → State) (s : State) : State :=
  match takeCmd n row s with
  | some (e, s1) => f e s1
  | none => s

/-! ### SUBMIT checks (Table 5-4) -/

/-- A request: its descriptor fields. -/
structure Req where
  raw : Bool
  utf8 : Bool
  tokens : Nat
  maxNew : Nat
  page : Nat
  deliverCq : Nat

def reqOf (e : BitVec 512) : Req :=
  let raw := (cmdByte e 1).testBit 1
  { raw := raw, utf8 := (cmdByte e 1).testBit 0, tokens := cmdField e 0x1C 4, maxNew := cmdField e 0x20 4
    page := cmdField e 0x18 4, deliverCq := cmdField e 4 2 }

/-- Bytes of the request block (R142). -/
def Req.blockBytes (r : Req) : Nat := if r.raw then 64 + 256 else 64 + 4 * r.tokens

/-- The sampling fields of a descriptor as a record (Table 3-12). -/
def samplingOf (e : BitVec 512) : SampleRec :=
  { seed := 0, position := 0, temp := BitVec.ofNat 32 (cmdField e 0x24 4), topP := BitVec.ofNat 32 (cmdField e 0x28 4)
    minP := BitVec.ofNat 32 (cmdField e 0x2C 4), repPen := BitVec.ofNat 32 (cmdField e 0x30 4)
    topK := BitVec.ofNat 16 (cmdField e 0x34 2), penCount := BitVec.ofNat 16 (cmdField e 0x36 2) }

/-- Check 1: opcode, RSV and ranges (Table 5-2, R143). -/
def check1 (e : BitVec 512) : Bool :=
  let r := reqOf e
  cmdByte e 0 = 1 && decide (cmdByte e 1 < 4) && decide (r.deliverCq < 32768) && decide (cmdByte e 6 < 8) &&
  decide (r.page < 524288) &&
  (if r.raw then !r.utf8 && cmdByte e 7 = 0 && cmdField e 0x10 8 = 0 && cmdField e 0x1C 0x1C = 0
   else decide (cmdByte e 7 ≤ 24) && decide (1 ≤ r.tokens ∧ r.tokens ≤ 1048575) &&
     decide (1 ≤ r.maxNew ∧ r.maxNew ≤ 1048576 - r.tokens) && (samplingOf e).ok)

/-- Check 2: the block's pages lie in the window and outside armed submission queues. -/
def check2 (e : BitVec 512) (s : State) : Bool :=
  let r := reqOf e
  let n := (r.blockBytes + 4095) / 4096
  decide (r.page + n ≤ 524288) &&
    s.host.qps.all (fun q => !q.2.armed || !overlaps r.page n q.2.sqPages.1 q.2.sqPages.2)

/-- Run-slot records of a raw request's block. -/
def slotsOf (block : List Byte) : List (W64 × W32) :=
  (List.range 16).map (fun k => (le64 (block.drop (64 + 16 * k)), le32 (block.drop (72 + 16 * k))))

/-- Vocabulary size of a context's model: the logits' first dimension of its decode program's SAMPLE (R98). -/
def vocabSize (s : State) (ctx : Nat) : Option Nat :=
  (programOf s ctx .decode).bind (fun (_, p) =>
    ((p.stitches.map stitchOf).find? (fun st => st.opcode = 8)).bind (fun st => (p.desc st.src0).map (fun d => d.dim 0)))

/-- Check 3: DETAIL_CODE of the block's first failure, 0 for none (Table 5-4, R111). -/
def check3 (e : BitVec 512) (block : List Byte) (ctx : Nat) (s : State) : Nat :=
  let r := reqOf e
  if !zeros block 0x24 28 || (r.raw && (List.range 16).any (fun k => !zeros block (64 + 16 * k + 12) 4)) then 1
  else if r.raw then
    let slots := slotsOf block
    let outside := slots.any (fun sl => sl.2 ≠ 0 && Config.arenaSize ctx < sl.1.toNat + sl.2.toNat)
    let short := match programOf s ctx .raw with
      | some (_, p) => (p.descs.zipIdx.map (fun (v, n) => tdesc n v)).any (fun d =>
          d.kind = 3 && decide ((slots.getD (d.base % 16) (0, 0)).2.toNat < extentBytes d))
      | none => false
    if outside || short then 3 else 0
  else
    match vocabSize s ctx with
    | some v => if (List.range r.tokens).any (fun k => v ≤ n32 block (64 + 4 * k)) then 3 else 0
    | none => 0

/-- Bytes of a raw request's input slots, in slot order; output and unused slots have none (R154, R180). -/
def inputsOf (ctx : Nat) (slots : List (W64 × W32)) (s : State) : List (List Byte) :=
  let outs := ((programOf s ctx .raw).map (fun (_, p) => outputSlots p)).getD []
  slots.zipIdx.map (fun (sl, k) =>
    if outs.contains k then [] else peekBytes s (Config.arenaDpa ctx sl.1).toNat sl.2.toNat)

/-- Request lines of an extent (R180). -/
def reqBytesOf (e : BitVec 512) (block : List Byte) (inputs : List (List Byte)) : List Byte :=
  leBytes 64 e.toNat ++ padTo 64 block ++ inputs.flatMap (padTo 64)

/-- A free record in the member's own half. -/
def freeRecord (s : State) (fresh : Nat) : Option Nat :=
  let (lo, n) := ownPart 262144 s
  pickFree fresh lo n (fun i => (streamGet s i).st = .free && foreignGet s i = (0, 0))

/-- Room for an extent in the member's own half of the extent area (R179, R180). -/
def freeExtent (s : State) (fresh lines : Nat) : Option Nat :=
  let (lo, n) := ownPart (areaLines s) s
  placeIn fresh lo (lo + n) 1 lines (extentsUsed s)

/-- EXTENT_LINES of a request. -/
def extentLinesOf (r : Req) (reqLines : Nat) : Nat :=
  1 + reqLines + 2 * recordSlots r.raw r.maxNew + tokenLines r.raw r.utf8 r.maxNew

/-- The first failing check: status and DETAIL_CODE. -/
def submitFails (n : Nat) (e : BitVec 512) (s : State) : Option (Nat × Nat) :=
  let r := reqOf e
  let ctx := (qpGet s n).ctx
  let c := ctxGet s ctx.toNat
  let q := qpGet s r.deliverCq
  let block := winBytes s (r.page * 4096) r.blockBytes
  if !check1 e then some (stFormat, 1)
  else if !check2 e s then some (stFormat, 2)
  else if check3 e block ctx.toNat s ≠ 0 then some (stFormat, check3 e block ctx.toNat s)
  else if q.ctx ≠ ctx then some (stPerm, 4)
  else if !q.armed || (programOf s ctx.toNat (if r.raw then .raw else .decode)).isNone || c.burnishOpen ||
      s.pair.st = .pairing || (r.utf8 && ((modelOf s ctx.toNat).bind (·.vocab)).isNone) then some (stState, 5)
  else if c.modelKey = 0 then some (stKey, 6)
  else
    let inputs := if r.raw then inputsOf ctx.toNat (slotsOf block) s else []
    let lines := extentLinesOf r ((reqBytesOf e block inputs).length / 64)
    let elsewhere := sends s && s.pair.partner.any (fun b => b.freeRecords ≠ 0 && lines ≤ b.freeLines.toNat)
    if (freeRecord s s.freeCtr).isNone then (if elsewhere then some (stElsewhere, 7) else some (stFull, 8))
    else if (freeExtent s s.freeCtr lines).isNone ||
        s.service.rawInputMax.toNat < ((inputs.map (·.length)).sum) then some (stFull, 8)
    else none

/-- The stream a SUBMIT makes. -/
def streamOf (n : Nat) (e : BitVec 512) (block : List Byte) (ctx : BitVec 12) : Stream :=
  let r := reqOf e
  let w := fun off => BitVec.ofNat 32 (cmdField e off 4)
  let slots := if r.raw then slotsOf block else []
  { st := .submitted, ctx := ctx, raw := r.raw, utf8 := r.utf8, sq := BitVec.ofNat 16 n, cid := cmdCid e
    deliverCq := BitVec.ofNat 16 r.deliverCq, priority := BitVec.ofNat 3 (cmdByte e 6)
    recordTokens := if cmdByte e 7 = 0 then 24 else cmdByte e 7
    userTag := BitVec.ofNat 64 (cmdField e 8 8), seed := BitVec.ofNat 64 (cmdField e 0x10 8)
    prompt := if r.raw then [] else (List.range r.tokens).map (fun k => le32 (block.drop (64 + 4 * k)))
    maxNew := r.maxNew, temp := w 0x24, topP := w 0x28, minP := w 0x2C, repPen := w 0x30
    topK := BitVec.ofNat 16 (cmdField e 0x34 2), penWindow := BitVec.ofNat 16 (cmdField e 0x36 2)
    claim := BitVec.ofNat 64 (cmdField e 0x38 8)
    stopIds := ((List.range 4).map (fun k => le32 (block.drop (4 * k)))).filter (· ≠ 0xFFFFFFFF)
    deadlineTs := le64 (block.drop 0x10), coupling := le64 (block.drop 0x18), flushTicks := le32 (block.drop 0x20)
    slots := slots }

/-- Steps 1 to 4 of R154 for a SUBMIT that passed its checks; without a mirror to wait for, step 5 follows at once. -/
def takeSubmit (n : Nat) (e : BitVec 512) (s : State) : State :=
  let ctx := (qpGet s n).ctx
  let r := reqOf e
  let block := winBytes s (r.page * 4096) r.blockBytes
  let x0 := streamOf n e block ctx
  let req := reqBytesOf e block (if r.raw then inputsOf ctx.toNat x0.slots s else [])
  let lines := extentLinesOf r (req.length / 64)
  match freeRecord s s.freeCtr, freeExtent s s.freeCtr lines with
  | some i, some at_ =>
    let old := streamGet s i
    let x := { x0 with inc := old.inc + BitVec.ofNat 31 (b2n (old.used || s.power.recovered)), used := true, cinchTs := s.tsNow
                       extentLine := at_, extentLines := lines, reqLines := req.length / 64, reqBytes := req }
    let s0 := { s with service := { s.service with
      freeExtents := s.service.freeExtents.filter (fun f => !overlaps f.2.1 f.2.2 at_ lines) } }
    let s1 := streamSet i x (drawFree s0).2
    let slotLines := 2 * x.recordSlots + tokenLines x.raw x.utf8 x.maxNew
    let s2 := jZero (x.extentOff + 64 * (1 + x.reqLines)) slotLines s1
    let s3 := jPut x.extentOff (extentHeader x i (roleN s) req ++ req) .other s2
    let s4 := putIndex i (.cinch i) s3
    if waits s then s4 else cinch i s4
  | _, _ => s

/-- A SUBMIT, or an entry with a reserved opcode. -/
def submitCmd (n : Nat) (e : BitVec 512) (s : State) : State :=
  match submitFails n e s with
  | some (status, detail) => answer n e status detail 0 [] (count (2593 + (status - stState)) s)
  | none => takeSubmit n e (winTouch ((reqOf e).page * 4096) (reqOf e).blockBytes s)

def execSubmit (qp : Qp) (s : State) : Host.Outcome State Fault Refusal := .next (withCmd qp 1 (submitCmd qp) s)

/-! ### Commands that name a handle (R145, R155, R157, R166) -/

def execSuspend (qp : Qp) (s : State) : Host.Outcome State Fault Refusal := .next (withCmd qp 2 (handleCmd qp) s)
def execResume (qp : Qp) (s : State) : Host.Outcome State Fault Refusal := .next (withCmd qp 3 (handleCmd qp) s)
def execCancel (qp : Qp) (s : State) : Host.Outcome State Fault Refusal := .next (withCmd qp 4 (handleCmd qp) s)
def execQuery (qp : Qp) (s : State) : Host.Outcome State Fault Refusal := .next (withCmd qp 5 (handleCmd qp) s)
def execSetPriority (qp : Qp) (s : State) : Host.Outcome State Fault Refusal := .next (withCmd qp 6 (handleCmd qp) s)

end Sys2Proof.Machine
end

