-- ==== Sys2Proof/Machine/Translation.lean ====
section
/-!
DEFINITION. Machine/Translation.lean: walks, page requests, invalidations, transfer descriptors, heat
(09_translation.md).
-/
namespace Sys2Proof.Machine

/-- Mode for new walks (Table 9-1): 0 BYPASS, 1 ATS, 2 WALK. -/
def xlMode (s : State) : Nat := if !s.host.atsEn then 0 else if s.xl.valid then 2 else 1

/-- Engines with a descriptor. -/
def engineIds (s : State) : List Nat := s.xl.engines.map (·.1)

def bindingGet (s : State) (c : Nat) : Binding := tget (fun _ => {}) s.host.bindings c
def pasidOf (s : State) (ctx : Nat) : BitVec 20 := (bindingGet s ctx).pasid

/-! ### Held translations (Table 9-7) -/

def XEntry.bytes (t : XEntry) : Nat := match t.size.toNat with
  | 0 => 4096 | 1 => 2097152 | _ => 1073741824
def XEntry.covers (t : XEntry) (a : Nat) : Bool := t.va ≤ a && a < t.va + t.bytes

/-- OP 01h and 02h translate; 03h and 04h go to a partner window. -/
def Xfer.translates (x : Xfer) : Bool := x.op = 1 || x.op = 2
def Xfer.isWrite (x : Xfer) : Bool := x.op = 2
def Xfer.end_ (x : Xfer) : Nat := x.va.toNat + x.length

/-- Pages the descriptor touches, ascending (R270). -/
def Xfer.pages (x : Xfer) : List Nat :=
  let first := x.va.toNat / 4096
  (List.range ((x.end_ + 4095) / 4096 - first)).map (first + ·)

/-- The next page to resolve: one that no entry still in force covers. -/
def Xfer.nextPage (x : Xfer) : Option Nat :=
  x.pages.find? (fun p => !x.entries.any (fun t => !t.stale && t.covers (p * 4096)))

/-- Host physical address of a byte under the held translations. -/
def Xfer.hpaOf (x : Xfer) (va : Nat) : Nat :=
  match x.entries.find? (fun t => t.covers va) with
  | some t => t.hpa.toNat + (va - t.va)
  | none => 0

/-- Everything the descriptor needs is resolved, or the host translates: in BYPASS mode pages that are not held are left to
it. -/
def Xfer.resolved (x : Xfer) (s : State) : Bool := !x.translates || x.nextPage.isNone || xlMode s = 0

/-- Walkers in use. -/
def walksBusy (s : State) : Nat := (s.xl.walkQ.filter (fun e => (xferGet s e).any (·.walk.isSome))).length

/-! ### Host reads of engines (R220 to R222) -/

/-- Completion timeout in ticks (Table 7-12). -/
def ctoTicks (v : BitVec 4) : Nat :=
  match v.toNat with
  | 1 => 8000 | 2 => 800000 | 5 => 4000000 | 6 => 15000000 | 9 => 60000000 | 10 => 250000000
  | 13 => 1000000000 | 14 => 5000000000 | _ => 5000000

/-- A free read tag: neither outstanding nor in quarantine (R220, R223). -/
def freeTag (s : State) : Option Nat :=
  if s.host.tagPool.toNat ≤ s.host.reads.length then none
  else findBelow 16384 (fun t => !s.host.reads.any (fun r => r.tag = t) && !s.host.tagsQuar.any (fun q => q.1 = t))

/-- Issues one host read with a fresh tag; none while the reads must wait for one. -/
def issueRead (addr : Nat) (pasid : Option (BitVec 20)) (n : Nat) (use : ReadUse) (retries : Nat) (s : State) :
    Option State :=
  (freeTag s).map (fun t =>
    let r : HostRead := { tag := t, addr := BitVec.ofNat 64 addr, pasid := pasid, bytes := n, use := use
                          deadline := after (ctoTicks s.host.ctoValue) s, retries := retries }
    count 2546 (emit (.hostRead t r.addr pasid n) { s with host := { s.host with reads := s.host.reads ++ [r] } }))

/-- Pieces of a byte run: split at `limit` bytes and at 4 KiB boundaries. -/
def splitRun (limit : Nat) : Nat → Nat → Nat → List (Nat × Nat)
  | 0, _, _ => []
  | fuel + 1, a, n =>
    if n = 0 then []
    else
      let k := min n (min limit (4096 - a % 4096))
      (a, k) :: splitRun limit fuel (a + k) (n - k)

def mrrsBytes (s : State) : Nat := 128 * 2 ^ s.host.mrrs.toNat
def mpsBytes (s : State) : Nat := 128 * 2 ^ s.host.mps.toNat

/-- Issues the reads of an engine's chunk that tags allow. -/
def issueReads (e : Nat) : Nat → State → State
  | 0, s => s
  | fuel + 1, s =>
    match xferGet s e with
    | none => s
    | some x =>
      match x.toRead with
      | [] => s
      | (a, n, k) :: rest =>
        if !canRequest s then s
        else match issueRead a (some (pasidOf s x.ctx)) n (.engine e) k s with
          | none => s
          | some s1 => issueReads e fuel (xferSet e (some { x with toRead := rest }) s1)

/-- A walker's page-table read: untranslated and without a PASID (R263), with a tag of the pool like any other read (R220). -/
def issueWalkRead (e : Nat) (s : State) : State :=
  match xferGet s e with
  | none => s
  | some x =>
    match x.walk with
    | none => s
    | some w =>
      if !w.toIssue || !canRequest s then s
      else match issueRead w.at_ none 8 (.walker e) w.retries s with
        | none => s
        | some s1 => xferSet e (some { x with walk := some { w with toIssue := false } }) s1

/-- Every engine with reads still to issue takes the tags that have become free. -/
def pumpReads (s : State) : State :=
  foldS (engineIds s) (fun e s => issueReads e 1024 (issueWalkRead e s)) s

/-! ### Chunks (R270) -/

/-- Bytes of the chunk in progress. -/
def Xfer.chunkLen (x : Xfer) : Nat := min 65536 (x.length - x.moved)

/-- Window of an OP 03h or 04h descriptor: the context's lowest outgoing window that holds the offset. -/
def Xfer.window (x : Xfer) (s : State) : Option Nat :=
  (s.pair.winOut.find? (fun w => w.2.enable && w.2.ctx.toNat = x.ctx && x.end_ ≤ w.2.size.toNat * unit2M)).map (·.1)

/-- Lines of the HDM range that the chunk covers. -/
def Xfer.hdmRange (x : Xfer) : List Nat :=
  let a := x.dpa.toNat + x.moved
  (List.range ((a + x.chunkLen + 63) / 64 - a / 64)).map (a / 64 + ·)

/-- The chunk's HDM reads go to the device cache under the descriptor's class (R234, R254): a hit answers at once, a miss
waits for the line's home. A line that R130 or R123 keeps from the descriptor is not asked for. -/
def askLines (e : Nat) (s : State) : State :=
  match xferGet s e with
  | none => s
  | some x =>
    foldS x.hdmRange (fun l s =>
      let sl := dcSlice l
      if dpaRefuses s (64 * l) (some x.ctx) then s
      else match dcFind s true l with
        | some (_, d) => xferGot e (BitVec.ofNat 32 l) (dcOverlay s true l d.data) false (sliceCount sl 0 s)
        | none =>
          let f : DcFill := { line := BitVec.ofNat 32 l, cls := x.cls, cur := (eligibleWays s sl x.cls).isEmpty, engine := some e }
          sliceCount sl 1 { s with coh := { s.coh with fills := s.coh.fills ++ [f] } })
      (xferSet e (some { x with asked64 := true, got := [] }) s)

/-- The engine still waits for a line of its chunk. -/
def fillsOut (s : State) (e : Nat) : Bool := s.coh.fills.any (fun f => f.engine = some e)

/-- Lines of the descriptor's HDM range as the chunk has read them; one that was not asked for is refused here (R123, R130). -/
def Xfer.hdmLines (e : Nat) (x : Xfer) (s : State) : List Line × State :=
  x.hdmRange.foldl (fun (acc : List Line × State) l =>
    match x.got.find? (fun g => g.1.toNat = l) with
    | some g => (acc.1 ++ [⟨g.2.1, g.2.2⟩], acc.2)
    | none =>
      let r := readLine (.transferEngine (Fin.ofNat 64 e) (Fin.ofNat 4096 x.ctx)) (64 * l) acc.2
      (acc.1 ++ [r.1], r.2)) ([], s)

/-- The chunk's bytes of such lines. -/
def Xfer.chunkBytes (x : Xfer) (ls : List Line) : List Byte :=
  slice (ls.flatMap (fun l => lineBytes l.data)) ((x.dpa.toNat + x.moved) % 64) x.chunkLen

/-- A line behind bytes `off` to `off + n - 1` of the chunk came with poison. -/
def Xfer.poisonIn (x : Xfer) (ls : List Line) (off n : Nat) : Bool :=
  let a := (x.dpa.toNat + x.moved) % 64 + off
  ((ls.drop (a / 64)).take ((a + n + 63) / 64 - a / 64)).any (·.poison)

/-- The descriptor leaves its engine; reads it still has out belong to nobody. -/
def dropXfer (e : Nat) (s : State) : State :=
  let s1 := xferSet e none s
  { s1 with
    xl := { s1.xl with walkQ := s1.xl.walkQ.filter (· ≠ e)
                       prgs := s1.xl.prgs.map (fun p => { p with engines := p.engines.filter (· ≠ e) })
                       invs := s1.xl.invs.map (fun i => { i with engines := i.engines.filter (· ≠ e) }) }
    host := { s1.host with reads := s1.host.reads.map (fun r =>
      if r.use = .engine e || r.use = .walker e then { r with use := .orphan } else r) }
    coh := { s1.coh with fills := modAll (fun f => f.engine = some e) (fun f => { f with engine := none }) s1.coh.fills }
    pair := { s1.pair with winReqs := s1.pair.winReqs.filter (fun w => w.2 ≠ .engine e) } }

/-- A long operation is suspended at once (R166, R222, R274). -/
def opSuspend (j : Nat) (s : State) : State :=
  if (opGet s j).st = .running then putOp j .other (opMod j (fun x => { x with st := .suspended }) s) else s

/-- What becomes of the work a descriptor served when it ends without having moved its bytes. -/
def xferLost (u : XferUse) (s : State) : State :=
  match u with
  | .readback i _ => restart i 0xFF s
  | .spill i n =>
    match ((streamGet s i).kv)[n]? with
    | some k => setPage i n { k with moving := false } s
    | none => s
  | .longOp j => opSuspend j s
  | .other => s

/-- A descriptor fails (R274); `code` is the outcome of source 2772 + e. -/
def failXfer (e code : Nat) (s : State) : State :=
  match xferGet s e with
  | none => s
  | some x => xferLost x.use (raise (2772 + e) .uc code (emit (.xferEnd e x.tag (.failed code)) (dropXfer e s)))

/-- An OP 03h chunk whose lines have come leaves through the window. A window write carries no poison: a poisoned chunk fails
(DESIGN CHOICE, notes/assumptions/93.md). -/
def sendChunkLines (e w : Nat) (s : State) : State :=
  match xferGet s e with
  | none => s
  | some x =>
    let (ls, s1) := x.hdmLines e (xferSet e (some { x with chunk := true, poison := false }) s)
    if ls.any (·.poison) then failXfer e 7 s1
    else sendWindowWrite (.engine e) w x.ctx (x.va.toNat + x.moved) (x.chunkBytes ls) s1

/-- Starts the next chunk of an engine, where everything it needs is there. -/
def startChunk (e : Nat) (s : State) : State :=
  match xferGet s e with
  | none => s
  | some x =>
    if x.chunk || x.stopped || x.waitPrg.isSome || x.length ≤ x.moved || !x.resolved s then s
    else if x.translates then
      if !canRequest s then s
      else
        let bypass := x.nextPage.isSome
        let reads := if x.op = 1 && bypass then (splitRun (mrrsBytes s) 1024 (x.va.toNat + x.moved) x.chunkLen).map (fun r => (r.1, r.2, 0)) else []
        let s1 := issueReads e 1024 (xferSet e (some { x with chunk := true, bypass := bypass, toRead := reads, poison := false }) s)
        if x.op = 2 then askLines e s1 else s1
    else
      match x.window s with
      | none => s
      | some w =>
        if !s.viaduct.up || fillsOut s e then s
        else if x.op = 3 && !x.asked64 then
          let s1 := askLines e s
          if fillsOut s1 e then s1 else sendChunkLines e w s1
        else
          let off := x.va.toNat + x.moved
          let s1 := xferSet e (some { x with chunk := true, poison := false }) s
          if x.op = 3 then sendChunkLines e w s
          else
            let first := off / 64
            let total := (off + x.chunkLen + 63) / 64 - first
            foldS (List.range ((total + 63) / 64)) (fun g s =>
              let t := s.viaduct.nextTag
              let m := ViaMsg.wRead t w x.ctx (BitVec.ofNat 64 ((first + 64 * g) * 64)) (min 64 (total - 64 * g))
              { s with viaduct := { s.viaduct with window := s.viaduct.window ++ [m], nextTag := t + 1 }
                       pair := { s.pair with winReqs := s.pair.winReqs ++ [(t, .engine e)] } }) s1

/-- Every engine that can starts its next chunk; it is tried again when the host port comes back. -/
def pumpEngines (s : State) : State := foldS (engineIds s) startChunk s

/-- What a descriptor serves: the spill or read-back it fits, or the running long operation of its context. -/
def useOf (s : State) (op : Nat) (ctx : Nat) (va dpa : Nat) : XferUse :=
  let c := ctxGet s ctx
  let pages := (liveOf s ctx).flatMap (fun i => (streamGet s i).kv.zipIdx.map (fun (k, n) => (i, n, k)))
  let home := fun (k : KvPage) => (dpaOfLocal s.store.regions k.pier (k.frame * 256)).any (fun b => b ≤ dpa && dpa < b + k.bytes)
  let slot := fun (k : KvPage) =>
    let b := c.spillVa.toNat + k.frame * c.spillSlotKib.toNat * 1024
    decide (b ≤ va ∧ va < b + k.bytes)
  match pages.find? (fun w => w.2.2.moving && ((op = 2 && w.2.2.resident && home w.2.2) || (op = 1 && !w.2.2.resident && slot w.2.2))) with
  | some (i, n, _) => if op = 2 then .spill i n else .readback i n
  | none =>
    let covers := fun j =>
      let o := opGet s j
      o.st = .running && o.ctx.toNat = ctx &&
        ((o.opcode = 0x10 && op = 1) ||
         (o.opcode = 0x14 && (let b := cmdField o.entry 8 8; b ≤ va && va < b + 4096 * o.totalUnits.toNat)))
    match (opIds s).find? covers with
    | some j => .longOp j
    | none => .other

/-- TRANSFER_DESCRIPTOR (Table 9-6, R17, R270): a malformed one is answered REJECT_FORMAT; an accepted one joins the walk
queue. -/
def execTransferDescriptor (engine : Engine) (desc : BitVec 512) (s : State) : Host.Outcome State Fault Refusal :=
  .next <|
    let e := engine.val
    let f := cmdField desc
    let op := f 0 1
    let cls := f 4 1
    let len := f 0x18 4
    let bad := op = 0 || 4 < op || 1 < f 1 1 || 4096 ≤ f 2 2 || !(cls = 1 || cls = 2 || (9 ≤ cls && cls ≤ 15)) ||
      f 5 3 ≠ 0 || len = 0 || 262144 < len || f 0x20 32 ≠ 0
    if !alive s || s.faults.safe || s.service.quiesced || (xferGet s e).isSome ||
        s.faults.resets.any (fun r => r.block = .engine engine) then s
    else if bad then emit (.xferEnd e (BitVec.ofNat 32 (f 0x1C 4)) .reject) s
    else
      let x : Xfer :=
        { op := BitVec.ofNat 8 op, heat := f 1 1 = 1, ctx := f 2 2, cls := cls, va := BitVec.ofNat 64 (f 8 8)
          dpa := BitVec.ofNat 64 (f 0x10 8), length := len, tag := BitVec.ofNat 32 (f 0x1C 4)
          use := useOf s op (f 2 2) (f 8 8) (f 0x10 8), entries := [], moved := 0, asked := [], waitPrg := none
          chunk := false, stopped := false }
      let s1 := xferSet e (some x) s
      let s2 := if x.translates then { s1 with xl := { s1.xl with walkQ := s1.xl.walkQ ++ [e] } } else s1
      startChunk e s2

/-! ### Page requests (R272, Tables 9-5, 9-8) -/

/-- Outcome codes of source 2772 + e. -/
def xlRsv : Nat := 1
def xlPerm : Nat := 2
def xlRoot : Nat := 3
def xlRead : Nat := 4
def xlFault : Nat := 5

/-- Engine `e` needs page `page` from the host. -/
def needPage (e page : Nat) (write : Bool) (s : State) : State :=
  match xferGet s e with
  | none => s
  | some x =>
    let times := ((x.asked.find? (fun a => a.1 = page)).map (·.2)).getD 0
    let asked := x.asked.filter (fun a => a.1 ≠ page) ++ [(page, times + 1)]
    let pasid := pasidOf s x.ctx
    if 2 ≤ times || !s.host.priEn || s.xl.priStopped then failXfer e xlFault s
    else
      match s.xl.prgs.find? (fun p => p.pasid = pasid && p.page = page) with
      | some p =>
        let joins := p.write || !write
        let s1 := xferSet e (some { x with waitPrg := some p.index, asked := if joins then asked else x.asked }) s
        { s1 with xl := { s1.xl with
          prgs := modFirst (· = p) (fun p => { p with engines := p.engines ++ [e] }) s1.xl.prgs } }
      | none =>
        let used := fun i => s.xl.prgs.any (fun p => p.index = i) || s.xl.prgQuar.any (fun q => q.1 = i)
        if s.xl.prAlloc ≤ s.xl.prgs.length + s.xl.prgQuar.length then s
        else match findBelow 512 (fun i => !used i) with
          | none => s
          | some i =>
            let p : Prg := { index := i, pasid := pasid, page := page, write := write, engines := [e]
                             deadline := after s.xl.priTimeout.toNat s }
            let s1 := xferSet e (some { x with waitPrg := some i, asked := asked }) s
            emit (.pageRequest i pasid page write) { s1 with xl := { s1.xl with prgs := s1.xl.prgs ++ [p] } }

/-- A page is resolved: the entry joins the list, and the first chunk may start. -/
def resolvePage (e : Nat) (t : XEntry) (s : State) : State :=
  match xferGet s e with
  | none => s
  | some x =>
    let x1 := { x with entries := x.entries.takeWhile (fun u => u.va < t.va) ++ [t] ++ x.entries.dropWhile (fun u => u.va < t.va) }
    startChunk e (xferSet e (some x1) s)

/-! ### Walks (R265 to R269) -/

/-- A flag sub-index of Table 9-2: none where the format has no such bit. -/
def flagOf (f : Byte) (pte : W64) : Option Bool :=
  if f.getLsbD 7 then none else some (pte.getLsbD (fld f 0 6) ^^ f.getLsbD 6)

def levelAt (s : State) (l : Nat) : PteLevel := s.xl.level.getD l ⟨0, 0, 0, 0, 0⟩

/-- Address field bits [ADDR_HI:lo] of an entry, in place. -/
def pteBase (s : State) (pte : W64) (lo : Nat) : Nat := fld pte lo (s.xl.addrHi.toNat + 1 - lo) * 2 ^ lo

/-- What a walk comes to: a leaf, a failure, a page request, the next table, or an entry to be read. -/
inductive WalkEnd where
  | leaf (t : XEntry)
  | fault (code : Nat)
  | request (write : Bool)
  | table (base : Nat)
  | read (level addr : Nat)
deriving DecidableEq, Repr

/-- Table pointers used most recently stand last; 1,024 are kept (R269). -/
def cachePut (w : WalkEntry) (l : List WalkEntry) : List WalkEntry :=
  let rest := l.filter (fun v => !(v.pasid = w.pasid && v.level = w.level && v.vaTop = w.vaTop)) ++ [w]
  rest.drop (rest.length - 1024)

/-- What an entry of level `l` says of an access (the body of R268's loop). -/
def judgeEntry (s : State) (va : Nat) (write : Bool) (l : Nat) (pte : W64) : WalkEnd :=
  let lv := levelAt s l
  let lo := lv.idxLo.toNat
  let fl := s.xl.flags
  let isLeaf := l = 0 || (lv.leafOk = 1 && flagOf s.xl.largeBit pte = some true)
  let rsv := pte &&& (if isLeaf then lv.rsvLeaf else lv.rsvTable)
  let present := (flagOf s.xl.pBit pte).getD true
  let checkU := isLeaf || fl.getLsbD 1
  let checkW := write && (isLeaf || fl.getLsbD 0)
  if fl.getLsbD 3 && rsv ≠ 0 then .fault xlRsv
  else if !present then .request write
  else if checkU && flagOf s.xl.uBit pte = some false then .fault xlPerm
  else if checkW && flagOf s.xl.wBit pte = some false then .request true
  else if !isLeaf then .table (pteBase s pte 12)
  else
    let adOk := !fl.getLsbD 2 || (flagOf s.xl.aBit pte ≠ some false && !(write && flagOf s.xl.dBit pte = some false))
    if !adOk then .request write
    else
      let size : BitVec 2 := if lo = 12 then 0 else if lo = 21 then 1 else 2
      .leaf { va := va / 2 ^ lo * 2 ^ lo, hpa := BitVec.ofNat 52 (pteBase s pte lo), size := size
              w := (flagOf s.xl.wBit pte).getD true, stale := false }

/-- From level `l` down, `tbl` the table's address: entries the walk cache holds are taken from it, up to the first one that
has to be read. It answers what the walk comes to, and the walk cache after. -/
def walkDown (s : State) (pasid : BitVec 20) (va : Nat) (write : Bool) :
    (l : Nat) → (tbl : Nat) → List WalkEntry → WalkEnd × List WalkEntry
  | l, tbl, cache =>
    let lv := levelAt s l
    let lo := lv.idxLo.toNat
    let key := va / 2 ^ lo
    match l, (if l = 0 then none else cache.find? (fun w => w.pasid = pasid && w.level = l && w.vaTop = key)) with
    | l' + 1, some w =>
      match judgeEntry s va write (l' + 1) w.pte with
      | .table base => walkDown s pasid va write l' base (cachePut w cache)
      | o => (o, cache)
    | _, _ => (.read l (tbl + 8 * (key % 2 ^ lv.idxWidth.toNat)), cache)

/-- The entry of level `l` has been read: it is judged, a table pointer joins the walk cache and the walk goes on below. -/
def walkOn (s : State) (pasid : BitVec 20) (va : Nat) (write : Bool) (l : Nat) (pte : W64) (cache : List WalkEntry) :
    WalkEnd × List WalkEntry :=
  match l, judgeEntry s va write l pte with
  | l' + 1, .table base =>
    walkDown s pasid va write l' base (cachePut ⟨pasid, l' + 1, va / 2 ^ (levelAt s (l' + 1)).idxLo.toNat, pte⟩ cache)
  | _, o => (o, cache)

/-- The engine may start a walk now: it is among those that the free walkers of the 32 go to, in submission order (R268). -/
def mayWalk (s : State) (e : Nat) : Bool :=
  let ready := s.xl.walkQ.filter (fun e => (xferGet s e).any (fun x =>
    x.nextPage.isSome && x.waitPrg.isNone && !x.stopped && x.atsPage.isNone && x.walk.isNone && !(x.chunk && x.bypass)))
  (ready.take (32 - walksBusy s)).contains e

/-- A walk of another engine occupies the walker (R268). -/
def walkerBusy (k : Nat) (s : State) : Bool := s.xl.walkQ.any (fun e => (xferGet s e).any (·.walk.any (·.walker = k)))

/-- Carries out what walker `k`'s walk of page `page` has come to; `discarded` where an invalidation met it in flight (R273 step 4). -/
def walkResult (e k page : Nat) (discarded : Bool) (o : WalkEnd) (s : State) : State :=
  match xferGet s e with
  | none => s
  | some x =>
    match o with
    | .read l a =>
      issueWalkRead e (xferSet e (some { x with walk := some { walker := k, page := page, level := l, at_ := a, discarded := discarded, toIssue := true } }) s)
    | o =>
      let s1 := xferSet e (some { x with walk := none }) s
      if discarded then s1
      else match o with
        | .leaf t => resolvePage e t s1
        | .fault c => failXfer e c s1
        | .request w => needPage e page w s1
        | _ => s1

/-- WALK (R263, R268, R269): a walker takes the engine's next unresolved page and asks for the first entry that the walk cache
does not hold; in ATS mode a Translation Request goes out. The mode is that of the moment the walk starts. -/
def execWalk (engine : Engine) (walker : Fin 32) (s : State) : Host.Outcome State Fault Refusal :=
  .next <|
    let e := engine.val
    match xferGet s e with
    | none => s
    | some x =>
      match x.nextPage with
      | none => s
      | some page =>
        let pasid := pasidOf s x.ctx
        if !canRequest s || !mayWalk s e || xlMode s = 0 then s
        else if xlMode s = 1 then
          emit (.atsRequest e pasid page x.isWrite) (xferSet e (some { x with atsPage := some (page, false) }) s)
        else if walkerBusy walker.val s then s
        else
          let root := tget (fun _ => ((0 : BitVec 52), false)) s.xl.roots x.ctx
          if !root.2 then failXfer e xlRoot s
          else
            let (o, cache) := walkDown s pasid (page * 4096) x.isWrite (s.xl.levels.toNat - 1) (root.1.toNat * 4096) s.xl.walkCache
            walkResult e walker.val page false o { s with xl := { s.xl with walkCache := cache } }

/-- A page-table entry has been read for the engine's walk. -/
def walkData (e : Nat) (pte : W64) (s : State) : State :=
  match xferGet s e with
  | none => s
  | some x =>
    match x.walk with
    | none => s
    | some w =>
      let (o, cache) := walkOn s (pasidOf s x.ctx) (w.page * 4096) x.isWrite w.level pte s.xl.walkCache
      walkResult e w.walker w.page w.discarded o { s with xl := { s.xl with walkCache := if w.discarded then s.xl.walkCache else cache } }

/-- A page-table read has failed for good (Table 9-5 XLATE_READ). -/
def walkReadFailed (e : Nat) (s : State) : State :=
  match xferGet s e with
  | none => s
  | some x =>
    match x.walk with
    | none => s
    | some w => walkResult e w.walker w.page w.discarded (.fault xlRead) s

/-- ATS_TRANSLATION_COMPLETION (R268): a translation without the right it needs leads to a page request. -/
def execAtsTranslationCompletion (engine : Engine) (hpa : BitVec 52) (size : BitVec 2) (r w : Bool) (s : State) :
    Host.Outcome State Fault Refusal :=
  .next <|
    let e := engine.val
    match xferGet s e with
    | none => s
    | some x =>
      match x.atsPage with
      | none => s
      | some (page, discarded) =>
        let s1 := xferSet e (some { x with atsPage := none }) s
        if !alive s || size = 3 then s
        else if discarded then s1
        else if !(if x.isWrite then w else r) then needPage e page x.isWrite s1
        else
          let t : XEntry := { va := 0, hpa := 0, size := size, w := w, stale := false }
          let n := t.bytes
          resolvePage e { t with va := page * 4096 / n * n, hpa := BitVec.ofNat 52 (hpa.toNat / n * n) } s1

/-- A page request has had no response within PRI_TIMEOUT: its descriptors fail and its index is quarantined (Table 9-8). -/
def prgTimesOut (p : Prg) (s : State) : State :=
  foldS p.engines (fun e => failXfer e xlFault) { s with xl := { s.xl with
    prgs := s.xl.prgs.filter (fun q => q.index ≠ p.index)
    prgQuar := s.xl.prgQuar ++ [(p.index, after (4 * s.xl.priTimeout.toNat) s)] } }

/-- The response of a quarantined index: discarded and counted. -/
def latePrg (i : Nat) (s : State) : State :=
  count 2555 { s with xl := { s.xl with prgQuar := s.xl.prgQuar.filter (fun q => q.1 ≠ i) } }

/-- PRG_RESPONSE (Table 9-8); one that comes after PRI_TIMEOUT meets a quarantined index. -/
def execPrgResponse (index : Fin 512) (code : Fin 3) (s : State) : Host.Outcome State Fault Refusal :=
  .next <|
    let i := index.val
    if !alive s then s
    else if s.xl.prgQuar.any (fun q => q.1 = i) then latePrg i s
    else
      match s.xl.prgs.find? (fun p => p.index = i) with
      | none => s
      | some p =>
        let s1 := { s with xl := { s.xl with prgs := s.xl.prgs.filter (fun q => q.index ≠ i)
                                             priStopped := s.xl.priStopped || code = 2 } }
        if due p.deadline s then latePrg i (prgTimesOut p s)
        else foldS p.engines (fun e s =>
          if code = 0 then
            match xferGet s e with
            | some x => xferSet e (some { x with waitPrg := none }) s
            | none => s
          else failXfer e xlFault s) s1

/-- PRI_TIMEOUT (Table 9-8). -/
def execPriTimeout (index : Fin 512) (s : State) : Host.Outcome State Fault Refusal :=
  .next <|
    match s.xl.prgs.find? (fun p => p.index = index.val) with
    | none => s
    | some p =>
      if !alive s || !due p.deadline s then s else prgTimesOut p s

/-- PRG_QUARANTINE_EXPIRY (Table 9-8). -/
def execPrgQuarantineExpiry (index : Fin 512) (s : State) : Host.Outcome State Fault Refusal :=
  .next { s with xl := { s.xl with prgQuar := s.xl.prgQuar.filter (fun q => !(q.1 = index.val && due q.2 s)) } }

/-- PRI_ENABLE (R272): clearing and setting it ends PRI_STOPPED. -/
def setPriEnable (v : Bool) (s : State) : State :=
  { s with host := { s.host with priEn := v }
           xl := { s.xl with priStopped := s.xl.priStopped && !(v && !s.host.priEn) } }

def execPriEnable (value : Bool) (s : State) : Host.Outcome State Fault Refusal :=
  .next (if cfgOpen s then setPriEnable value s else s)

/-! ### Invalidation (R273) -/

/-- The walk-cache entry's table lies over the range. -/
def WalkEntry.overlaps (w : WalkEntry) (s : State) (va n : Nat) : Bool :=
  let lo := (levelAt s w.level).idxLo.toNat
  Machine.overlaps (w.vaTop * 2 ^ lo) (2 ^ lo) va n

/-- Marks entries STALE, by a predicate on descriptor and entry; the engines that hold one. -/
def markStale (p : Xfer → XEntry → Bool) (ats : Xfer → Nat → Bool) (s : State) : List Nat × State :=
  (engineIds s).foldl (fun (acc : List Nat × State) e =>
    match xferGet acc.2 e with
    | none => acc
    | some x =>
      let hit := x.entries.any (p x)
      let x1 : Xfer := { x with
        entries := modAll (p x) (fun t => { t with stale := true }) x.entries
        atsPage := x.atsPage.map (fun a => (a.1, a.2 || ats x a.1))
        walk := x.walk.map (fun w => { w with discarded := w.discarded || ats x w.page }), stopped := x.stopped || hit }
      (if hit then acc.1 ++ [e] else acc.1, xferSet e (some x1) acc.2)) ([], s)

/-- An Invalidate Request is accepted (R273 steps 1 to 4). -/
def invalidate (q : Nat × BitVec 20 × W64 × Nat × Bool) (s : State) : State :=
  let (itag, pasid, va, bytes, global) := q
  let a := va.toNat
  let mine := fun (q : BitVec 20) => global || q = pasid
  let s1 := { s with xl := { s.xl with
    walkCache := s.xl.walkCache.filter (fun w => !(mine w.pasid && w.overlaps s a bytes)) } }
  let (es, s2) := markStale (fun x t => x.translates && mine (pasidOf s x.ctx) && overlaps t.va t.bytes a bytes)
    (fun x page => mine (pasidOf s x.ctx) && overlaps (page * 4096) 4096 a bytes) s1
  { s2 with xl := { s2.xl with invs := s2.xl.invs ++ [⟨itag, es⟩] } }

/-- An Invalidate Request must stay in the port's posted queue: 32 are outstanding (R264), or one of its ITag is, or others
wait before it. -/
def invHeld (itag : Nat) (s : State) : Bool :=
  32 ≤ s.xl.invs.length || s.xl.invs.any (fun i => i.itag = itag)

/-- ATS_INVALIDATE (R264, R273). -/
def execAtsInvalidate (itag : Fin 32) (pasid : BitVec 20) (va : W64) (bytes : Nat) (global : Bool) (s : State) :
    Host.Outcome State Fault Refusal :=
  .next <|
    let q := (itag.val, pasid, va, bytes, global)
    if !alive s || !s.host.dlUp then s
    else if invHeld itag.val s || !s.xl.invWait.isEmpty then { s with xl := { s.xl with invWait := s.xl.invWait ++ [q] } }
    else invalidate q s

/-- The oldest Invalidate Request of the posted queue is accepted where it may be. -/
def takeInvalidate (s : State) : State :=
  match s.xl.invWait with
  | q :: rest => if invHeld q.1 s then s else invalidate q { s with xl := { s.xl with invWait := rest } }
  | [] => s

/-- Engines of bound contexts that no outstanding invalidation holds any more go on: STALE entries go, their pages are resolved again. -/
def resumeEngines (s : State) : State :=
  foldS (engineIds s) (fun e s =>
    match xferGet s e with
    | none => s
    | some x =>
      if !x.stopped || (x.translates && !(bindingGet s x.ctx).bound) || s.xl.invs.any (fun i => i.engines.contains e) then s
      else
        startChunk e (xferSet e (some { x with stopped := false, entries := x.entries.filter (fun t => !t.stale) }) s)) s

/-- ATS_INVALIDATE_COMPLETION (R273 steps 5, 6): every affected descriptor has stopped or ended. -/
def execAtsInvalidateCompletion (itag : Fin 32) (s : State) : Host.Outcome State Fault Refusal :=
  .next <|
    match s.xl.invs.find? (fun i => i.itag = itag.val) with
    | none => s
    | some i =>
      let busy := i.engines.any (fun e => (xferGet s e).any (·.chunk))
      if !alive s || busy then s
      else takeInvalidate (resumeEngines (emit (.atsInvalidateCpl itag.val)
        { s with xl := { s.xl with invs := s.xl.invs.filter (fun j => j.itag ≠ itag.val) } }))

/-! ### Heat (R275, R276) -/

def hotSlots (s : State) : Nat := 64 * 2 ^ s.xl.hotSize.toNat

/-- A hot-page record for a counter that has risen to the threshold; true where it was written. -/
def hotReport (h : Heat) (s : State) : Bool × State :=
  let x := s.xl
  let slot := x.hotW % hotSlots s
  if !x.hotEn || !canRequest s then (false, s)
  else if (slot + 1) % hotSlots s = x.hotHead.toNat then (false, count 2611 s)
  else
    let at_ := x.hotBase.toNat * 4096 + 16 * slot
    let body := leBytes 2 h.ctx ++ leBytes 4 h.count ++ leBytes 8 (h.region * 2 ^ 21)
    let flag := [BitVec.ofNat 8 (1 - x.hotW / hotSlots s % 2), 0]
    let s1 := hostWrite (BitVec.ofNat 64 at_) none flag (hostWrite (BitVec.ofNat 64 (at_ + 2)) none body s)
    let s2 := { s1 with xl := { s1.xl with hotW := x.hotW + 1 } }
    (true, if x.hotIen then interrupt x.hotVector s2 else s2)

/-- The counter that takes a region: its own, a free one, or the one with the lowest count, lowest slot. -/
def heatSlot (s : State) (ctx region : Nat) : Heat × State :=
  match s.xl.heats.find? (fun h => h.ctx = ctx && h.region = region) with
  | some h => (h, s)
  | none =>
    let fresh := fun n => ({ slot := n, ctx := ctx, region := region, count := 0, reported := false } : Heat)
    let put := fun (h : Heat) (s : State) => { s with xl := { s.xl with heats := s.xl.heats ++ [h] } }
    if s.xl.heats.length < 4096 then
      let n := (findBelow 4096 (fun n => !s.xl.heats.any (fun h => h.slot = n))).getD 0
      (fresh n, put (fresh n) s)
    else
      let best := s.xl.heats.foldl (fun (b : Option Heat) h =>
        match b with
        | none => some h
        | some g => if h.count < g.count || (h.count = g.count && h.slot < g.slot) then some h else b) none
      let n := (best.map (·.slot)).getD 0
      (fresh n, put (fresh n) (count 2611 { s with xl := { s.xl with heats := s.xl.heats.filter (fun h => h.slot ≠ n) } }))

/-- One line of a HEAT transfer. -/
def heatLine (ctx va : Nat) (s : State) : State :=
  let (h, s1) := heatSlot s ctx (va / 2 ^ 21)
  let h1 := { h with count := h.count + 1 }
  let thr := s.xl.hotThreshold.toNat
  let rose := h.count < thr && thr ≤ h1.count && !h.reported
  let (wrote, s2) := if rose then hotReport h1 s1 else (false, s1)
  let h2 := { h1 with reported := h1.reported || wrote }
  { s2 with xl := { s2.xl with heats := modFirst (fun g => g.slot = h.slot) (fun _ => h2) s2.xl.heats } }

/-- HEAT_DECAY (R275). -/
def execHeatDecay (s : State) : Host.Outcome State Fault Refusal :=
  .next <|
    if !alive s || !due s.xl.nextDecay s then s
    else
      let half := fun (h : Heat) =>
        let c := h.count / 2
        { h with count := c, reported := h.reported && !(2 * c < s.xl.hotThreshold.toNat) }
      { s with xl := { s.xl with heats := s.xl.heats.map half, nextDecay := s.xl.nextDecay + s.xl.decayTicks.toNat } }

/-- A write of HOT_CTL (Table 9-12): SIZE holds while EN is 1; setting EN restarts the ring. -/
def hotCtlWrite (v : W32) (s : State) : State :=
  let en := v.getLsbD 31
  let size := BitVec.ofNat 4 (fld v 0 4)
  let s1 := if s.xl.hotEn && size ≠ s.xl.hotSize then countIgnored 0x80108 s else s
  let x := s1.xl
  { s1 with xl := { x with
      hotEn := en, hotIen := v.getLsbD 30, hotVector := BitVec.ofNat 11 (fld v 19 11)
      hotSize := if x.hotEn || 10 < size.toNat then x.hotSize else size
      hotHead := if en && !x.hotEn then 0 else x.hotHead, hotW := if en && !x.hotEn then 0 else x.hotW } }

/-- HOT_RING_ENABLE (R276). -/
def execHotRingEnable (value : W32) (s : State) : Host.Outcome State Fault Refusal :=
  .next (if writable s then hotCtlWrite value s else s)

/-! ### End of a chunk (R270, R271) -/

/-- Host lines that a chunk reads through the device cache, in the translated modes; the fills are what the host answers
on a miss. -/
def cacheLines (cls : Nat) (lines : List (Nat × LineData)) (s : State) : List LineData × Bool × State :=
  lines.foldl (fun (acc : List LineData × Bool × State) (h, d) =>
    match dcHostRead cls (BitVec.ofNat 46 (h / 64)) d false acc.2.2 with
    | some (l, s) => (acc.1 ++ [l.data], acc.2.1 || l.poison, s)
    | none => (acc.1 ++ [d], acc.2.1, acc.2.2)) ([], false, s)

/-- Writes of an outward chunk: split at the pages and to the Max_Payload_Size (R220), with the address and mark of the
chunk's mode (R263), and EP where a line behind them came with poison (R224). -/
def writeHost (x : Xfer) (b : List Byte) (ls : List Line) (s : State) : State :=
  let va := x.va.toNat + x.moved
  foldS (splitRun (mpsBytes s) 4096 va b.length) (fun (a, n) s =>
    hostWrite (BitVec.ofNat 64 (if x.bypass then a else x.hpaOf a)) (some (pasidOf s x.ctx)) (slice b (a - va) n) s
      { translated := !x.bypass, poisoned := x.poisonIn ls (a - va) n }) s

/-- Bytes that an outward chunk sends: a spilled page leaves as ciphertext of the spill key (R343). -/
def outBytes (x : Xfer) (ls : List Line) (s : State) : List Byte :=
  match x.use with
  | .spill i _ => (List.range x.chunkLen).map (fun k => Config.spillByte (ctxGet s x.ctx).spillCtr.toNat i (x.moved + k))
  | _ => x.chunkBytes ls

/-- A descriptor has moved every byte. -/
def doneXfer (e : Nat) (s : State) : State :=
  match xferGet s e with
  | none => s
  | some x =>
    let s1 := emit (.xferEnd e x.tag .done) (dropXfer e s)
    match x.use with
    | .longOp j => opMod j (fun o => { o with xferDone := o.xferDone + 1 }) s1
    | .spill i n | .readback i n =>
      match (streamGet s1 i).kv[n]? with
      | some k => setPage i n { k with moved := k.moved + x.length } s1
      | none => s1
    | .other => s1

/-- The chunk's bytes have been moved: the descriptor is done, or its next chunk starts. -/
def chunkMoved (e : Nat) (s : State) : State :=
  match xferGet s e with
  | none => s
  | some x =>
    let n := x.chunkLen
    let va := x.va.toNat + x.moved
    let first := va / 64
    let s1 := countN (1600 + 2 * e) n
      (xferSet e (some { x with moved := x.moved + n, chunk := false, written := false, asked64 := false, got := [] }) s)
    let s2 := if x.heat then foldS ((List.range ((va + n + 63) / 64 - first)).filter (fun i => x.moved = 0 || va ≤ (first + i) * 64))
      (fun i => heatLine x.ctx ((first + i) * 64)) s1 else s1
    if x.length ≤ x.moved + n then doneXfer e s2 else startChunk e s2

/-- Stores of the engine wait at their homes (R271: DONE once the last read data has been written there). -/
def engineStores (s : State) (e : Nat) : Bool := s.coh.posted.any (fun p => p.requester = .engine (Fin.ofNat 64 e))

/-- TRANSFER_CHUNK_END (R270): the chunk in progress has returned its reads or sent its writes; one whose WR_INVs still wait
ends with a later one of these. -/
def execTransferChunkEnd (engine : Engine) (data : List LineData) (s : State) : Host.Outcome State Fault Refusal :=
  .next <|
    let e := engine.val
    match xferGet s e with
    | none => s
    | some x =>
      let waiting := !x.toRead.isEmpty || s.host.reads.any (fun r => r.use = .engine e) ||
        s.pair.winReqs.any (fun w => w.2 = .engine e) || fillsOut s e
      -- requests of its own that the chunk has still to make wait while none may be issued (R227, R228)
      let held := (x.op = 2 || (x.op = 1 && !x.bypass)) && !canRequest s && !x.written
      if !alive s || !x.chunk || waiting || held then s
      else if x.written then (if engineStores s e then s else chunkMoved e s)
      else
        let n := x.chunkLen
        let va := x.va.toNat + x.moved
        let ctx : Ctx := Fin.ofNat 4096 x.ctx
        let first := va / 64
        let given := (List.range ((va + n + 63) / 64 - first)).map (fun i => ((first + i) * 64, data.getD i 0))
        let (lines, poison, s1) : List LineData × Bool × State :=
          if x.op = 1 && !x.bypass then cacheLines x.cls (given.map (fun g => (x.hpaOf (max g.1 va) / 64 * 64, g.2))) s
          else (given.map (·.2), x.poison, s)
        let s2 :=
          if x.op = 1 || x.op = 4 then
            let b := slice (lines.flatMap lineBytes) (va % 64) n
            if poison then failXfer e 7 s1
            else match x.use with
              | .readback _ _ => s1
              | _ => pokeBytes (.transferEngine engine ctx) (x.dpa.toNat + x.moved) b s1
          else if x.op = 2 then
            let (ls, s1) := x.hdmLines e s1
            writeHost x (outBytes x ls s1) ls s1
          else s1
        match xferGet s2 e with
        | none => s2
        | some y => if engineStores s2 e then xferSet e (some { y with written := true }) s2 else chunkMoved e s2

/-- CMP (R241, R243): slot 0's host port accepts at once; WR_INV, FLUSH and requesters that cache nothing send no GRANT_ACK.
A line the device cache has read may let an engine's chunk go on. -/
def execCmp (line : LineAddr) (s : State) : Host.Outcome State Fault Refusal :=
  .next <|
    match busyTxn s line with
    | some t =>
      if alive s && t.phase = .ready && fwdArrived s t then
        let s1 := releaseCmps (completeTxn t s)
        if reqAgent t.requester = some 7 then pumpEngines s1 else s1
      else s
    | none => s

/-! ### Registers of translation (R266, R269) -/

/-- Every walk-cache entry goes (R269). -/
def flushWalks (s : State) : State := { s with xl := { s.xl with walkCache := [] } }

/-- CTX_ROOT n (Table 9-13). -/
def ctxRootSet (n : Nat) (v : W64) (s : State) : State :=
  let d : Nat → BitVec 52 × Bool := fun _ => (0, false)
  flushWalks { s with xl := { s.xl with roots := tset d s.xl.roots n (BitVec.ofNat 52 (fld v 12 52), v.getLsbD 0) } }

/-- CTX_ROOT_WRITE (R269). -/
def execCtxRootWrite (ctx : Ctx) (value : W64) (s : State) : Host.Outcome State Fault Refusal :=
  .next (if writable s then ctxRootSet ctx.val value s else s)

/-- The first failing check of Table 9-4, 0 for none. -/
def pteCheck (s : State) : Nat :=
  let x := s.xl
  let n := x.levels.toNat
  let hi := x.addrHi.toNat
  let lv := fun l => levelAt s l
  let flags := [x.pBit, x.wBit, x.uBit, x.aBit, x.dBit, x.largeBit].filter (fun f => !f.getLsbD 7)
  let pos := flags.map (fun f => fld f 0 6)
  let inMask := fun (m : W64) => pos.any (fun p => m.getLsbD p)
  if n < 2 || 5 < n || hi < 32 || 51 < hi then 1
  else if (lv 0).idxLo ≠ 12 || (List.range (n - 1)).any (fun l => (lv (l + 1)).idxLo.toNat ≠ (lv l).idxLo.toNat + (lv l).idxWidth.toNat) ||
      57 < (lv (n - 1)).idxLo.toNat + (lv (n - 1)).idxWidth.toNat then 2
  else if (List.range n).any (fun l => (lv l).leafOk = 1 && (lv l).idxLo ≠ 21 && (lv l).idxLo ≠ 30) then 3
  else if x.pBit.getLsbD 7 || (x.largeBit.getLsbD 7 && (List.range n).any (fun l => l ≠ 0 && (lv l).leafOk = 1)) then 4
  else if !pos.Nodup || pos.any (fun p => 12 ≤ p && p ≤ hi) then 5
  else if (List.range n).any (fun l => inMask (lv l).rsvTable || inMask (lv l).rsvLeaf) then 6
  else 0

/-- A write of 1 to PTE_FORMAT VALID (R266). -/
def validatePte (s : State) : State :=
  let c := pteCheck s
  flushWalks { s with xl := { s.xl with valid := c = 0, errCode := BitVec.ofNat 8 c } }

/-- PTE_FORMAT_VALIDATE (R265, R266): refused while any context is bound to the function. -/
def execPteFormatValidate (s : State) : Host.Outcome State Fault Refusal :=
  .next (if writable s && !s.host.bindings.any (fun b => b.2.bound) then validatePte s else s)

/-- Host-side events stop every descriptor at its next chunk boundary, with every entry STALE; page requests are abandoned
(R269, R271). -/
def xlHostEvent (s : State) : State :=
  let s1 := (markStale (fun x _ => x.translates) (fun _ _ => true) (flushWalks s)).2
  let s2 := foldS (engineIds s1) (fun e s =>
    match xferGet s e with
    | some x => if x.translates then xferSet e (some { x with stopped := true, waitPrg := none, atsPage := none, walk := none }) s else s
    | none => s) s1
  let lost := fun (r : HostRead) => match r.use with
    | .walker _ => { r with use := ReadUse.orphan }
    | _ => r
  { s2 with
    host := { s2.host with reads := s2.host.reads.map lost }
    xl := { s2.xl with
      prgs := [], prgQuar := [], invs := [], invWait := [], hotBase := 0, hotEn := false, hotIen := false, hotVector := 0
      hotSize := 0, hotHead := 0, hotW := 0 } }

/-- A context is unbound (R269, R275, Table 9-13). -/
def xlUnbind (ctx : Nat) (s : State) : State :=
  let d : Nat → BitVec 52 × Bool := fun _ => (0, false)
  let root := tget d s.xl.roots ctx
  { s with xl := { s.xl with
      walkCache := s.xl.walkCache.filter (fun w => w.pasid ≠ pasidOf s ctx)
      roots := tset d s.xl.roots ctx (root.1, false)
      heats := s.xl.heats.filter (fun h => h.ctx ≠ ctx) } }

end Sys2Proof.Machine
end

