-- ==== Sys2Proof/Machine/LongOps.lean ====
section
/-!
DEFINITION. Machine/LongOps.lean: context commands and long operations: LOAD_MODEL, UNLOAD, BURNISH, ROTATE_KEY, MIGRATE
and their units (05_generation_service.md R146, R147, R166; 04_stacked_store.md R136; 09_translation.md R277;
13_security.md R341, R348, R350; 06_pair_and_guarantee.md R183).
-/
namespace Sys2Proof.Machine

/-! ### Allocations of a context -/

/-- A byte run of a pier in pieces of at most 4 KiB. -/
def pieces (p base n : Nat) : List (Nat × Nat × Nat) :=
  (List.range ((n + 4095) / 4096)).map (fun k => (p, base + 4096 * k, min 4096 (n - 4096 * k)))

/-- Pages of a context's allocations in device memory (R348): images and portions, working memory, resident KV pages. -/
def ctxPages (s : State) (ctx : Nat) : List (Nat × Nat × Nat) :=
  (s.piers.pool.filter (fun a => a.1 = ctx)).flatMap (fun a => pieces a.2.1 a.2.2.1 a.2.2.2) ++
  (if (ctxGet s ctx).st = .free then []
   else (List.range 320).flatMap (fun p => pieces p (Config.arenaLocal ctx p) (Config.arenaBytes ctx p))) ++
  (s.service.streams.filter (fun e => e.2.ctx.toNat = ctx)).flatMap (fun e =>
    (e.2.kv.filter (·.resident)).flatMap (fun k => pieces k.pier (k.frame * 256) k.bytes))

/-- Spilled pages of a context: 512 + stream record, and the page's index (R348). -/
def spilledPages (s : State) (ctx : Nat) : List (Nat × Nat) :=
  (s.service.streams.filter (fun e => e.2.ctx.toNat = ctx)).flatMap (fun e =>
    (e.2.kv.zipIdx.filter (fun k => !k.1.resident)).flatMap (fun k =>
      (List.range ((k.1.bytes + 4095) / 4096)).map (fun _ => (512 + e.1, k.2))))

/-! ### Keys (R340, R341) -/

/-- A fresh key of the DRBG. -/
def drawKey (s : State) : Nat × State := (s.sec.draw, { s with sec := { s.sec with draw := s.sec.draw + 1 } })

def slotSet (i : Nat) (k : KeySlot) (s : State) : State :=
  { s with sec := { s.sec with slots := tset (fun _ => {}) s.sec.slots i k } }

/-- Destroys both memory-key slots, MODEL_KEY and CRED (R350 step 2); the context is no longer keyed. -/
def destroyKeys (ctx : Nat) (s : State) : State :=
  let c := ctxGet s ctx
  ctxSet ctx { c with modelKey := 0, keyId := 0, cred := 0, rotOpen := false, oldPages := 0
                      st := if c.st = .keyed then .created else c.st }
    (slotSet (2 * ctx) {} (slotSet (2 * ctx + 1) {} s))

/-! ### Acceptance (R166) -/

/-- A long operation of a kind is open for a context. -/
def opOpen (s : State) (ctx : Nat) (ops : List Byte) : Bool :=
  (opIds s).any (fun j => (opGet s j).isOpen && (opGet s j).target.toNat = ctx && ops.contains (opGet s j).opcode)

def anyOpOpen (s : State) (ctx : Nat) : Bool := (opIds s).any (fun j => (opGet s j).isOpen && (opGet s j).target.toNat = ctx)

/-- A model is bound to the context. -/
def hasModel (s : State) (ctx : Nat) : Bool := (ctxGet s ctx).st = .bound && (modelOf s ctx).isSome

/-- A free slot of the member's own half; the journal of a pair holds an operation that the partner serves there. -/
def freeSlot (s : State) : Option Nat :=
  let (lo, n) := ownPart 1024 s
  pickFree s.freeCtr lo n (fun j => (opGet s j).st = .free && (!sends s || (tableOp s j).isNone))

/-- Takes a slot of the member's own half for an accepted operation and journals it; none where no slot is free. -/
def startOp (x : LongOp) (s : State) : Option (Nat × State) :=
  (freeSlot s).map (fun j =>
    let old := opGet s j
    let y := { x with inc := old.inc + BitVec.ofNat 31 (b2n (old.used || s.power.recovered)), used := true, st := .running }
    let s1 := opSet j y (drawFree s).2
    (j, putOp j .other (if y.opcode = 0x12 then s1
      else trace 0x38 (uSched y.ctx.toNat) (y.handle j).toNat y.opcode.toNat s1)))

/-- The operation a command of queue pair `n` asks for. -/
def opOf (n : Nat) (e : BitVec 512) (target : BitVec 12) (units : Nat) (s : State) : LongOp :=
  { opcode := BitVec.ofNat 8 (cmdByte e 0), ctx := (qpGet s n).ctx, target := target, cid := cmdCid e
    sq := BitVec.ofNat 16 n, deliverCq := BitVec.ofNat 16 n, entry := e, totalUnits := BitVec.ofNat 64 units }

/-- Accepts a command as a long operation, with what else its acceptance does; its completion carries OK and the handle
once the journal entry is mirrored. -/
def acceptOp (n : Nat) (e : BitVec 512) (x : LongOp) (then_ : Nat → State → State) (s : State) : State :=
  match startOp x s with
  | none => answer n e stFull 0 0 [] s
  | some (j, s1) => then_ j (answerAfter s n e stOk ((opGet s1 j).handle j) s1)

/-! ### LOAD_MODEL (R107, R136, R166, R183) -/

/-- The acceptance checks: none where it may go on. -/
def loadFails (n : Nat) (e : BitVec 512) (s : State) : Option Nat :=
  let ctx := (qpGet s n).ctx.toNat
  if !cmdFormat e then some stFormat
  else if hasModel s ctx || opOpen s ctx [0x10, 0x12, 0x13] || s.pair.st = .pairing then some stState
  else none

/-- LOAD_MODEL: the region table locks as it is accepted (R122). -/
def loadModelCmd (n : Nat) (e : BitVec 512) (s : State) : State :=
  match loadFails n e s with
  | some st => answer n e st 0 0 [] s
  | none =>
    if (freeSlot s).isNone then answer n e stFull 0 0 [] s
    else match tryLock s with
    | none => answer n e stState 0 0 [] (lockRefused s)
    | some s1 => acceptOp n e (opOf n e (qpGet s n).ctx (cmdField e 0x10 8 / 65536) s) (fun _ s => s) s1

def execLoadModel (qp : Qp) (s : State) : Host.Outcome State Fault Refusal := .next (withCmd qp 0x10 (loadModelCmd qp) s)

/-- The load fails after acceptance: everything is undone and the final entry carries the status (R166). -/
def failLoad (j status reason index : Nat) (s : State) : State :=
  endOp j .failed status reason index (undoLoad (opGet s j).target.toNat s)

/-- Reserves the image and the deployed portions in POOL memory (R136): IMG_BASE of each approach pier in service, then
PORTION_BYTES on every pier a KIND 02h section names. -/
def reserveImage (ctx : Nat) (m : Model) (s : State) : Option (Model × State) :=
  let stripes := (m.chunkCount + 2) / 3
  let want := ((List.range 64).map (fun k => (256 + k, (stripes + 15 - k % 16) / 16 * 65536))).filter
    (fun w => w.2 ≠ 0 && memUp s w.1)
  let image := want.foldl (fun (acc : Option (Tbl Nat × State)) w =>
    acc.bind (fun (t, s) =>
      let (f, s) := drawFree s
      (poolPlace f w.1 w.2 s).map (fun b =>
        (tset (fun _ => 0) t w.1 b, { s with piers := { s.piers with pool := s.piers.pool ++ [(ctx, w.1, b, w.2)] } })))) (some ([], s))
  image.bind (fun (imgBase, s1) =>
    let piers := (List.range 320).filter (fun p => memUp s1 p && m.sections.any (fun x => x.kind = 2 && x.piers.contains p))
    (piers.foldl (fun (acc : Option (Tbl Nat × State)) p =>
      acc.bind (fun (t, s) =>
        let (f, s) := drawFree s
        (poolPlace f p m.portionBytes s).map (fun b =>
          (tset (fun _ => 0) t p b,
            { s with piers := { s.piers with pool := s.piers.pool ++ [(ctx, p, b, m.portionBytes)] } })))) (some ([], s1))).map
      (fun (t, s2) => ({ m with imgBase := imgBase, portionBase := t }, s2)))

/-- A load ends bound: the context's streams that waited for the model go on (R169). -/
def finishLoad (j : Nat) (s : State) : State :=
  let ctx := (opGet s j).target.toNat
  let s1 := ctxSet ctx { ctxGet s ctx with st := .bound } s
  let s2 := endOp j .done stDone 0 0 (putContext ctx s1)
  foldS (liveOf s2 ctx) (fun i => unsuspend i suspModel) s2

/-- SUSPENDs that waited for the end of the partner's binding are answered for the state they find (R183). -/
def answerHeld (j : Nat) (s : State) : State :=
  let cmds := (opGet s j).cmds
  foldS cmds (fun (n, e) => opCmdFrom j n e) (opMod j (fun x => { x with cmds := [] }) s)

/-- Sends a chunk of the image to the partner (R183): sixteen parts of 64 units. -/
def sendChunk (ctx k : Nat) (chunk : List Byte) (w : AckWait) (s : State) : State :=
  let lines := toLines chunk
  foldS (List.range 16) (fun part s =>
    sendJournal (fun t => .jImage t ctx k part ((lines.drop (64 * part)).take 64)) (if part = 15 then w else .other) s) s

/-- Sends a chunk as it is stored; one that the image has lost is not sent. -/
def sendStored (ctx : Nat) (m : Model) (k : Nat) (w : AckWait) (s : State) : State :=
  match readChunk s ctx m k with
  | some b => sendChunk ctx k b w s
  | none => s

/-- Chunks up to `k` that the partner does not have yet go to it; in MIRRORED the operation waits for the last one, and an earlier
one that fails there fails it (R183). Outside MIRRORED nothing waits (R192). -/
def sendImage (j ctx : Nat) (m : Model) (k : Nat) (s : State) : State :=
  let wait := fun (i : Nat) => if !waits s then AckWait.other else if m.chunkCount ≤ i + 1 then .longOp j else .image j
  opMod j (fun x => { x with sentTo := k + 1 })
    (foldS ((List.range (k + 1)).drop (opGet s j).sentTo) (fun i => sendStored ctx m i (wait i)) s)

/-- The last chunk is here: the parts are deployed and the programs bound. -/
def bindLoaded (j : Nat) (m : Model) (s : State) : State :=
  let ctx := (opGet s j).target.toNat
  match (deployAll ctx m s).map (bindImage ctx m) with
  | none => failLoad j stFormat 0 0 s
  | some (.error (st, r, i)) => failLoad j st r i s
  | some (.ok (m1, s1)) =>
    let s2 := modelSet ctx (some m1) s1
    if s2.pair.acks.any (fun a => a.2 = .longOp j) then opMod j (fun x => { x with binding := true }) s2
    else finishLoad j s2

/-- One unit counted; DONE_UNITS is journaled every 1,024 units (R181). -/
def unitDone (j : Nat) (s : State) : State :=
  let s1 := opMod j (fun x => { x with doneUnits := x.doneUnits + 1 }) s
  let s2 := if (opGet s1 j).deliverCq = 0xFFFF && !(opGet s1 j).shadow then
      { s1 with service := { s1.service with burnUnits := (opGet s1 j).doneUnits } }
    else s1
  if (opGet s2 j).doneUnits.toNat % 1024 = 0 then putOp j .other s2 else s2

/-- A chunk of the image (R136, R166): chunk 0 gives the header and the reservations, chunks below TAG_CHUNK are checked
and deployed, the last one binds. -/
def loadUnit (j : Nat) (chunk : List Byte) (tagOk : Bool) (s : State) : State :=
  let x := opGet s j
  let ctx := x.target.toNat
  let k := x.doneUnits.toNat
  let data := slice chunk 0 65536
  let start : Except Nat (Model × State) :=
    if k = 0 then
      match headerOf data (cmdField x.entry 0x10 8) with
      | none => .error stFormat
      | some m =>
        let c := ctxGet s ctx
        if c.modelKey = 0 || c.keyId ≠ m.keyId then .error stKey
        else match reserveImage ctx m s with
          | none => .error stFull
          | some r => .ok r
    else match modelOf s ctx with
      | some m => .ok (m, s)
      | none => .error stFormat
  if !canRequest s then s
  else match start with
    | .error st => failLoad j st 0 0 s
    | .ok (m, s1) =>
      if 0 < k && k < m.tagChunk && !tagOk then failLoad j stFormat 0 0 s
      else
        let last := m.chunkCount ≤ k + 1
        let s2 := unitDone j (placeChunk ctx m k data (modelSet ctx (some m) s1))
        let s3 := if sends s2 then sendImage j ctx m k s2 else s2
        if last then bindLoaded j m s3 else s3

/-! ### UNLOAD (R109) -/

/-- UNLOAD: completes at once. -/
def unloadCmd (n : Nat) (e : BitVec 512) (s : State) : State :=
  let ctx := (qpGet s n).ctx.toNat
  if !cmdFormat e then answer n e stFormat 0 0 [] s
  else if !hasModel s ctx || !(liveOf s ctx).isEmpty || anyOpOpen s ctx then answer n e stState 0 0 [] s
  else
    let s1 := modelSet ctx none (takeRoles ctx s)
    let s2 := { s1 with piers := { s1.piers with pool := s1.piers.pool.filter (fun p => p.1 ≠ ctx) } }
    let s3 := putContext ctx (ctxSet ctx { ctxGet s2 ctx with st := .keyed } s2)
    answerAfter s n e stOk 0 s3

def execUnload (qp : Qp) (s : State) : Host.Outcome State Fault Refusal := .next (withCmd qp 0x11 (unloadCmd qp) s)

/-! ### BURNISH (R146, R147, R350) -/

/-- Legal for the burnished context (Table 5-12). -/
def burnishLegal (s : State) (t : Nat) : Bool := !hasModel s t && (liveOf s t).isEmpty && !anyOpOpen s t

/-- A context's allocations, and what a cancelled burnish still withholds, each once. -/
def heldPages (s : State) (t : Nat) : List (Nat × Nat × Nat) :=
  let pages := ctxPages s t
  pages ++ (ctxGet s t).withheld.filter (fun w => !pages.contains w)

/-- Pages and extents a burnish has to overwrite: what the context holds, and its free journal extents. -/
def burnishWork (s : State) (t : Nat) : List (Nat × Nat × Nat) :=
  heldPages s t ++
    (s.service.freeExtents.filter (fun f => f.1 = t)).map (fun f => (1024, f.2.1, f.2.2))

/-- Steps 1 to 3 of R350 as the operation in slot `j` is accepted. -/
def burnishStart (j t : Nat) (s : State) : State :=
  let work := burnishWork s t
  let s0 := trace 0x40 (uCore 7) t 0 (destroyKeys t s)
  let s1 := if (ctxGet s t).st = .free then s0 else putContext t s0
  let c := ctxGet s1 t
  let (key, s2) := drawKey (ctxSet t { c with burnishOpen := true, withheld := work } s1)
  let s3 := { s2 with
    sec := { s2.sec with scrubKey := key }
    piers := { s2.piers with pool := s2.piers.pool.filter (fun p => p.1 ≠ t) }
    service := { s2.service with freeExtents := s2.service.freeExtents.filter (fun f => f.1 ≠ t) } }
  opMod j (fun x => { x with todo := work.map (fun w => (w.1, w.2.1))
                             totalUnits := BitVec.ofNat 64 (work.filter (fun w => w.1 ≠ 1024)).length }) s3

/-- A sweep has ended here: in MIRRORED the operation ends when the partner, whose sweep runs too, has acknowledged the
last unit (R183). -/
def endSweep (j : Nat) (s : State) : State :=
  if waits s && !(opGet s j).shadow then putOp j (.longOp j) (opMod j (fun x => { x with binding := true }) s)
  else endOp j .done stDone 0 0 s

/-- The last steps of R350: SCRUB_KEY destroyed, pages back to POOL, the context free. -/
def burnishEnd (j : Nat) (s : State) : State :=
  let x := opGet s j
  let t := x.target.toNat
  let others := (opIds s).any (fun i => i ≠ j && (opGet s i).isOpen && (opGet s i).opcode = 0x12)
  let c := ctxGet s t
  let s1 := ctxSet t { admitted := c.admitted, hostmem := c.hostmem, stamp := c.stamp, spillVa := c.spillVa
                       spillSlots := c.spillSlots, spillSlotKib := c.spillSlotKib } s
  let s2 := if others then s1 else { s1 with sec := { s1.sec with scrubKey := 0 } }
  endSweep j (putContext t s2)

def burnishCmd (n : Nat) (e : BitVec 512) (s : State) : State :=
  let t := cmdField e 4 2
  if !cmdFormat e then answer n e stFormat 0 0 [] s
  else if !(qpGet s n).priv then answer n e stPerm 0 0 [] s
  else if !burnishLegal s t then answer n e stState 0 0 [] s
  else acceptOp n e (opOf n e (BitVec.ofNat 12 t) 0 s) (fun j => burnishStart j t) s

def execBurnish (qp : Qp) (s : State) : Host.Outcome State Fault Refusal := .next (withCmd qp 0x12 (burnishCmd qp) s)

/-- DPA of a local line that its home still has to do with: an agent may hold it, or a write-back of it waits. -/
def trackedAt (s : State) (p a : Nat) : Option Nat :=
  (dpaOfLocal s.store.regions p a).bind (fun d => if homeKnows s d then some (d / 64 * 64) else none)

/-- A page is overwritten with zeros under SCRUB_KEY (R350 step 4). Lines that agents may hold are first invalidated through
their home; the page waits for that. -/
def scrubPage (t p base n : Nat) (s : State) : Option State :=
  let lines := (List.range ((n + 63) / 64)).map (fun k => base + 64 * k)
  let held := lines.filterMap (trackedAt s p)
  if !held.isEmpty then none
  else
    let (k, s1) := if s.sec.scrubKey = 0 then drawKey s else (s.sec.scrubKey, s)
    let s2 := { s1 with sec := { s1.sec with scrubKey := k } }
    some (foldS lines (fun a => putLine p a 0 { ctxTag := BitVec.ofNat 12 t, epoch := 0, key := k }) s2)

/-- WR_INVs that invalidate the held lines of a page. -/
def askInvalidate (t p base n : Nat) (s : State) : State :=
  foldS ((List.range ((n + 63) / 64)).filterMap (fun k => trackedAt s p (base + 64 * k))) (fun d s =>
    let l : LineAddr := BitVec.ofNat 32 (d / 64)
    if s.coh.posted.any (fun x => x.line = l) then s
    else { s with coh := { s.coh with posted := s.coh.posted ++ [⟨.pier (Fin.ofNat 320 p), t, l, 0, BitVec.allOnes 64, false, none⟩] } }) s

/-- One page or extent of a burnish. -/
def burnishUnit (j : Nat) (s : State) : State :=
  let x := opGet s j
  let t := x.target.toNat
  match x.todo with
  | [] => burnishEnd j s
  | (p, base) :: rest =>
    let n := ((((ctxGet s t).withheld.find? (fun w => w.1 = p && w.2.1 = base)).map (·.2.2)).getD 0)
    let next := fun (s : State) =>
      let s1 := opMod j (fun x => { x with todo := rest }) s
      if rest.isEmpty then burnishEnd j s1 else s1
    if p = 1024 then next (jZero (offExtents + 64 * base) n s)
    else
      match scrubPage t p base n s with
      | some s1 => next (unitDone j s1)
      | none => askInvalidate t p base n s

/-! ### ROTATE_KEY (R348) -/

/-- Steps 1 to 3 of R348; a rotation that a CANCEL left open is continued instead. -/
def rotateStart (j ctx : Nat) (s : State) : State :=
  let c := ctxGet s ctx
  let s1 :=
    if c.rotOpen then s
    else
      let (k, s1) := drawKey s
      let e := c.epoch + 1
      let old := 2 * ctx + c.epoch.toNat % 2
      let s2 := slotSet (2 * ctx + e.toNat % 2) { key := k, st := .live }
        (slotSet old { (tget (fun _ => {}) s1.sec.slots old : KeySlot) with st := .retiring } s1)
      ctxSet ctx { c with epoch := e, rotOpen := true } s2
  let c1 := ctxGet s1 ctx
  let oldEpoch := c1.epoch - 1
  let stale := fun (w : Nat × Nat × Nat) => (List.range ((w.2.2 + 63) / 64)).any (fun k =>
    let x := sideGet s1 w.1 (w.2.1 + 64 * k)
    x.ctxTag.toNat = ctx && x.epoch = oldEpoch)
  let pages := ctxPages s1 ctx
  let pages := if c.rotOpen then pages.filter stale else pages
  let todo := pages.map (fun w => (w.1, w.2.1)) ++ spilledPages s1 ctx
  let s2 := putContext ctx (ctxSet ctx { c1 with oldPages := BitVec.ofNat 32 todo.length } s1)
  opMod j (fun x => { x with todo := todo, totalUnits := BitVec.ofNat 64 todo.length }) s2

/-- The old slot is destroyed and the rotation ends (R348). -/
def rotateEnd (j : Nat) (s : State) : State :=
  let ctx := (opGet s j).target.toNat
  let c := ctxGet s ctx
  endSweep j (putContext ctx (ctxSet ctx { c with rotOpen := false, oldPages := 0 }
    (slotSet (2 * ctx + (c.epoch.toNat + 1) % 2) {} s)))

/-- A line of a page is encrypted anew if it carries the old epoch (R348). -/
def rotateLine (ctx p a : Nat) (s : State) : State :=
  let x := sideGet s p a
  let c := ctxGet s ctx
  let old := slotKey s ctx ((c.epoch.toNat + 3) % 4)
  if x.ctxTag.toNat = ctx && x.epoch = c.epoch - 1 && old ≠ 0 && regionOfLocal s.store.regions p a ≠ none then
    let d := decrypt s p a old (tweakOf s p a)
    putLine p a d { x with epoch := c.epoch, key := slotKey s ctx c.epoch.toNat } s
  else s

/-- One page of a rotation; a spilled page is read back and spilled again, under one value of the spill counter for all its
4 KiB, and waits for the host. -/
def rotateUnit (j : Nat) (s : State) : State :=
  let x := opGet s j
  let ctx := x.target.toNat
  match x.todo with
  | [] => rotateEnd j s
  | (p, base) :: rest =>
    if 512 ≤ p && !canRequest s then s
    else
      let s1 := if 512 ≤ p then
          if rest.head? = some (p, base) then s
          else
          let c := ctxGet s ctx
          ctxSet ctx { c with spillCtr := c.spillCtr + 1 } s
        else foldS (List.range 64) (fun k => rotateLine ctx p (base + 64 * k)) s
      let c := ctxGet s1 ctx
      let s2 := unitDone j (opMod j (fun x => { x with todo := rest })
        (ctxSet ctx { c with oldPages := c.oldPages - BitVec.ofNat 32 (b2n (c.oldPages ≠ 0)) } s1))
      if rest.isEmpty then rotateEnd j s2 else s2

def rotateCmd (n : Nat) (e : BitVec 512) (s : State) : State :=
  let ctx := (qpGet s n).ctx
  if !cmdFormat e then answer n e stFormat 0 0 [] s
  else if !hasModel s ctx.toNat || opOpen s ctx.toNat [0x10, 0x12, 0x13] then answer n e stState 0 0 [] s
  else acceptOp n e (opOf n e ctx 0 s) (fun j => rotateStart j ctx.toNat) s

def execRotateKey (qp : Qp) (s : State) : Host.Outcome State Fault Refusal := .next (withCmd qp 0x13 (rotateCmd qp) s)

/-! ### MIGRATE (R277) -/

def migrateCmd (n : Nat) (e : BitVec 512) (s : State) : State :=
  let ctx := (qpGet s n).ctx
  let pages := cmdField e 0x18 4
  if !cmdFormat e || Config.arenaSize ctx.toNat < cmdField e 0x10 8 + 4096 * pages then answer n e stFormat 0 0 [] s
  else if !(bindingGet s ctx.toNat).bound || opOpen s ctx.toNat [0x12, 0x14] then answer n e stState 0 0 [] s
  else acceptOp n e (opOf n e ctx pages s) (fun _ s => s) s

def execMigrate (qp : Qp) (s : State) : Host.Outcome State Fault Refusal := .next (withCmd qp 0x14 (migrateCmd qp) s)

/-- A page whose descriptor has ended DONE is counted; the last one ends the operation. -/
def migrateUnit (j : Nat) (s : State) : State :=
  let x := opGet s j
  if x.xferDone = 0 then s
  else
    let s1 := unitDone j (opMod j (fun x => { x with xferDone := x.xferDone - 1 }) s)
    if (opGet s1 j).totalUnits ≤ (opGet s1 j).doneUnits then endOp j .done stDone 0 0 s1 else s1

/-! ### LONGOP_UNIT (R166) -/

/-- The next unit of a running operation. -/
def execLongopUnit (slot : Fin 1024) (chunk : List Byte) (tagOk : Bool) (s : State) : Host.Outcome State Fault Refusal :=
  .next <|
    let j := slot.val
    let x := opGet s j
    if !alive s || s.faults.safe || s.service.quiesced || x.st ≠ .running || x.binding then s
    else if x.opcode = 0x10 then loadUnit j chunk tagOk s
    else if x.opcode = 0x12 then burnishUnit j s
    else if x.opcode = 0x13 then rotateUnit j s
    else if x.opcode = 0x14 then migrateUnit j s
    else s

end Sys2Proof.Machine
end

