-- ==== Sys2Proof/Machine/HostPort.lean ====
section
/-!
DEFINITION. Machine/HostPort.lean: queue pairs, completion rings, binding, interrupts, host reads (07_host_port.md R206 to
R224; records of 05_generation_service.md R150, R151).
-/
namespace Sys2Proof.Machine

/-! ### Binding (R206) -/

def bindingSet (c : Nat) (b : Binding) (s : State) : State :=
  { s with host := { s.host with bindings := tset (fun _ => {}) s.host.bindings c b } }

def bindResult (st : Nat) (s : State) : State := { s with host := { s.host with bindStatus := BitVec.ofNat 8 st } }

/-- CONTEXT record of the trace (Table 17-2). -/
def traceCtx (core ctx code b : Nat) (s : State) : State := trace 0x28 (uCore core) (ctx + 65536 * code) b s

/-- CONTEXT and PASID as written. -/
def bindFields (v : W64) (s : State) : State :=
  { s with host := { s.host with ctxBindCtx := BitVec.ofNat 12 (fld v 48 12), ctxBindPasid := BitVec.ofNat 20 (fld v 0 20) } }

/-- A bind of context `c` to `pasid`. -/
def bindCtx (c : Nat) (pasid : BitVec 20) (cred : W64) (s : State) : State :=
  let x := ctxGet s c
  let b0 := bindingGet s c
  let b := if b0.lockout ≠ 0 && due b0.lockout s then { b0 with lockout := 0, mismatches := 0 } else b0
  if b.lockout ≠ 0 then bindResult stPerm s
  else if x.st = .free || x.owner = 0 || b.bound then bindResult stState s
  else if x.cred ≠ cred then
    let m := b.mismatches + 1
    let b1 := { b with mismatches := m, lockout := if 16 ≤ m then after s.host.bindLockout.toNat s else 0 }
    traceCtx 7 c 5 0 (count 2552 (bindResult stPerm (bindingSet c b1 s)))
  else
    let s1 := putContext c (bindingSet c { bound := true, pasid := pasid } (bindResult stOk s))
    resumeEngines (traceCtx 7 c 3 pasid.toNat s1)

/-- The binding of a context ends (R206, R269). -/
def unbindCtx (c : Nat) (s : State) : State :=
  if (bindingGet s c).bound then
    traceCtx 7 c 4 0 (putContext c (bindingSet c { bindingGet s c with bound := false, pasid := 0 } (xlUnbind c s)))
  else s

/-- Core 7's handler of a bind or unbind; BUSY clears as it ends. -/
def serveBind (r : BindReq) (s : State) : State :=
  let s1 := { s with host := { s.host with bindReq := none } }
  match r.bind with
  | some (pasid, cred) => bindCtx r.ctx pasid cred s1
  | none =>
    if s1.host.qps.any (fun q => q.2.armed && q.2.ctx.toNat = r.ctx) then bindResult stState s1
    else unbindCtx r.ctx (bindResult stOk s1)

/-- A key request goes to core 7 at doorbell bit 0: a free core serves it at once, else it waits for a TRESTLE_DISPATCH of the
core, and BUSY reads 1 (R38, R206). -/
def bindRequest (r : BindReq) (s : State) : State :=
  if coreFree 7 s then serveBind r (dispatchBit 7 0 s)
  else ringDoorbell 7 0 { s with host := { s.host with bindReq := some r } }

/-- A write of CTX_BIND with GO or UNBIND. While BUSY is 1 it is ignored and counted; with both bits it is malformed. -/
def bindWrite (value : W64) (unbind : Bool) (s : State) : State :=
  if !bar0Open s then refuseAccess false none s
  else if s.host.bindReq.isSome then countIgnored 0x40010 s
  else
    let s1 := bindFields value s
    if value.getLsbD 62 && value.getLsbD 63 then bindResult stFormat s1
    else bindRequest ⟨fld value 48 12, if unbind then none else some (s1.host.ctxBindPasid, s1.host.bindCred)⟩ s1

/-- CTX_BIND (R206): GO set, a key request on trestle core 7; with UNBIND set as well the write is malformed. -/
def execCtxBind (value : W64) (s : State) : Host.Outcome State Fault Refusal :=
  .next (bindWrite (value ||| 0x8000000000000000) false s)

/-- CTX_UNBIND (R206). -/
def execCtxUnbind (value : W64) (s : State) : Host.Outcome State Fault Refusal :=
  .next (bindWrite (value ||| 0x4000000000000000) true s)

/-- BIND_LOCKOUT_EXPIRY (R206). -/
def execBindLockoutExpiry (ctx : Ctx) (s : State) : Host.Outcome State Fault Refusal :=
  .next <|
    let b := bindingGet s ctx.val
    if alive s && b.lockout ≠ 0 && due b.lockout s then bindingSet ctx.val { b with lockout := 0, mismatches := 0 } s else s

/-! ### Arming and disarming (R207, R208) -/

/-- Fields of word 3 that software writes (Table 7-8). -/
def withWord3 (q : QpEntry) (v : W64) : QpEntry :=
  { q with arm := v.getLsbD 63, priv := v.getLsbD 61, twin := v.getLsbD 60, ctx := BitVec.ofNat 12 (fld v 48 12)
           twinCq := BitVec.ofNat 15 (fld v 32 15) }

/-- First failing check of Table 7-9, 0 for none. -/
def armCheck (n : Nat) (q : QpEntry) (s : State) : Nat :=
  let (first, pages) := q.sqPages
  if !(bindingGet s q.ctx.toNat).bound then 1
  else if 10 < q.sqSize.toNat || 10 < q.cqSize.toNat then 2
  else if 524288 < first + pages || s.host.qps.any (fun p => p.1 ≠ n && p.2.armed && overlaps first pages p.2.sqPages.1 p.2.sqPages.2) then 3
  else if resetBusy s || q.disarming then 4
  else 0

/-- The twin entry of queue pair `n`, here and on the partner (R181, R207). -/
def putTwin (n : Nat) (q : QpEntry) (s : State) : State :=
  jPut (offTwin (roleN s) n) (twinEntry q.armed q.twin q.ctx q.twinCq) .other s

/-- Streams of a context that deliver to queue pair `n` of this member. -/
def deliverers (s : State) (n ctx : Nat) : List Nat :=
  (streamIds s).filter (fun i =>
    let x := streamGet s i
    !x.held && x.ctx.toNat = ctx && x.deliverCq.toNat = n)

/-- ARM written with 1 (R207). -/
def armQp (n : Nat) (v : W64) (s : State) : State :=
  let q0 := qpGet s n
  let q := if q0.armed then { q0 with arm := true } else withWord3 q0 v
  let s1 := if q0.armed then countIgnored 0x100000 s else s
  let c := armCheck n q s
  if q0.armed && !q0.disarming then s1
  else if c ≠ 0 then qpSet n { q with armErr := BitVec.ofNat 8 c } s1
  else
    let q1 := { q with armed := true, armErr := 0, sqHead := 0, sqTail := 0, pendingBit := false, fetched := [], reserved := 0
                       waiting := [], produced := 0, head := 0, ring := [], unsignalled := 0 }
    foldS (deliverers s n q.ctx.toNat)
      (fun i s => unsuspend i suspHost (streamMod i (fun x => { x with writeSeq := x.ackedSeq }) s))
      (putTwin n q1 (qpSet n q1 s1))

def execQpArm (qp : Qp) (word3 : W64) (s : State) : Host.Outcome State Fault Refusal :=
  .next <|
    if !bar0Open s then refuseAccess false none s
    else if s.host.flr.isSome then countIgnored 0x100000 s
    else armQp qp word3 s

/-- QP_DISARM (R208 step 1): ARM written with 0. -/
def execQpDisarm (qp : Qp) (s : State) : Host.Outcome State Fault Refusal :=
  .next <|
    let q := qpGet s qp
    if !bar0Open s then refuseAccess false none s
    else if s.host.flr.isSome then countIgnored 0x100000 s
    else qpSet qp { q with arm := false, disarming := q.disarming || q.armed } s

/-- QP_DISARM_COMPLETE (R208 steps 2, 3): every fetched command has completed and written its completion. -/
def execQpDisarmComplete (qp : Qp) (s : State) : Host.Outcome State Fault Refusal :=
  .next <|
    let n : Nat := qp
    let q := qpGet s n
    if !alive s || !q.armed || !q.disarming || !q.fetched.isEmpty || !q.waiting.isEmpty || q.reserved ≠ 0 then s
    else
      let q1 := { q with armed := false, disarming := false, ring := [] }
      let owed := (deliverers s n q.ctx.toNat).filter (fun i => (streamGet s i).live && !(streamGet s i).sealed.isEmpty)
      foldS owed (fun i => suspendSoon i suspHeld) (putTwin n q1 (qpSet n q1 s))

/-! ### Writing entries (R213, R214, R218) -/

/-- Bytes of a completion or final entry (Table 5-7). -/
def Completion.bytes (c : Completion) : List Byte :=
  [c.kind, 0, c.status, c.detail] ++ leBytes 2 c.cid.toNat ++ leBytes 2 c.sq.toNat ++ leBytes 8 c.handle.toNat ++
    leBytes 4 c.detailIndex.toNat ++ List.replicate 12 0 ++ slice c.result 0 96

/-- PHASE of write `w` of a ring of `size` entries. -/
def phaseOf (w size : Nat) : Nat := 1 - w / size % 2

/-- Counts a flag towards the next interrupt event, and raises the event when it is due (R218). -/
def flagWritten (n : Nat) (s : State) : State :=
  let q := qpGet s n
  if !q.ien then s
  else if max 1 q.coalCount.toNat ≤ q.unsignalled + 1 then interrupt q.vector (qpSet n { q with unsignalled := 0 } s)
  else qpSet n { q with unsignalled := q.unsignalled + 1, firstFlag := if q.unsignalled = 0 then s.ticks else q.firstFlag } s

/-- Write P of the completion queue: bytes 02h to 7Fh, then the flag. -/
def ringWrite (n : Nat) (b : List Byte) (use : SlotUse) (s : State) : State :=
  let q := qpGet s n
  let size := ringSize q.cqSize.toNat
  let at_ := q.cqAddr.toNat * 4096 + 128 * (q.produced % size)
  let flags := b.getD 1 0 ||| BitVec.ofNat 8 (phaseOf q.produced size)
  let s1 := hostWrite (BitVec.ofNat 64 (at_ + 2)) none (slice b 2 126) s
  let s2 := hostWrite (BitVec.ofNat 64 at_) none [b.getD 0 0, flags] s1
  flagWritten n (qpSet n { q with produced := q.produced + 1, ring := q.ring ++ [use] } s2)

/-- The entry of a long operation that has ended (R147, R166). -/
def finalEntry (j : Nat) (x : LongOp) : Completion :=
  { kind := 3, status := x.status, detail := x.detail, cid := x.cid, sq := x.sq, handle := x.handle j
    detailIndex := x.detailIndex, result := [] }

/-- The next long operation whose final entry queue pair `n` is owed. -/
def owedFinal (s : State) (n : Nat) : Option Nat :=
  let q := qpGet s n
  (opIds s).find? (fun j =>
    let x := opGet s j
    !x.isOpen && !x.held && !x.shadow && x.deliverCq.toNat = n && x.ctx = q.ctx &&
      !q.ring.any (fun u => u = .final j (x.handle j)))

/-- COMPLETION_WRITE (R214): the oldest waiting completion, in the slot its command reserved, or a final entry in a slot
nobody reserved. -/
def execCompletionWrite (qp : Qp) (s : State) : Host.Outcome State Fault Refusal :=
  .next <|
    let n : Nat := qp
    let q := qpGet s n
    if !canRequest s || !q.armed then s
    else
      match q.waiting with
      | c :: rest => ringWrite n c.bytes .completion (qpSet n { q with waiting := rest, reserved := q.reserved - 1 } s)
      | [] =>
        if q.disarming || !q.room then s
        else
          match owedFinal s n with
          | none => s
          | some j =>
            let x := opGet s j
            ringWrite n (finalEntry j x).bytes (.final j (x.handle j)) s

/-! ### Records (R150, R151, R204, R217) -/

/-- HDM lines that a record references: those of the output slots of a raw run's FINAL record. -/
def referenced (s : State) (x : Stream) (r : OutRec) : List LineAddr :=
  if !x.raw || !r.final then []
  else
    let outs := match programOf s x.ctx.toNat .raw with
      | some (_, p) => outputSlots p
      | none => List.range 16
    let lines := fun (sl : W64 × W32) =>
      let first := sl.1.toNat / 64
      (List.range ((sl.1.toNat + sl.2.toNat + 63) / 64 - first)).map (fun j =>
        (BitVec.ofNat 32 ((Config.arenaDpa x.ctx.toNat (BitVec.ofNat 64 (64 * (first + j)))).toNat / 64) : LineAddr))
    (x.slots.zipIdx.filter (fun (_, k) => outs.contains k)).flatMap (fun (sl, _) => lines sl)

/-- The host may still hold the line, or its latest data has not reached its home. -/
def unflushed (s : State) (l : LineAddr) : Bool :=
  match dirFind s l with
  | some (_, e) => e.has 0 || e.owned s.coh.moesi
  | none => false

/-- The flushes of an entry's lines run at once (R217). -/
def flushAll (lines : List LineAddr) (s : State) : State :=
  foldS lines (fun l s => if unflushed s l && !busy s l then cohRequest .hostIo 0 l .flush 0 0 s else s) s

/-- The next committed record of a stream, and the queue pair it goes to; a stream that is HELD waits for its re-claim
(R155). -/
def nextRecord (s : State) (i : Nat) : Option (OutRec × QpEntry) :=
  let x := streamGet s i
  let q := qpGet s x.deliverCq.toNat
  if x.st = .free || x.held || x.susp &&& suspHeld ≠ 0 || !q.armed || q.disarming || q.ctx ≠ x.ctx ||
      s.pair.acks.any (fun a => a.2 = .seal i x.writeSeq) then none
  else (x.sealed.find? (fun r => r.seq = x.writeSeq)).map (fun r => (r, q))

/-- RECORD_WRITE (R150, R216, R217): the stream's next record is written; with Bus Master Enable clear the stream suspends. -/
def execRecordWrite (record : Fin 262144) (s : State) : Host.Outcome State Fault Refusal :=
  .next <|
    let i := record.val
    let x := streamGet s i
    match nextRecord s i with
    | none => s
    | some (r, q) =>
      if !canRequest s then
        (if hostServes s && !bmeOn s && !resetBusy s && !s.faults.safe then suspendSoon i suspBme s else s)
      else if !q.room then s
      else
        let lines := (referenced s x r).filter (unflushed s)
        if q.vis && !lines.isEmpty then flushAll lines s
        else
          let again := decide (x.writeSeq.toNat < x.writtenTo.toNat)
          let x1 := { x with writeSeq := x.writeSeq + 1, writtenTo := if again then x.writtenTo else x.writeSeq + 1 }
          ringWrite x.deliverCq.toNat (recordBytes x i r false) (.record i (x.handle i) r.seq r.final)
            (count (if again then 2604 else 2603) (streamSet i x1 s))

/-! ### Delivery (R151, R215) -/

/-- A record has been delivered: ACKED_SEQ moves, and a FINAL record frees the stream. -/
def recordDelivered (i : Nat) (h : W64) (seq : W32) (final : Bool) (s : State) : State :=
  let x := streamGet s i
  if x.st = .free || x.handle i ≠ h || seq.toNat < x.ackedSeq.toNat then s
  else if final then freeStream i s
  else
    let a := seq + 1
    let x1 := { x with ackedSeq := a, sealed := x.sealed.filter (fun r => a.toNat ≤ r.seq.toNat)
                       writeSeq := if x.writeSeq.toNat < a.toNat then a else x.writeSeq }
    noteCursor i false (keepIndex i (streamSet i x1 s))

def slotDelivered (u : SlotUse) (s : State) : State :=
  match u with
  | .record i h seq final => recordDelivered i h seq final s
  | .final j h => if (opGet s j).handle j = h && !(opGet s j).isOpen && (opGet s j).st ≠ .free then freeOp j s else s
  | .completion => s

/-- CQ_HEAD_WRITE (R210, R215). -/
def execCqHeadWrite (qp : Qp) (be : BitVec 2) (value : W16) (s : State) : Host.Outcome State Fault Refusal :=
  .next <|
    let n : Nat := qp
    let q := qpGet s n
    let size := ringSize q.cqSize.toNat
    if !barOpen s then refuseAccess true none s
    else if !q.armed then count 2550 s
    else if be ≠ 3 then count 2551 s
    else
      let back := (q.produced + size - value.toNat % size) % size
      if q.produced < q.head + back then raise 2921 .ce n (count 2551 s)
      else
        let h := q.produced - back
        let gone := q.ring.take (h - q.head)
        foldS gone slotDelivered (qpSet n { q with head := h, ring := q.ring.drop (h - q.head) } s)

/-- COAL_TIMEOUT (R218). -/
def execCoalTimeout (qp : Qp) (s : State) : Host.Outcome State Fault Refusal :=
  .next <|
    let n : Nat := qp
    let q := qpGet s n
    if alive s && q.armed && q.ien && q.coalTicks ≠ 0 && q.unsignalled ≠ 0 && due (q.firstFlag + 1 + q.coalTicks.toNat) s then
      interrupt q.vector (qpSet n { q with unsignalled := 0 } s)
    else s

/-! ### Interrupts (R219) -/

/-- A pending MSI-X message goes where nothing holds it back any more. -/
def sendPending (v : Nat) (s : State) : State :=
  let e := msixGet s v
  if e.pend && !e.masked && s.host.msixEn && !s.host.msixMask && canRequest s then
    emit (.msix (BitVec.ofNat 11 v)) (msixSet v { e with pend := false } s)
  else s

def sendAllPending (s : State) : State := foldS (s.host.msix.map (·.1)) sendPending s

/-- MSIX_UNMASK (R219): the mask of one vector clears, or the function mask. -/
def execMsixUnmask (vector : Option (Fin 2048)) (s : State) : Host.Outcome State Fault Refusal :=
  .next <|
    match vector with
    | some v =>
      if !bar0Open s then refuseAccess false none s
      else if s.host.flr.isSome then countIgnored 0x10000 s
      else sendPending v.val (msixSet v.val { msixGet s v.val with masked := false } s)
    | none => if cfgOpen s then sendAllPending { s with host := { s.host with msixMask := false } } else s

/-- Bits of INTX_STATUS clear by software's write; the last one's clearing sends Deassert_INTA in INTA mode. -/
def intxClear (mask : BitVec 2048) (s : State) : State :=
  let st := s.host.intxStatus &&& ~~~mask
  let s1 := { s with host := { s.host with intxStatus := st, intxAsserted := s.host.intxAsserted && st ≠ 0 } }
  if s.host.intxAsserted && st = 0 && mayIntx s then emit (.intx false) s1 else s1

/-- INTX_CLEAR (R219). -/
def execIntxClear (word : Fin 32) (ones : W64) (s : State) : Host.Outcome State Fault Refusal :=
  .next <|
    if !bar0Open s then refuseAccess false none s
    else if s.host.flr.isSome then countIgnored 0x40100 s
    else intxClear ((ones.setWidth 2048) <<< (64 * word.val)) s

/-! ### Idern's host reads (R220 to R224) -/

def dropRead (t : Nat) (s : State) : State :=
  { s with host := { s.host with reads := s.host.reads.filter (fun r => r.tag ≠ t) } }

def quarantine (t : Nat) (s : State) : State :=
  { s with host := { s.host with tagsQuar := s.host.tagsQuar ++ [(t, after (4 * ctoTicks s.host.ctoValue) s)] } }

/-- The descriptor a failed read belonged to fails (R222, R224). -/
def readFailed (r : HostRead) (code : Nat) (s : State) : State :=
  match r.use with
  | .engine e => failXfer e code s
  | .walker e => walkReadFailed e s
  | .orphan => s

/-- A read times out (R221, R222): it is issued again with a fresh tag, as soon as there is one. Table 12-5 gives a descriptor
that fails by timeout no outcome code: its DETAIL is a free value (notes/assumptions/1.md). -/
def readTimesOut (r : HostRead) (s : State) : State :=
  let s1 := quarantine r.tag (raise 2917 .uc r.tag (aerLog 14 (count 2547 (dropRead r.tag s))))
  if s.host.readRetries.toNat ≤ r.retries then
    let (n, s2) := drawFree s1
    pumpReads (readFailed r (Config.freeWord n).toNat s2)
  else
    match r.use with
    | .orphan => pumpReads s1
    | .walker e =>
      match xferGet s1 e with
      | none => pumpReads s1
      | some x => pumpReads (xferSet e (some { x with walk := x.walk.map (fun w =>
          { w with retries := r.retries + 1, toIssue := true }) }) s1)
    | .engine e =>
      match xferGet s1 e with
      | none => pumpReads s1
      | some x => pumpReads (xferSet e (some { x with toRead := (r.addr.toNat, r.bytes, r.retries + 1) :: x.toRead }) s1)

/-- A completion for a tag in quarantine (R223). -/
def lateCompletion (t : Nat) (s : State) : State :=
  pumpReads (raise 2918 .ce t (count 2548
    { s with host := { s.host with tagsQuar := dropFirst (fun q => q.1 = t) s.host.tagsQuar } }))

/-- HOST_READ_COMPLETION (R224). A page-table entry goes to its walker; the data of an engine goes with TRANSFER_CHUNK_END.
After the deadline the time-out comes first, and the completion is a late one. -/
def execHostReadCompletion (tag : BitVec 14) (status : CplStatus) (data : List Byte) (s : State) :
    Host.Outcome State Fault Refusal :=
  .next <|
    match s.host.reads.find? (fun r => r.tag = tag.toNat) with
    | none => s
    | some r =>
      if !alive s || !s.host.dlUp then s
      else if due r.deadline s then lateCompletion r.tag (readTimesOut r s)
      else
        let s1 := dropRead r.tag (countN 2544 data.length s)
        match status with
        | .ok => pumpReads (match r.use with
          | .walker e => walkData e (le64 data) s1
          | _ => s1)
        | .ep => pumpReads (readFailed r 7 (raise 2919 .uc r.tag s1))
        | _ => pumpReads (readFailed r 6 (raise 2919 .uc r.tag s1))

/-- COMPLETION_TIMEOUT (R221, R222). -/
def execCompletionTimeout (tag : BitVec 14) (s : State) : Host.Outcome State Fault Refusal :=
  .next <|
    match s.host.reads.find? (fun r => r.tag = tag.toNat) with
    | none => s
    | some r => if !alive s || !due r.deadline s then s else readTimesOut r s

/-- LATE_COMPLETION (R223). -/
def execLateCompletion (tag : BitVec 14) (s : State) : Host.Outcome State Fault Refusal :=
  .next <|
    if alive s && s.host.dlUp && s.host.tagsQuar.any (fun q => q.1 = tag.toNat) then lateCompletion tag.toNat s else s

/-- TAG_QUARANTINE_EXPIRY (R223). -/
def execTagQuarantineExpiry (tag : BitVec 14) (s : State) : Host.Outcome State Fault Refusal :=
  .next <|
    let gone := fun (q : Nat × Nat) => q.1 = tag.toNat && due q.2 s
    if alive s && s.host.tagsQuar.any gone then
      pumpReads { s with host := { s.host with tagsQuar := dropFirst gone s.host.tagsQuar } }
    else s

end Sys2Proof.Machine
end

