-- ==== Sys2Proof/Machine/Recovery.lean ====
section
/-!
DEFINITION. Machine/Recovery.lean: rebuilding streams, long operations and contexts from the cinch journal, and discarding
it (06_pair_and_guarantee.md R179 to R181, R188 to R190; 14_power_and_startup.md R362).
-/
namespace Sys2Proof.Machine

/-! ### The region header (Table 6-9) -/

def headerBytes (s : State) : List Byte :=
  [0x4B, 0x4A, 0x4E, 0x4C] ++ leBytes 2 1 ++ [0, 0] ++ leBytes 4 s.pair.epoch.toNat ++ List.replicate 4 0 ++
    leBytes 8 Config.serial.toNat ++ leBytes 8 s.pair.partnerSerial.toNat ++ leBytes 4 (regionLines s) ++ List.replicate 28 0

def putHeader (s : State) : State := jWrite 0 (headerBytes s) s

/-- A pair state is entered; the region header follows PAIR_EPOCH and PARTNER_SERIAL. -/
def enterPair (st : PairSt) (s : State) : State := putHeader (setPair st s)

/-! ### Reading an extent (R180) -/

/-- Word of a byte list. -/
def w32At (b : List Byte) (off : Nat) : Nat := leNat (slice b off 4)

/-- The record of a slot; none where the slot is not valid for the handle. -/
def slotRecord (s : State) (x : Stream) (i seq : Nat) : Option (List Byte) :=
  let b := jRead s (x.slotOff seq) 128
  if b.getD 0 0 = 1 && le64 (b.drop 8) = x.handle i && w32At b 4 = seq then some b else none

/-- A record as sealed, out of its 128 bytes; `toks` are its token IDs. -/
def parseRecord (x : Stream) (b : List Byte) (toks : List W32) : OutRec :=
  let pay := slice b 32 96
  let n := (b.getD 2 0).toNat
  { seq := BitVec.ofNat 32 (w32At b 4)
    tokens := if x.raw then [] else if x.utf8 then toks else (List.range n).map (fun k => le32 (pay.drop (4 * k)))
    bytes := if x.utf8 then pay.take (b.getD 0x1E 0).toNat else []
    position := BitVec.ofNat 32 (w32At b 0x18), final := (b.getD 1 0).getLsbD 1, restart := (b.getD 1 0).getLsbD 3
    status := b.getD 3 0, restarts := b.getD 0x1C 0, reason := b.getD 0x1D 0
    laneExc := if x.raw then le16 pay else 0 }

/-- Records of slots 0 to `s` in order; a UTF8 stream's token IDs come from the token area. -/
def slotRecords (s : State) (x : Stream) (i top : Nat) : List OutRec :=
  ((List.range (top + 1)).foldl (fun (acc : Nat × List OutRec) q =>
    match slotRecord s x i q with
    | some b =>
      let n := (b.getD 2 0).toNat
      let ids := jRead s (x.tokenOff + 4 * acc.1) (4 * n)
      (acc.1 + n, acc.2 ++ [parseRecord x b ((List.range n).map (fun k => le32 (ids.drop (4 * k))))])
    | none => acc) (0, [])).2

/-- What the journal holds at a stream index entry. -/
inductive Extent where
  | free
  /-- The extent fails its CHECK. -/
  | bad
  | held (x : Stream) (recs : List OutRec)

/-- CHECK of an extent's header line over it and the request lines (Table 6-11a). -/
def checkOk (h req : List Byte) : Bool := (crc32c (h.take 60 ++ [0, 0, 0, 0] ++ req)).toNat = w32At h 60

/-- The stream of index entry `i` as the journal holds it, before any event since its last seal. -/
def extentAt (s : State) (i : Nat) : Extent :=
  let b := jRead s (offIndex i) 32
  let lines := w32At b 4
  let e0 : Stream := { inc := BitVec.ofNat 31 (w32At b 8), used := true, extentLine := w32At b 0, extentLines := lines }
  if lines = 0 then .free
  else
    let h := jRead s e0.extentOff 64
    let reqLines := w32At h 0x18
    let req := jRead s (e0.extentOff + 64) (64 * reqLines)
    let hd := leNat (slice h 8 8)
    if lines ≤ reqLines || !checkOk h req || hd % 2 ^ 18 ≠ i || hd / 2 ^ 32 % 2 ^ 31 ≠ e0.inc.toNat then .bad
    else
      let e : BitVec 512 := BitVec.ofNat 512 (leNat (req.take 64))
      let ctx : BitVec 12 := BitVec.ofNat 12 (hd / 2 ^ 18)
      let x : Stream :=
        { streamOf (leNat (slice h 2 2)) e (req.drop 64) ctx with
            inc := e0.inc, used := true, cid := le16 (h.drop 4), cinchTs := le64 (h.drop 0x10)
            extentLine := e0.extentLine, extentLines := lines, reqLines := reqLines, reqBytes := req
            handed := (b.getD 0xC 0).getLsbD 1, restarts := (b.getD 0xD 0).toNat, deliverCq := le16 (b.drop 0xE)
            ackedSeq := le32 (b.drop 0x10), priority := BitVec.ofNat 3 (b.getD 0x15 0).toNat
            susp := if b.getD 0x14 0 = 1 then suspCmd else 0 }
      match (List.range x.recordSlots).reverse.find? (fun q => (slotRecord s x i q).isSome) with
      | some top => .held x (slotRecords s x i top)
      | none => .held x []

/-- The reads of a stream's extent: its index entry, header and request lines, and record slots. -/
def extentTouch (i : Nat) (x : Stream) (recs : List OutRec) (s : State) : State :=
  foldS recs (fun r => jTouch (x.slotOff r.seq.toNat) 128)
    (jTouch x.extentOff (64 * (1 + x.reqLines)) (jTouch (offIndex i) 32 s))

/-- Steps 2 to 7 of R188: the committed tokens and records, the terminal status where slot s holds a FINAL record, and
else QUEUED with RESTARTS incremented (not after an orderly release), or SUSPENDED with its reasons. -/
def rebuilt (x : Stream) (recs : List OutRec) (orderly : Bool) (extra : BitVec 5) (now : Nat) : Stream :=
  let y : Stream :=
    { x with committed := recs.flatMap (·.tokens), nextSeq := BitVec.ofNat 32 (((recs.getLast?).map (fun r => r.seq.toNat + 1)).getD 0)
             sealed := recs.filter (fun r => x.ackedSeq.toNat ≤ r.seq.toNat), writeSeq := x.ackedSeq, handed := orderly || x.handed }
  match recs.getLast? with
  | some r =>
    if r.final then
      { y with st := if r.status.toNat = stDone then .done else if r.status.toNat = stCancelled then .cancelled else .limited
               susp := 0, reason := r.reason, laneExc := r.laneExc }
    else
      { y with st := if x.susp ||| extra = 0 then .queued else .suspended, susp := x.susp ||| extra, queuedSince := now
               restarts := if orderly then x.restarts else x.restarts + 1, restartPending := !orderly, restartMark := !orderly }
  | none =>
    { y with st := if x.susp ||| extra = 0 then .queued else .suspended, susp := x.susp ||| extra, queuedSince := now
             restarts := if orderly then x.restarts else x.restarts + 1, restartPending := !orderly, restartMark := !orderly }

/-- A rebuilt stream takes its record; its index entry names this member as owner (R188 steps 1, 4). -/
def takeRecord (i : Nat) (x : Stream) (s : State) : State :=
  putIndex i .other (streamSet i { x with cinchSeq := s.service.nextCinch } <| foreignSet i (0, 0)
    { s with service := { s.service with nextCinch := s.service.nextCinch + 1 } })

/-- The index entry of a record is freed; its INCARNATION stays (R145, R182). -/
def freeIndex (i : Nat) (s : State) : State :=
  let b := jRead s (offIndex i) 32
  let e := (w32At b 0, w32At b 4)
  let h := jRead s (offExtents + 64 * e.1) 64
  jWrite (offIndex i) (List.replicate 8 0 ++ slice b 8 4 ++ List.replicate 20 0) <| foreignSet i (0, 0)
    { s with service := { s.service with
        freeExtents := s.service.freeExtents ++ [(leNat (slice h 8 8) / 2 ^ 18 % 4096, e.1, e.2)] } }

/-! ### Delivery targets (R189) -/

/-- The queue of this member that takes over what went to queue `cq` of the partner. -/
def twinQueue (s : State) (cq : Nat) (ctx : BitVec 12) : Option Nat :=
  let t := leNat (jRead s (offTwin (1 - roleN s) cq) 8)
  let n := t % 2 ^ 15
  let q := qpGet s n
  if t.testBit 62 && q.armed && q.ctx = ctx then some n else none

/-! ### Long operations of the journal (R181, R190) -/

/-- Starts the sweep of a BURNISH or ROTATE_KEY in slot `j`, from the units already done. -/
def startSweep (j : Nat) (x : LongOp) (s : State) : State :=
  let t := x.target.toNat
  let s1 := if x.opcode = 0x12 then burnishStart j t s else rotateStart j t s
  opMod j (fun y => { y with doneUnits := x.doneUnits, totalUnits := if x.totalUnits = 0 then y.totalUnits else x.totalUnits }) s1

/-- A shadow context loses its model. -/
def shadowUnload (n : Nat) (s : State) : State :=
  let c := ctxGet s n
  let st : CtxState := if c.st = .bound then (if c.modelKey = 0 then .created else .keyed) else c.st
  ctxSet n { c with st := st } (undoLoad n s)

/-- One slot of the journal after its member is gone: LOAD_MODEL and MIGRATE end CANCELLED, a BURNISH or ROTATE_KEY goes
on, an ended operation keeps its final entry; `own` where the entry is this member's (R362). -/
def takeOp (own : Bool) (j : Nat) (s : State) : State :=
  match tableOp s j with
  | none => s
  | some x0 =>
    let cur := opGet s j
    if cur.st ≠ .free && !cur.shadow then s
    else
      let (cq, held) :=
        if own || x0.deliverCq = 0xFFFF then (x0.deliverCq, false)
        else match twinQueue s x0.deliverCq.toNat x0.ctx with
          | some n => (BitVec.ofNat 16 n, false)
          | none => (x0.deliverCq, true)
      let x := { x0 with deliverCq := cq, held := held }
      let s := jTouch (offLongOp j) 128 s
      let s1 :=
        if !x0.isOpen then opSet j x s
        else if x0.opcode = 0x12 || x0.opcode = 0x13 then
          if cur.shadow then opSet j { cur with shadow := false, deliverCq := cq, held := held, sq := x0.sq } s
          else startSweep j x (opSet j x s)
        else
          let y := { x with st := .cancelled, status := BitVec.ofNat 8 stCancelled }
          opSet j y (if x0.opcode = 0x10 then shadowUnload x0.target.toNat s else s)
      let s2 := if x0.deliverCq = 0xFFFF && (opGet s1 j).isOpen then
          { s1 with service := { s1.service with burnFinal := 0xFF, burnUnits := x0.doneUnits } }
        else s1
      putOp j .other { s2 with pair := { s2.pair with takenOps := s2.pair.takenOps + b2n x0.isOpen } }

/-! ### Discarding (R362, Table 6-14, R192) -/

/-- Every stream, long operation and context, their models, keys and memory, and every table of the journal. Incarnations
that this member knows stay. -/
def discardJournal (s : State) : State :=
  let ids := s.service.streams.map (·.1)
  let ctxs := s.sec.contexts.map (·.1)
  let s1 := foldS (s.piers.runs.map (·.id)) (fun r s => dropRun r (abortItems r s)) s
  let s2 := foldS ctxs (fun c s => unbindCtx c (takeRoles c s)) s1
  let freed := fun (e : Nat × Stream) => (e.1, ({ inc := e.2.inc, used := true } : Stream))
  let freedOp := fun (e : Nat × LongOp) => (e.1, ({ inc := e.2.inc, used := true } : LongOp))
  let bareCtx := fun (c : Context) => { ({ admitted := c.admitted, hostmem := c.hostmem, stamp := c.stamp + 1 } : Context) with spillVa := c.spillVa }
  let bareCtx := fun (c : Context) => { bareCtx c with spillSlots := c.spillSlots, spillSlotKib := c.spillSlotKib }
  let bare := fun (e : Nat × Context) => (e.1, bareCtx e.2)
  let sv := { s2.service with streams := s2.service.streams.map freed, longOps := s2.service.longOps.map freedOp }
  let sv := { sv with batches := [], freeExtents := [] }
  let pr := { s2.pair with imageParts := [], cursorDirty := [], acks := [], ackHeld := [], foreign := [] }
  let sc := { s2.sec with slots := [], scrubKey := 0, createWait := [], contexts := s2.sec.contexts.map bare }
  let s3 := { s2 with service := sv, pair := pr, sec := sc, piers := { s2.piers with models := [], pool := [] } }
  let s4 := putHeader (jWrite 0x10000 (List.replicate 0x8F0000 0) s3)
  foldS ids keepIndex s4

/-! ### Recovery (R362) -/

/-- The journal's table holds context `n` (STATE 01h or 02h). -/
def restorable (s : State) (n : Nat) : Bool :=
  let st := (jRead s (offContext n) 64).getD 0 0
  st = 1 || st = 2

/-- Contexts of the journal's table come back, without a model. -/
def recoverContext (n : Nat) (s : State) : State :=
  let b := jRead s (offContext n) 64
  if restorable s n then
    let c := ctxGet s n
    let e : BitVec 2 := BitVec.ofNat 2 (b.getD 0x1C 0).toNat
    let old : KeySlot := tget (fun _ => {}) s.sec.slots (2 * n + (e.toNat + 1) % 2)
    jTouch (offContext n) 64 <| ctxSet n { c with st := if c.modelKey = 0 then .created else .keyed, epoch := e, rotOpen := old.st = .retiring } s
  else s

/-- DEADLINE_TS after the reset; `gone` where it had passed. -/
def rebase (d reset now : W64) : W64 × Bool :=
  if d = 0 then (0, false) else if d.toNat ≤ reset.toNat then (d, true) else (now + (d - reset), false)

/-- One recovered extent: its time stamps are rebased and written back, and its stream waits for its queue and its model. -/
def recoverStream (i : Nat) (x : Stream) (recs : List OutRec) (s : State) : State :=
  let (d, gone) := rebase x.deadlineTs s.power.retained.resetTs s.tsNow
  let req := x.reqBytes.take 0x50 ++ leBytes 8 d.toNat ++ x.reqBytes.drop 0x58
  let origin := ((jRead s (x.extentOff + 1) 1).getD 0 0).toNat % 2
  let x1 := { x with cinchTs := 0, deadlineTs := d, reqBytes := req }
  let y := rebuilt x1 recs false (suspHost ||| suspModel) s.ticks
  let s1 := jPut y.extentOff (extentHeader y i origin req ++ req) .other (extentTouch i x recs s)
  let s2 := takeRecord i y s1
  if gone && !y.terminal then endStream i .limited 3 0 s2 else s2

/-- Recovery of this member's own journal; streams in the order of their former CINCH_TS. A context restored is one created, which
locks the region table (R122). -/
def recoverJournal (s : State) : State :=
  let s0 := foldS (List.range 4096) recoverContext s
  let s1 := if (List.range 4096).any (restorable s) then setLock s0 else s0
  let inc := fun (i : Nat) (s : State) =>
    let n := w32At (jRead s (offIndex i) 32) 8
    if n = 0 then s else streamSet i { inc := BitVec.ofNat 31 n, used := true } s
  let opInc := fun (j : Nat) (s : State) =>
    let n := leNat (jRead s (offLongOp j + 0x40) 8) / 2 ^ 32
    if n % 2 ^ 31 = 0 then s else opSet j { inc := BitVec.ofNat 31 n, used := true } s
  let s2 := foldS (List.range 1024) opInc (foldS (List.range 262144) inc s1)
  let bad := (List.range 262144).filter (fun i => match extentAt s2 i with | .bad => true | _ => false)
  let s3 := foldS bad (fun i s => raise 2928 .ft s.viaduct.retrains.toNat (count 2611 (freeIndex i s))) s2
  let held := (List.range 262144).filterMap (fun i => match extentAt s2 i with | .held x r => some (i, x, r) | _ => none)
  let before := fun (a b : Nat × Stream × List OutRec) => decide (a.2.1.cinchTs.toNat ≤ b.2.1.cinchTs.toNat)
  let insert := fun (acc : List (Nat × Stream × List OutRec)) a => acc.takeWhile (fun b => before b a) ++ [a] ++ acc.dropWhile (fun b => before b a)
  let s4 := foldS (held.foldl insert []) (fun e => recoverStream e.1 e.2.1 e.2.2) s3
  foldS (List.range 1024) (takeOp true) s4

end Sys2Proof.Machine
end

