-- ==== Sys2Proof/Machine/PairState.lean ====
section
/-!
DEFINITION. Machine/PairState.lean: pair states, loss and takeover, heartbeats and the handshake, the partner bay
(06_pair_and_guarantee.md R175, R177, R184 to R194, R196).
-/
namespace Sys2Proof.Machine

/-! ### Ends of waits for the partner (R182, R183, R338) -/

/-- The CTX_CREATE response that waited for the message of a tag. -/
def createDone (t : W32) (s : State) : State :=
  foldS (s.sec.createWait.filter (fun c => c.1 = t)) (fun c => emit (.spdm c.2 (.vendor 2 0)))
    { s with sec := { s.sec with createWait := s.sec.createWait.filter (fun c => c.1 ≠ t) } }

/-- Re-mirroring is complete (R192, Table 17-2). -/
def mirrorDone (s : State) : State :=
  let p := s.pair
  let s1 := trace 0x13 (uCore 6) (s.ticks - p.rejoinStart) p.bytesCopied s
  enterPair .mirrored { s1 with pair := { s1.pair with source := false, landed := none } }

/-- What waited for an acknowledgement goes on; a status other than 00h fails a LOAD_MODEL (R183). -/
def ackDone (w : AckWait) (status : Byte) (s : State) : State :=
  match w with
  | .cinch i => cinch i s
  | .seal _ _ | .other => s
  | .longOp j =>
    if !(opGet s j).isOpen then s
    else if (opGet s j).opcode ≠ 0x10 then
      if (opGet s j).binding then answerHeld j (endOp j .done stDone 0 0 s) else s
    else if status ≠ 0 then answerHeld j (failLoad j status.toNat 0 0 s)
    else if (opGet s j).binding then answerHeld j (finishLoad j s)
    else s
  | .image j => if status ≠ 0 && (opGet s j).isOpen then answerHeld j (failLoad j status.toNat 0 0 s) else s
  | .copyEnd => if s.pair.st = .rejoining && s.pair.source then mirrorDone s else s
  | .answer qp c => complete qp c s

/-- The partner is gone: every mirror step that is outstanding is complete (R154, R182). -/
def loseAcks (s : State) : State :=
  foldS (s.pair.acks.filter (fun a => a.2 ≠ .copyEnd)) (fun a s => createDone a.1 (ackDone a.2 0 s))
    { s with pair := { s.pair with acks := [] } }

/-- A run stops at a stitch (R87) on the first pier of its set. -/
def haltAt (run stitch code : Nat) (s : State) : State :=
  let pier := (((runGet s run).bind (envOf s)).bind (fun e =>
    (e.prog.stitch stitch).map (fun st => e.actual ((st.roles e.prog).headD 0)))).getD 0
  haltRun run stitch code pier s

/-- A WINDOW request ends with DOMAIN_OFF (R186, Table 11-5). -/
def windowLost (u : WinUser) (s : State) : State :=
  match u with
  | .engine e => failXfer e 7 s
  | .signal r i | .read r i _ _ => haltAt r i 3 s
  | .write r => haltAt r 0 3 s

def loseWindows (s : State) : State :=
  foldS s.pair.winReqs (fun w => windowLost w.2) { s with pair := { s.pair with winReqs := [] } }

/-! ### Training (R175) -/

/-- Bounds of Table 6-3, in ticks. -/
def trainBound : Nat → Nat
  | 2 => 500000
  | 4 | 6 => 1000
  | 5 => 2000000
  | _ => 2000

/-- VIADUCT_TRAIN record. -/
def traceTrain (last : Nat) (s : State) : State :=
  trace 0x14 uViaduct (last + 256 * b2n s.viaduct.up) s.viaduct.retrains.toNat s

/-- UP changes: LINK_CHG, and the link source (R196, Table 12-5). -/
def setUp (up : Bool) (s : State) : State :=
  if s.viaduct.up = up then s
  else
    raiseLevel 2923 .uc (!up) s.viaduct.retrains.toNat
      { s with viaduct := { s.viaduct with up := up }, pair := { s.pair with linkChg := true } }

/-- The adapter without a link: no step, nothing queued or held. -/
def Viaduct.idle (v : Viaduct) : Viaduct :=
  { up := v.up, reversed := v.reversed, retrains := v.retrains, flightPs := v.flightPs, nextTag := v.nextTag }

def adapterIdle (s : State) : State :=
  { s with viaduct := s.viaduct.idle, sec := { s.sec with kxStep := 0 } }

def stepTo (n : Nat) (s : State) : State :=
  { s with viaduct := { s.viaduct with step := BitVec.ofNat 3 n, stepDeadline := after (trainBound n) s } }

/-- The frame numbers and the training key of R344. -/
def newNumbers (key : Nat) (s : State) : State :=
  let ones : W64 := BitVec.allOnes 64
  let v := { s.viaduct with txNum := 0, rxAck := ones, peerAck := ones, nak := false, held := [], replay := [] }
  { s with viaduct := v, sec := { s.sec with pairKey := key } }

/-- The lower half holds every live record, operation and context; the same for the upper half. -/
def inHalf (upper : Bool) (s : State) : Bool :=
  (streamIds s).all (fun i => decide (131072 ≤ i) = upper) && (opIds s).all (fun j => decide (512 ≤ j) = upper) &&
    s.sec.contexts.all (fun c => c.2.st = .free || decide (2048 ≤ c.1) = upper)

/-- SOLO with PAIR_MODE 1 and a partner goes to PAIRING where everything live lies in one half, which fixes the role
(Table 6-12). -/
def tryPairing (s : State) : State :=
  if s.pair.st = .solo && s.pair.mode && s.pair.present && s.pair.rejoinEn && (inHalf false s || inHalf true s) then
    let s1 := enterPair .pairing s
    { s1 with pair := { s1.pair with prev := .solo, roleB := !inHalf false s, pairWaitBy := after s1.pair.pairWait.toNat s1 } }
  else s

/-- Training starts while the partner is present and its bay has power. -/
def startTraining (s : State) : State :=
  if s.pair.present && !s.pair.pwrOff && s.power.phase = .served && !s.faults.safe && s.viaduct.step = 0 && !s.viaduct.up then
    stepTo 1 (tryPairing (adapterIdle s))
  else s

/-- A step aborts training; it starts again after 100,000 ticks. -/
def abortTraining (s : State) : State :=
  let last := s.viaduct.step.toNat
  let s1 := { s with viaduct := { s.viaduct with retrains := satAdd s.viaduct.retrains 1 } }
  let s2 := adapterIdle (traceTrain last s1)
  { s2 with viaduct := { s2.viaduct with restartAt := some (after 100000 s2) } }

/-- What ends a step of training in time; a step past its bound aborts (R175). -/
def inTrainStep (f : State → State) (s : State) : State :=
  if s.viaduct.step ≠ 0 && due s.viaduct.stepDeadline s then abortTraining s else f s

/-! ### Loss, fence and takeover (R186 to R191, R194) -/

/-- PRT_PWREN low: PWR_CTL reads 1, and the link to the partner is down. -/
def partnerOff (s : State) : State :=
  adapterIdle (setUp false { s with pair := { s.pair with pwrOff := true } })

/-- Records of the partner whose extents the journal holds, in stream-index order. -/
def partnerRecords (s : State) : List Nat :=
  if (jRegion s).isNone then []
  else (List.range 262144).filter (fun i => (streamGet s i).st = .free && w32At (jRead s (offIndex i) 32) 4 ≠ 0)

/-- TAKEOVER_END. -/
def takeEnd (s : State) : State :=
  let p := s.pair
  trace 0x12 (uCore 6) p.takenStreams p.takenOps { s with pair := { p with take := .none, takenStreams := 0, takenOps := 0, landed := none } }

/-- The takeover begins: long operations first (R190), then the records one by one. -/
def startTaking (orderly : Bool) (s : State) : State :=
  let s1 := foldS (List.range 1024) (takeOp false) s
  match partnerRecords s1 with
  | [] => takeEnd s1
  | todo => { s1 with pair := { s1.pair with take := .taking todo orderly } }

/-- Streams that an orderly release suspended, for none of the reasons of R155, go on where the release is not completed. -/
def releaseOff (s : State) : State :=
  foldS ((streamIds s).filter (fun i => (streamGet s i).st = .suspended && (streamGet s i).susp = 0))
    (fun i s => streamMod i (fun x => { x with st := .queued, queuedSince := s.ticks }) s)
    { s with pair := { s.pair with leaving := false } }

/-- DEGRADED: every outstanding wait for the partner ends. -/
def leavePair (s : State) : State :=
  let s1 := enterPair .degraded (releaseOff s)
  let v := { s1.viaduct with cursor := [], journal := [], window := [], begun := none }
  let s2 := foldS (opIds s1) (fun j => opMod j (fun x => { x with sentTo := 0 })) s1
  loseWindows (loseAcks { s2 with viaduct := v, pair := { s1.pair with cursorDirty := [], ackHeld := [] } })

/-- The partner is declared lost (R186, R187, R194); `cause` as in Table 17-2. A source that resets the chip leaves no takeover. -/
def partnerLost (cause : Nat) (s : State) : State :=
  if s.pair.st ≠ .mirrored && s.pair.st ≠ .rejoining then s
  else
    let rejoiner := s.pair.st = .rejoining && !s.pair.source
    let s1 := leavePair (trace 0x11 (uCore 6) cause s.pair.missed.toNat s)
    let s2 := raise 2925 .uc s1.viaduct.retrains.toNat { s1 with pair := { s1.pair with source := false } }
    let s3 := if rejoiner then raise 2928 .ft s2.viaduct.retrains.toNat s2 else s2
    if s3.pair.st ≠ .degraded then s3
    else if s3.pair.roleB then { s3 with pair := { s3.pair with take := .holdoff (after s3.pair.bHoldoff.toNat s3) } }
    else
      let s4 := partnerOff s3
      { s4 with pair := { s4.pair with take := .fenceWait (after s4.pair.fenceWait.toNat s4) } }

/-- A beat with LEAVING: orderly takeover, without a fence (R191). -/
def orderlyTakeover (s : State) : State :=
  if s.pair.st = .mirrored then startTaking true (leavePair s) else s

/-- The link is down (R174, R186). -/
def linkDown (s : State) : State :=
  let s1 := adapterIdle (traceTrain 3 (setUp false s))
  startTraining (partnerLost 2 s1)

/-- B_HOLDOFF_EXPIRY (R187). -/
def execBHoldoffExpiry (s : State) : Host.Outcome State Fault Refusal :=
  .next <|
    match s.pair.take with
    | .holdoff d =>
      if alive s && !s.faults.safe && due d s then
        let s1 := partnerOff s
        { s1 with pair := { s1.pair with take := .fenceWait (after s1.pair.fenceWait.toNat s1) } }
      else s
    | _ => s

/-- FENCE_WAIT_EXPIRY (R187, R188, R190). -/
def execFenceWaitExpiry (s : State) : Host.Outcome State Fault Refusal :=
  .next <|
    match s.pair.take with
    | .fenceWait d => if alive s && !s.faults.safe && due d s then startTaking false s else s
    | _ => s

/-- A taken-over stream: its delivery target (R189), QUEUED or terminal, its STREAM_RESTART record. One that no queue here serves
and that already holds HELD_RECORDS undelivered records takes no lane: it is SUSPENDED with HELD at once (R152). -/
def takeStream (i : Nat) (x : Stream) (recs : List OutRec) (orderly : Bool) (s : State) : State :=
  let noProg := (programOf s x.ctx.toNat (if x.raw then .raw else .decode)).isNone
  let twin := twinQueue s x.deliverCq.toNat x.ctx
  let full := decide (s.service.heldRecords.toNat ≤ (recs.filter (fun r => x.ackedSeq.toNat ≤ r.seq.toNat)).length)
  let y := rebuilt x recs orderly ((if noProg then suspModel else 0) ||| (if twin.isNone && full then suspHeld else 0)) s.ticks
  let z := match twin with
    | some n => { y with deliverCq := BitVec.ofNat 16 n }
    | none => { y with held := true }
  let s1 := takeRecord i z { s with pair := { s.pair with takenStreams := s.pair.takenStreams + 1 } }
  if z.terminal || orderly then s1
  else count 2605 (trace 0x32 (uSched x.ctx.toNat) (x.handle i).toNat 0 s1)

/-- The scheduler core whose work record `i` is. -/
def takeCore (s : State) (i : Nat) : Nat :=
  match extentAt s i with
  | .held x _ => schedCore x.ctx.toNat
  | _ => 2

/-- The extent's header line has come since this member began to rejoin, or it was not rejoining (R194). -/
def extentWhole (s : State) (x : Stream) : Bool :=
  match s.pair.landed with
  | none => true
  | some l => l.any (fun r => r.1 * 64 ≤ x.extentOff && x.extentOff < (r.1 + r.2) * 64)

/-- STREAM_TAKEOVER (R188): each core takes its contexts' streams in stream-index order. An extent that fails its CHECK
is freed, and so is one whose copy to a rejoiner was not complete: its header line, the last one sent, had not come (R192,
R194). -/
def execStreamTakeover (record : Fin 262144) (s : State) : Host.Outcome State Fault Refusal :=
  .next <|
    let i := record.val
    match s.pair.take with
    | .taking todo orderly =>
      let before := (todo.takeWhile (· ≠ i)).any (fun k => takeCore s k = takeCore s i)
      if !alive s || s.faults.safe || !todo.contains i || before then s
      else
        let s1 := match extentAt s i with
          | .held x recs => if extentWhole s x then takeStream i x recs orderly (extentTouch i x recs s) else freeIndex i s
          | .bad => count 2611 (freeIndex i s)
          | .free => s
        let rest := todo.filter (· ≠ i)
        if rest.isEmpty then takeEnd s1 else { s1 with pair := { s1.pair with take := .taking rest orderly } }
    | _ => s

/-! ### Beats (R177) -/

/-- Free records and journal lines of the member's own half. -/
def ownFree (s : State) : Nat × Nat :=
  let (lo, n) := ownPart 262144 s
  let (a, m) := ownPart (areaLines s) s
  let used := ((extentsUsed s).filter (fun u => a ≤ u.1 && u.1 < a + m)).map (·.2)
  (n - ((streamIds s ++ s.pair.foreign.map (·.1)).filter (fun i => lo ≤ i && i < lo + n)).length, m - used.sum)

/-- The journal holds live extents or contexts. -/
def ownLive (s : State) : Bool :=
  s.pair.journalKept || !(streamIds s).isEmpty || s.sec.contexts.any (fun c => c.2.st ≠ .free)

def fencedIn (s : State) (lo n : Nat) : Nat := ((List.range n).filter (fun d => (pdGet s (lo + d)).st = .fenced)).length

/-- A HEALTH BEAT of this member (Table 6-8). -/
def beatOf (s : State) (leaving : Bool) : Beat :=
  { hbSeq := s.pair.hbSeq, state := BitVec.ofNat 8 s.pair.st.code, role := BitVec.ofNat 8 (b2n s.pair.roleB)
    leaving := leaving, failing := false, live := ownLive s, pairEpoch := s.pair.epoch
    freeRecords := BitVec.ofNat 32 (ownFree s).1, freeLines := BitVec.ofNat 32 (ownFree s).2
    regionLines := BitVec.ofNat 32 (regionLines s), ownSerial := Config.serial
    fencedPiers := BitVec.ofNat 16 (fencedIn s 0 320), fencedStacks := BitVec.ofNat 8 (fencedIn s 328 4)
    fencedPorts := BitVec.ofNat 8 ((List.range 6).filter (fun n => (portGet s n).st = .fenced)).length }

/-- Queues a beat. -/
def sendBeat (leaving : Bool) (s : State) : State :=
  let b := beatOf s leaving
  { s with viaduct := { s.viaduct with health := s.viaduct.health ++ [.beat b] }
           pair := { s.pair with hbSeq := s.pair.hbSeq + 1, lastBeat := some b } }

/-- Every stream of the leaving member has left its lane and the last seal is acknowledged (R191). -/
def readyToLeave (s : State) : Bool :=
  s.pair.leaving && s.pair.acks.isEmpty && (streamIds s).all (fun i => !(streamGet s i).holds)

/-- HEARTBEAT_INTERVAL (R177, R186): the boundary of a 100-tick interval. -/
def execHeartbeatInterval (s : State) : Host.Outcome State Fault Refusal :=
  .next <|
    if !alive s || s.faults.safe || !due s.pair.nextBeat s then s
    else
      let s1 := ringDoorbell 6 1 { s with pair := { s.pair with nextBeat := s.pair.nextBeat + 100 } }
      if !s.viaduct.up then s1
      else if readyToLeave s1 then enterPair .solo (discardJournal (sendBeat true { s1 with pair := { s1.pair with leaving := false } }))
      else
        let s2 := sendBeat false s1
        if s.pair.st ≠ .mirrored && s.pair.st ≠ .rejoining then s2
        else
          let m := if s.pair.beatSeen then 0 else satAdd s.pair.missed 1
          let s3 := { s2 with pair := { s2.pair with missed := m, beatSeen := false } }
          if 8 ≤ m.toNat then partnerLost 1 s3 else s3

/-! ### Handshake (R184, Table 6-12, R338) -/

/-- The rejoiner installs the partner's bundles into shadow contexts (R338); memory keys are its own. -/
def installBundle (b : Bundle) (s : State) : State :=
  let c := ctxGet s b.ctx
  let s1 := ctxSet b.ctx { c with st := if b.state = 1 then .created else .keyed, owner := b.owner, cred := b.cred
                                  hostmemOn := b.hostmem && c.hostmem, keyId := b.keyId, modelKey := b.modelKey, epoch := 0 } s
  let (k, s2) := drawKey s1
  setLock (slotSet (2 * b.ctx) { key := k, st := .live } s2)

/-- Bytes `off` on of the region as JOURNAL WRITEs, in pieces of 64 lines. -/
def copyLines64 (off lines : Nat) (s : State) : State :=
  let s1 := if lines = 0 then s else mirror off (64 * lines) .other (jTouch off (64 * lines) s)
  { s1 with pair := { s1.pair with bytesCopied := s1.pair.bytesCopied + 64 * lines } }

/-- One live extent: valid record slots, token lines in use, request lines, and the header line last (R192 step 3). -/
def copyExtent (i : Nat) (s : State) : State :=
  match extentAt s i with
  | .held x recs =>
    let slots := foldS recs (fun r => copyLines64 (x.slotOff r.seq.toNat) 2) s
    let toks := if x.utf8 then ((recs.flatMap (·.tokens)).length + 15) / 16 else 0
    copyLines64 x.extentOff 1 (copyLines64 (x.extentOff + 64) x.reqLines (copyLines64 x.tokenOff toks slots))
  | _ => s

/-- The source sends the images of its bound contexts, the control area and the live extents; the last line's ACK ends the copy
(R192). -/
def startCopy (s : State) : State :=
  let s0 := { s with pair := { s.pair with source := true, bytesCopied := 0 } }
  let s1 := foldS (s.piers.models.filter (fun e => hasModel s e.1)) (fun e s =>
    let s1 := foldS (List.range e.2.chunkCount) (fun k => sendStored e.1 e.2 k .other) s
    { s1 with pair := { s1.pair with bytesCopied := s1.pair.bytesCopied + 65536 * e.2.chunkCount } }) s0
  let s2 := copyLines64 0 (0x900000 / 64) s1
  let s3 := foldS (streamIds s) copyExtent s2
  let acks := s3.pair.acks.dropLast ++ (s3.pair.acks.getLast?.map (fun a => (a.1, AckWait.copyEnd))).toList
  { s3 with pair := { s3.pair with acks := acks } }

/-- The link comes up as training ends (R175); TS_NOW steps forward to the partner's where that is higher (R178). -/
def linkUpPair (tsNow : W64) (s : State) : State :=
  let s1 := setUp true { s with viaduct := { s.viaduct with step := 0 } }
  let s2 := if s1.tsNow.toNat < tsNow.toNat then { s1 with tsNow := tsNow } else s1
  traceTrain 6 s2

/-- The pair takes up: both journals empty, or one of them copied. -/
def pairUp (b : Beat) (st : PairSt) (roleB source : Bool) (s : State) : State :=
  let p := { s.pair with roleB := roleB, conflict := false, partnerSerial := b.ownSerial, partner := some b, missed := 0 }
  let p := { p with beatSeen := true, source := source, rejoinStart := s.ticks, slowAt := after p.pairWait.toNat s }
  let fresh := st = .rejoining && !source
  let p := { p with landed := if fresh then some [] else none }
  let p := { p with bytesCopied := 0, epoch := if source then p.epoch else if st = .rejoining then b.pairEpoch else p.epoch }
  let s1 := enterPair st { s with pair := p }
  let keep := s1.sec.bundles
  let s2 := { s1 with sec := { s1.sec with bundles := [] } }
  if st ≠ .rejoining then s2
  else if source then startCopy s2
  else foldS keep installBundle s2

/-- The handshake refused: the previous state, CONFLICT; `raise_` where Table 6-12 names the pair-conflict source. -/
def refuse (raise_ : Bool) (s : State) : State :=
  let s1 := if s.pair.st = .pairing then enterPair s.pair.prev s else s
  let s2 := { s1 with pair := { s1.pair with conflict := true } }
  if raise_ && !s.pair.conflict then raise 2926 .uc s2.viaduct.retrains.toNat s2 else s2

/-- A journal kept over a chip reset comes back where the handshake keeps it (R362); the member keeps the role it had (R184). -/
def keepJournal (s : State) : State :=
  if s.pair.journalKept then
    let s1 := recoverJournal { s with pair := { s.pair with journalKept := false } }
    { s1 with power := { s1.power with recovered := true } }
  else s

/-- This member's journal is discarded where the handshake discards it. -/
def dropJournal (s : State) : State :=
  let s1 := discardJournal s
  if s.pair.journalKept then
    let r := { s1.power.retained with regions := none, spares := [] }
    { s1 with power := { s1.power with journalDiscarded := true, retained := r }, pair := { s1.pair with journalKept := false } }
  else s1

/-- The handshake on a beat of the partner (Table 6-12). -/
def handshake (b : Beat) (mode : Bool) (serial : W64) (s0 : State) : State :=
  let s := tryPairing s0
  let p := s.pair
  let live := ownLive s
  let iWin := p.partnerSerial = b.ownSerial && decide (b.pairEpoch.toNat < p.epoch.toNat)
  let iLose := serial = Config.serial && decide (p.epoch.toNat < b.pairEpoch.toNat)
  if !p.mode && !mode then s
  else if p.mode ≠ mode || b.regionLines.toNat ≠ regionLines s then refuse true s
  else if !p.rejoinEn || (p.st ≠ .pairing && p.st ≠ .degraded) then refuse false s
  else if !live && !b.live && p.st ≠ .degraded && b.state ≠ 3 then
    pairUp b .mirrored (decide (b.ownSerial.toNat < Config.serial.toNat)) false s
  else if !live && !b.live then
    let mine := p.st = .degraded && (b.state ≠ 3 || decide (b.pairEpoch.toNat < p.epoch.toNat) ||
      (b.pairEpoch = p.epoch && decide (Config.serial.toNat < b.ownSerial.toNat)))
    if mine then pairUp b .rejoining p.roleB true s else pairUp b .rejoining (b.role = 0) false (dropJournal s)
  else if live && !b.live then
    let s1 := keepJournal s
    pairUp b .rejoining s1.pair.roleB true s1
  else if !live && b.live then pairUp b .rejoining (b.role = 0) false (dropJournal s)
  else if iWin then
    let s1 := keepJournal s
    pairUp b .rejoining s1.pair.roleB true s1
  else if iLose then pairUp b .rejoining (b.role = 0) false (dropJournal s)
  else refuse true s

/-- Slots that are not valid and the rest of the token area read 0 on the rejoiner (R192 step 3). -/
def cleanExtent (i : Nat) (s : State) : State :=
  match extentAt s i with
  | .held x recs =>
    let toks := ((recs.flatMap (·.tokens)).length + 15) / 16
    let s1 := foldS ((List.range x.recordSlots).filter (fun q => (slotRecord s x i q).isNone)) (fun q => jZero (x.slotOff q) 2) s
    if x.utf8 then jZero (x.tokenOff + 64 * toks) (tokenLines x.raw x.utf8 x.maxNew - toks) s1 else s1
  | _ => s

/-- HEALTH_BEAT (R177, R184, R186): a valid beat resets MISSED; at training step 6, and after a refused handshake, it is
the partner's side of the handshake. -/
def execHealthBeat (b : Beat) (pairMode : Bool) (partnerSerial tsNow : W64) (s : State) : Host.Outcome State Fault Refusal :=
  .next <|
    if !alive s || s.faults.safe || (s.viaduct.step ≠ 6 && !s.viaduct.up) then s
    else if s.viaduct.step = 6 then
      inTrainStep (fun s => handshake b pairMode partnerSerial (linkUpPair tsNow (ringDoorbell 6 0 s))) s
    else
      let s1 := ringDoorbell 6 0 { s with pair := { s.pair with partner := some b, beatSeen := true, missed := 0 } }
      if s.pair.st = .mirrored || s.pair.st = .rejoining then
        if b.failing then partnerLost 4 s1
        else if b.leaving then orderlyTakeover s1
        else if s.pair.st = .rejoining && !s.pair.source && b.state = 2 then
          mirrorDone (foldS (partnerRecords s1) cleanExtent s1)
        else s1
      else if s.pair.conflict then handshake b pairMode partnerSerial s1
      else s1

/-! ### Timers and commands of the pair state -/

/-- PAIR_WAIT_EXPIRY (R184, R362): the state before PAIRING; a journal kept for a handshake that never came is discarded. -/
def execPairWaitExpiry (s : State) : Host.Outcome State Fault Refusal :=
  .next <|
    if alive s && !s.faults.safe && s.pair.st = .pairing && due s.pair.pairWaitBy s then
      let s1 := enterPair (if s.pair.prev = .degraded then .degraded else .solo) s
      if s.pair.journalKept then dropJournal s1 else s1
    else s

/-- REMIRROR_SLOW (R193): each multiple of PAIR_WAIT in REJOINING. -/
def execRemirrorSlow (s : State) : Host.Outcome State Fault Refusal :=
  .next <|
    if alive s && !s.faults.safe && s.pair.st = .rejoining && s.pair.source && due s.pair.slowAt s then
      raise 2927 .ce s.viaduct.retrains.toNat { s with pair := { s.pair with slowAt := s.pair.slowAt + s.pair.pairWait.toNat } }
    else s

/-- PAIR_RELEASE (R191): streams that hold no slot are suspended at once, the others at their boundaries. -/
def pairRelease (s : State) : State :=
  if s.pair.st = .mirrored then
    foldS ((streamIds s).filter (fun i => (streamGet s i).live && !(streamGet s i).holds)) (fun i => suspend i 0)
      { s with pair := { s.pair with leaving := true } }
  else countIgnored 0x38008 s

def execPairRelease (s : State) : Host.Outcome State Fault Refusal := .next (if writable s then pairRelease s else s)

/-- PAIR_DISCARD (Table 6-14): the journal goes, and the handshake is tried again. -/
def pairDiscard (s : State) : State :=
  if s.pair.conflict then
    let s1 := dropJournal s
    if s1.viaduct.up then sendBeat false s1 else startTraining s1
  else countIgnored 0x38008 s

def execPairDiscard (s : State) : Host.Outcome State Fault Refusal := .next (if writable s then pairDiscard s else s)

/-! ### The partner bay (R196, Table 6-20) -/

/-- An event of the bay interrupts the host while HP_INT_EN is 1. -/
def bayEvent (on : Bool) (s : State) : State := if on && s.pair.hpIntEn then interrupt s.host.hpVector s else s

/-- Indicator field as written; 00b is reserved and leaves it. -/
def indicator (old : BitVec 2) (v : Nat) : BitVec 2 := if v = 0 then old else BitVec.ofNat 2 v

/-- The fence of R187 is in force: it forces PWR_CTL to 1 until the takeover ends. -/
def fenceForced (s : State) : Bool :=
  match s.pair.take with
  | .fenceWait _ => true
  | .taking _ orderly => !orderly
  | _ => false

/-- PB_CTL (Table 6-20): power off while MIRRORED is a partner loss by the falling link; power on starts training. -/
def pbCtlSet (v : W16) (s : State) : State :=
  let off := v.getLsbD 10 || fenceForced s
  let p := { s.pair with pwrOff := off, pwrInd := indicator s.pair.pwrInd (fld v 8 2), atnInd := indicator s.pair.atnInd (fld v 6 2) }
  let s1 := { s with pair := { p with hpIntEn := v.getLsbD 5, presEn := v.getLsbD 3, atnEn := v.getLsbD 0 } }
  if off && !s.pair.pwrOff then partnerLost 2 (partnerOff s1)
  else if !off && s.pair.pwrOff then startTraining s1
  else s1

def execPbCtlWrite (value : W16) (s : State) : Host.Outcome State Fault Refusal := .next (if writable s then pbCtlSet value s else s)

/-- PRT_PRSNT_N (R175, R196): presence as debounced. -/
def execPrtPrsntN (level : Bool) (s : State) : Host.Outcome State Fault Refusal :=
  .next <|
    if s.pair.present = !level then s
    else if !alive s then { s with pair := { s.pair with present := !level, absentSince := s.ticks } }
    else
      let p := { s.pair with present := !level, absentSince := s.ticks, presChg := true }
      let s1 := bayEvent s.pair.presEn { s with pair := p }
      if level then s1 else startTraining s1

/-- PRESENCE_LOSS_TIMEOUT (R186): PRT_PRSNT_N has stayed high for 100 ticks. -/
def execPresenceLossTimeout (s : State) : Host.Outcome State Fault Refusal :=
  .next <|
    if alive s && !s.faults.safe && !s.pair.present && due (s.pair.absentSince + 1 + 100) s then
      partnerLost 3 (adapterIdle (setUp false s))
    else s

/-- PRT_ATNBTN_N (R196). -/
def execPrtAtnbtnN (s : State) : Host.Outcome State Fault Refusal :=
  .next <| if alive s then bayEvent s.pair.atnEn { s with pair := { s.pair with atnPressed := true } } else s

end Sys2Proof.Machine
end

