-- ==== Sys2Proof/Machine/Deck.lean ====
section
/-!
DEFINITION. Machine/Deck.lean: deck timeouts, power domains, fences and block resets, spandrel operations
(11_deck.md R304 to R312; 12_fault_collector.md R321, R326, R414; 14_power_and_startup.md R356).
-/
namespace Sys2Proof.Machine

/-! ### Outcomes of deck requests (R304, R305, Table 11-5) -/

/-- HOME_TIMEOUT + DECK_MARGIN. -/
def deckTimer (s : State) : Nat := s.coh.homeTimeout.toNat + s.deck.margin.toNat

/-- A run's incomplete stitch on a pier. -/
def runOnPier (s : State) (p : Nat) (r : Run) : Option Nat :=
  (envOf s r).bind (fun e => findBelow e.prog.stitches.length (fun i => r.openAt e.prog i &&
    (((e.prog.stitch i).map (fun st => ((st.roles e.prog).map e.actual).contains p)).getD false)))

/-- Every run that has the pier in its set ends PIER_LOST, whether or not it still has a stitch there (Table 3-7); the stitch
recorded is the first open one there, or of the run. -/
def losePierRuns (p : Nat) (s : State) : State :=
  foldS s.piers.runs (fun r s =>
    match envOf s r with
    | none => s
    | some e =>
      if (e.prog.piers.map e.actual).contains p then
        let open_ := findBelow e.prog.stitches.length (fun i => r.openAt e.prog i)
        haltRun r.id ((runOnPier s p r).getD (open_.getD 0)) 3 p s
      else s) s

/-- A keystone's access fails: a snoop of the cache is taken as RSP_I, a read delivers poison, a write is dropped. -/
def keystoneLost (k dest : Nat) (line : LineAddr) (write : Bool) (s : State) : State :=
  if 384 ≤ dest && dest < 400 then
    let waits := (match busyTxn s line with
      | some t => t.awaiting.any (fun x => x.slot = 7)
      | none => false) || s.coh.victims.any (fun v => v.line = line && v.awaiting.any (fun x => x.slot = 7))
    if waits then respond line 7 .i s else s
  else if write then
    ksCount k 3 { s with coh := { s.coh with
      evict := modFirst (fun b => b.line = line && !b.written) (fun b => { b with written := true }) s.coh.evict } }
  else
    match busyTxn s line with
    | some t => setTxn { t with timedOut := true } s
    | none => s

/-- A read or write for an outside agent fails: the read is answered with poison, the write dropped and counted. -/
def outsideLost (unit : Nat) (line : LineAddr) (write : Bool) (s : State) : State :=
  if unit = 0x1E8 then (if write then count 2555 s else emit (.memData line 0 true) s)
  else if unit = 0x1EA then (if write then count 2581 s else s)
  else
    let n := unit - 480
    if write then count (2496 + 8 * n + 6) s
    else
      match (portGet s n).txns.find? (fun t => t.line = line) with
      | some t => endPortTxn n t.txn (girthSend n (.data t.txn false 0 true) (girthSend n (.cmp t.txn 1 0 true) s))
      | none => s

/-- Table 11-5. A request to a keystone is held during a quarter move, and otherwise resent once. -/
def deckOutcome (unit dest : Nat) (line : LineAddr) (write resent : Bool) (s : State) : State :=
  if 320 ≤ dest && dest < 384 && (!s.coh.qmoves.isEmpty || !resent) then s
  else if unit < 320 then
    match s.piers.runs.find? (fun r => (runOnPier s unit r).isSome) with
    | some r => haltRun r.id ((runOnPier s unit r).getD 0) 3 unit s
    | none => s
  else if unit < 384 then keystoneLost (unit - 320) dest line write s
  else if unit < 400 then
    match s.coh.fills.find? (fun f => f.line = line) with
    | some f =>
      let s1 := { s with coh := { s.coh with fills := dropFirst (· = f) s.coh.fills } }
      match f.engine with
      | some e => xferGot e line 0 true s1
      | none => emit (.interiorData true line.toNat 0 true) s1
    | none => s
  else if unit < 408 then s
  else if 416 ≤ unit && unit < 480 then failXfer (unit - 416) 7 s
  else if unit = 0x1E8 || unit = 0x1EA || (480 ≤ unit && unit < 486) then outsideLost unit line write s
  else s

/-- DECK_TIMEOUT (R304): the outcome, the source at the initiator's node, and the tag's quarantine. -/
def execDeckTimeout (unit : BitVec 9) (ttag : W16) (dest : BitVec 9) (line : LineAddr) (write resent : Bool) (s : State) :
    Host.Outcome State Fault Refusal :=
  .next <|
    let u := unit.toNat
    let t := ttag.toNat
    if !alive s || !validUnit u || !validUnit dest.toNat || s.deck.quarantine.any (fun q => q.1 = u && q.2.1 = t) then s
    else
      let s1 := raise (2195 + homeNode u) .uc (u * 65536 + dest.toNat) s
      deckOutcome u dest.toNat line write resent
        { s1 with deck := { s1.deck with quarantine := s1.deck.quarantine ++ [(u, t, after (4 * deckTimer s1) s1)] } }

/-- TTAG_QUARANTINE_EXPIRY (R304): 4 × the timer has passed, or the late response has come, which is discarded and counted
at the initiator's router. -/
def execTtagQuarantineExpiry (unit : BitVec 9) (how : QuarantineEnd) (s : State) : Host.Outcome State Fault Refusal :=
  .next <|
    let (ttag, late) := match how with
      | .timer t => (t, false)
      | .late t => (t, true)
    let isIt := fun (q : Nat × Nat × Nat) => q.1 = unit.toNat && q.2.1 = ttag.toNat && (late || due q.2.2 s)
    if !alive s || !s.deck.quarantine.any isIt then s
    else
      let s1 := { s with deck := { s.deck with quarantine := s.deck.quarantine.filter (fun q => !isIt q) } }
      if late then count (1728 + 2 * homeNode unit.toNat + 1) s1 else s1

/-- DOMAIN_OFF (R305): only a domain that is not ON answers so. -/
def execDomainOff (unit : BitVec 9) (ttag : W16) (dest : BitVec 9) (line : LineAddr) (write resent : Bool) (s : State) :
    Host.Outcome State Fault Refusal :=
  .next <|
    let off := match unitDomain dest.toNat with
      | some d => (pdGet s d).st ≠ .on
      | none => false
    let _ := ttag
    if alive s && validUnit unit.toNat && off then deckOutcome unit.toNat dest.toNat line write resent s else s

/-! ### Losing a pier (R110, R125, R134, R169) -/

/-- Streams whose resident KV pages lay on the pier restart (R134). -/
def losePierKv (p : Nat) (s : State) : State :=
  foldS (streamIds s) (fun i s =>
    if (streamGet s i).kv.any (fun k => k.resident && k.pier = p) then restart i 3 (dropPrefill i s) else s) s

/-- What the pier's own units hold is lost; its allocations stay with the programs' roles. -/
def clearPier (p : Nat) (s : State) : State :=
  let x := pierGet s p
  let inPier := fun (a : Nat) => decide (p * 524288 ≤ a ∧ a < (p + 1) * 524288)
  pierSet p { slots := x.slots, allocs := x.allocs }
    { s with store := { s.store with scratch := s.store.scratch.filter (fun c => !inPier c.1) } }

/-- One program gives every role that the pier carried to a substitute, or becomes unbound (R110). -/
def substituteProgram (ctx idx p : Nat) (s : State) : State :=
  match (modelOf s ctx).bind (fun m => (m.programs[idx]?).map (fun g => (m, g))) with
  | none => s
  | some (m, g) =>
    let roles := g.piers.filter (fun r => tget (fun k => k) g.subst r = p)
    if !g.bound || roles.isEmpty then s
    else
      let put := fun (m : Model) (g : Program) (s : State) => modelSet ctx (some { m with programs := m.programs.set idx g }) s
      let step := fun (acc : Option (Program × Model × State)) (r : Nat) =>
        acc.bind (fun a => (placeOne ctx idx a.1 r a.2.1 a.2.2).toOption.map (fun b => (b.1, b.2.1, put b.2.1 b.1 b.2.2)))
      match roles.foldl step (some (g, m, s)) with
      | some (_, _, s1) => s1
      | none =>
        foldS (liveOf s ctx) (fun i => suspendSoon i suspModel) (put m { g with bound := false } s)

/-- Roles of the fenced pier go to substitutes, context by context and program by program. -/
def substitute (p : Nat) (s : State) : State :=
  let x := pierGet s p
  let s1 := pierSet p { x with slots := [], allocs := [] } s
  foldS (s.piers.models.flatMap (fun m => (List.range m.2.programs.length).map (fun i => (m.1, i))))
    (fun e => substituteProgram e.1 e.2 p) s1

/-- The pier stops: its runs end, KV pages on it are gone, its contents are lost. -/
def stopPier (p : Nat) (s : State) : State :=
  let asleep := (if p < 256 then (List.range 4).map (4 * p + ·) else [1024 + (p - 256)])
  let s1 := clearPier p (losePierKv p (losePierRuns p s))
  { s1 with store := { s1.store with
      selfRefresh := asleep.foldl (fun t u => tset (fun _ => false) t u true) s1.store.selfRefresh } }

/-- What a fence of the pier does beyond a block reset (R414). -/
def losePier (p : Nat) (s : State) : State := rebuildFor p (substitute p s)

/-! ### Power domains (R308 to R310, R356) -/

/-- Slices of a cache quarter. -/
def quarterSlices (d : Nat) : List Nat := (List.range 4).map (4 * (d - 324) + ·)

/-- A cache quarter closes: its merge entries drain, its lines go (R308). -/
def closeCache (d : Nat) (s : State) : State :=
  let sl := quarterSlices d
  (dcInvalidate (fun x => x.st ≠ .none && sl.contains (dcSlice x.line.toNat))
    (endFences (drainWhere (fun m => sl.contains m.slice) s))).2

/-- Nothing is outstanding in a closing domain. -/
def quiet (d : Nat) (s : State) : Bool :=
  if d < 320 then
    let mine := fun (r : Requester) => match r with
      | .pier p => decide (p.val = d)
      | _ => false
    !s.coh.txns.any (fun t => mine t.requester) && !s.coh.posted.any (fun p => mine p.requester) &&
      !s.piers.runs.any (fun r => (runOnPier s d r).isSome)
  else if d < 324 then true
  else if d < 328 then
    let sl := quarterSlices d
    !(s.coh.merges ++ s.coh.draining).any (fun m => sl.contains m.slice) &&
      !s.coh.fills.any (fun f => sl.contains (dcSlice f.line.toNat))
  else (List.range 16).all (fun j =>
    let x := pdGet s (256 + 16 * (d - 328) + j)
    x.st = .off || x.st = .fenced)

/-- The pier lies in the set of a valid region entry or of a bound program. -/
def pierInUse (s : State) (p : Nat) : Bool :=
  (validRegions s.store.regions).any (fun e => e.2.hasPier p) || !(rolesOn s p).isEmpty ||
    s.piers.models.any (fun m => m.2.programs.any (fun g => g.bound && g.piers.contains p))

/-- ERR_CODE of a request OFF, 0 where it is accepted (Tables 11-6, 11-9). -/
def offError (d : Nat) (s : State) : Nat :=
  let off := fun j => (pdGet s (256 + 16 * (d - 328) + j)).st
  if (pdGet s d).fencing then 4
  else if 320 ≤ d && d < 324 then 1
  else if d < 320 && pierInUse s d then 2
  else if 328 ≤ d && !(List.range 16).all (fun j => off j = .off || off j = .fenced) then 3
  else 0

/-- A refused request: STATE unchanged, ERR_CODE set, counted. -/
def pdRefuse (d code : Nat) (s : State) : State :=
  countIgnored (0x61000 + 4 * d) (pdSet d { pdGet s d with errCode := BitVec.ofNat 8 code } s)

/-- A domain begins to close. -/
def closeDomain (d : Nat) (s : State) : State :=
  let s1 := pdSet d { pdGet s d with st := .closing } s
  if 324 ≤ d && d < 328 then closeCache d s1 else s1

/-- A domain begins to wake, or waits for one of the 24 places (R356). -/
def wakeDomain (d : Nat) (s : State) : State :=
  let x := { pdGet s d with wakeBy := after 1000 s }
  if (s.deck.pds.filter (fun e => e.2.st = .waking)).length < 24 then pdSet d { x with st := .waking } s
  else
    let s1 := pdSet d x s
    { s1 with deck := { s1.deck with wakeQueue := s1.deck.wakeQueue ++ [d] } }

/-- A request OFF on a domain that is in no transition. -/
def requestOff (d : Nat) (s : State) : State :=
  let code := offError d s
  if code ≠ 0 then pdRefuse d code s
  else
    let s1 := pdSet d { pdGet s d with req := true, errCode := 0 } s
    if (pdGet s d).st = .on then closeDomain d s1 else s1

/-- A request ON on a domain that is in no transition. -/
def requestOn (d : Nat) (s : State) : State :=
  if (pdGet s d).fencing then pdRefuse d 4 s
  else
    let s1 := pdSet d { pdGet s d with req := false, errCode := 0 } s
    if (pdGet s d).st = .off && !s.deck.wakeQueue.contains d then wakeDomain d s1 else s1

/-- A write of REQ (R308, R310): one that arrives during a transition takes effect when that ends. -/
def pdWrite (d : Nat) (off : Bool) (s : State) : State :=
  let x := pdGet s d
  if !x.fencing && (x.st = .closing || x.st = .waking || s.deck.wakeQueue.contains d) then
    pdSet d { x with req := off, waiting := some off } s
  else if off then requestOff d s
  else requestOn d s

def execPdReqOff (d : Domain) (s : State) : Host.Outcome State Fault Refusal :=
  .next (if writable s then pdWrite d.val true s else s)
def execPdReqOn (d : Domain) (s : State) : Host.Outcome State Fault Refusal :=
  .next (if writable s then pdWrite d.val false s else s)

/-- A transition has ended: a request that waited takes effect. -/
def transitionEnd (d : Nat) (s : State) : State :=
  let x := pdGet s d
  let s1 := pdSet d { x with waiting := none } s
  match x.waiting with
  | some true => requestOff d s1
  | some false => requestOn d s1
  | none => s1

/-- The reply of a fenced or reset block goes to core 0 (R319, Table 1-14). -/
def blockReply (b : Block) (isFence : Bool) (source : Nat) (s : State) : State :=
  let s := takeReply 0x190 source (takePacket (blockUnit b) 0x190 .ctl source
    (sendPacket { src := blockUnit b, dest := 0x190, vn := .ctl, ttag := source } false s))
  ringDoorbell 0 0 { s with faults := { s.faults with replies := s.faults.replies ++ [⟨b, isFence, source⟩] } }

/-- The fence of a domain is complete. -/
def fenceEnd (d source : Nat) (s : State) : State :=
  blockReply (domBlock d) true source (pdSet d { pdGet s d with st := .fenced, fence := none, waiting := none } s)

/-- DOMAIN_POWER_DROP (R308 step 3, R309): everything inside has completed. -/
def execDomainPowerDrop (d : Domain) (s : State) : Host.Outcome State Fault Refusal :=
  .next <|
    let x := pdGet s d.val
    if !alive s || x.st ≠ .closing || !quiet d.val s || s.faults.resets.any (fun r => r.block = .domain d) then s
    else
      match x.fence with
      | some (src, _) => fenceEnd d.val src s
      | none =>
        let s1 := pdSet d.val { x with st := .off } s
        transitionEnd d.val (if d.val < 320 then stopPier d.val s1 else s1)

/-- A domain is ON again: the collector samples its sources, and a pair that has left its idle state meanwhile is an event
(R315 to R317), whose DETAIL the spec leaves open. -/
def resample (d : Nat) (s : State) : State :=
  foldS (s.faults.sources.filter (fun e => srcDomain e.1 = some d && e.2.asserted ≠ 0)) (fun e s =>
    foldS [FaultClass.ce, .uc, .ft] (fun c s =>
      if e.2.asserted.getLsbD (clsCode c - 1) then
        let (k, s1) := drawFree s
        latch e.1 c (!(srcInfo e.1).level) (Config.freeWord k).toNat s1
      else s) s) s

/-- A place among the 24 has become free: the next domain that waits for one wakes. -/
def nextWake (s : State) : State :=
  match s.deck.wakeQueue with
  | [] => s
  | n :: rest => pdSet n { pdGet s n with st := .waking } { s with deck := { s.deck with wakeQueue := rest } }

/-- DOMAIN_WAKE_END (R310, R356): ON, ingress opens; the next domain that waits for a place wakes. -/
def execDomainWakeEnd (d : Domain) (s : State) : Host.Outcome State Fault Refusal :=
  .next <|
    let x := pdGet s d.val
    if !alive s || x.st ≠ .waking then s
    else
      let s1 := pdSet d.val { x with st := .on, wakeBy := 0 } s
      transitionEnd d.val (resample d.val (nextWake s1))

/-! ### Fences (R309, R321, R326, Table 12-6) -/

/-- The fence sequence of one domain begins. A domain that is OFF becomes FENCED at once; a block reset gives way. -/
def fenceOne (d source : Nat) (s : State) : State :=
  let x := pdGet s d
  let resets := s.faults.resets.filter (fun r => r.block ≠ domBlock d)
  let s0 := { s with faults := { s.faults with resets := resets }
                     deck := { s.deck with wakeQueue := s.deck.wakeQueue.filter (· ≠ d) } }
  if x.fencing then s
  else if x.st = .off then fenceEnd d source s0
  else
    let s1 := pdSet d { x with st := .closing, waiting := none, fence := some (source, after (deckTimer s) s) } s0
    let s1 := if x.st = .waking then nextWake s1 else s1
    if d < 320 then losePier d (stopPier d s1)
    else if d < 324 then startQmove (d - 320) s1
    else if d < 328 then closeCache d s1
    else s1

/-- A fence of an abutment fences its 16 approach piers first. -/
def fenceDomain (d source : Nat) (s : State) : State :=
  if 328 ≤ d then fenceOne d source (foldS (List.range 16) (fun j => fenceOne (256 + 16 * (d - 328) + j) source) s)
  else fenceOne d source s

/-- A fence of a block. -/
def fenceBlock (b : Block) (source : Nat) (s : State) : State :=
  match b with
  | .domain d => fenceDomain d.val source s
  | .port n => blockReply b true source (fencePort n.val s)
  | .engine _ => s
  | .pair => blockReply b true source (partnerLost 5 s)

/-- The message core 0 sent to the block. -/
def blockMsg (s : State) (b : Block) (isFence : Bool) (source : Nat) : Option BlockMsg :=
  s.faults.messages.find? (fun m => m.block = b && m.isFence = isFence && m.source = source)

/-- A block takes its message off the deck. -/
def dropMsg (m : BlockMsg) (s : State) : State :=
  let s := foldS (blockUnits m.block) (fun u => takePacket 0x190 u .ctl m.source) s
  { s with faults := { s.faults with messages := dropFirst (· = m) s.faults.messages } }

/-- FENCE (R309): the last message has reached the block's boundary routers. A fence of the last keystone quarter left is
a chip reset (R321). -/
def execFence (b : Block) (source : Fin 2944) (s : State) : Host.Outcome State Fault Refusal :=
  .next <|
    match blockMsg s b true source.val with
    | none => s
    | some m =>
      if !alive s then s
      else
        let s1 := dropMsg m s
        if blockFenced b s1 then s1
        else if lastQuarter b s1 then handover (some 3) s1
        else fenceBlock b source.val s1

/-- FENCE_DRAIN_TIMEOUT (R309): the work inside is abandoned. -/
def execFenceDrainTimeout (d : Domain) (s : State) : Host.Outcome State Fault Refusal :=
  .next <|
    match (pdGet s d.val).fence with
    | some (src, t) => if alive s && due t s then fenceEnd d.val src s else s
    | none => s

/-! ### Block resets (R414, Table 12-2) -/

/-- The block begins its reset: a pier stops as for a fence, an engine drops its descriptor. -/
def resetBlock (b : Block) (source : Nat) (s : State) : State :=
  let begin_ := fun (s : State) =>
    { s with faults := { s.faults with resets := s.faults.resets ++ [⟨b, source, after 1000 s⟩] } }
  match b with
  | .domain d =>
    let x := pdGet s d.val
    if x.st = .off then s else stopPier d.val (pdSet d.val { x with st := .closing } (begin_ s))
  | .engine e =>
    match xferGet s e.val with
    | some x => xferLost x.use (dropXfer e.val (begin_ s))
    | none => begin_ s
  | _ => s

/-- BLKRST (R414). -/
def execBlkrst (b : Block) (source : Fin 2944) (s : State) : Host.Outcome State Fault Refusal :=
  .next <|
    match blockMsg s b false source.val with
    | none => s
    | some m =>
      if !alive s then s
      else
        let s1 := dropMsg m s
        if blockFenced b s1 || s1.faults.resets.any (fun r => r.block = b) then s1 else resetBlock b source.val s1

/-- Mirrored lines of the pier are copied back from the other copy (R414). -/
def copyBack (p : Nat) (s : State) : State :=
  foldS ((validRegions s.store.regions).filter (fun e => e.2.mirror && e.2.hasPier p)) (fun e s =>
    foldS (List.range (e.2.count / 2)) (fun k s =>
      let (a, b, l) := seatsOf s e.1 e.2 k
      let put := fun src dst (s : State) =>
        if memUp s src.pier && (rebuildOf s e.1 k).isNone then
          { s with store := { s.store with rebuilds := s.store.rebuilds ++ [⟨e.1, k, src, dst, l, true⟩] } }
        else s
      if a.pier = p then put b a s else if b.pier = p then put a b s else s) s) s

/-- The pier's codebook as a bound program's deployed portion gives it (R108). -/
def reloadCodebook (p : Nat) (s : State) : State :=
  let first := (rolesOn s p).findSome? (fun (c, i, g, r) =>
    ((g.descs.zipIdx.map (fun (v, n) => tdesc n v)).find? (fun d => d.dtype = 8 && d.piers.contains r)).map
      (fun d => (c, i, r, d)))
  match first with
  | none => s
  | some (c, i, r, d) =>
    match envOf s { id := 0, ctx := c, prog := i, kind := .raw 0 } with
    | some e => loadCodebook e d r s
    | none => s

/-- The pier has not returned within its 1,000 ticks: it is fenced from this moment (R414). -/
def resetOverruns (d : Nat) (r : BlockReset) (s : State) : State :=
  losePier d (fenceEnd d r.source { s with faults := { s.faults with resets := s.faults.resets.filter (· ≠ r) } })

/-- BLKRST_END (R414): ON again, with slots, codebook and mirror copies. -/
def execBlkrstEnd (b : Block) (s : State) : Host.Outcome State Fault Refusal :=
  .next <|
    match s.faults.resets.find? (fun r => r.block = b) with
    | none => s
    | some r =>
      let overrun : Option Nat := match b with
        | .domain d => if due r.deadline s then some d.val else none
        | _ => none
      if !alive s then s
      else if let some d := overrun then resetOverruns d r s
      else
        let s1 := blockReply b false r.source { s with faults := { s.faults with resets := s.faults.resets.filter (· ≠ r) } }
        match b with
        | .domain d =>
          resample d.val (reloadCodebook d.val (copyBack d.val (pdSet d.val { pdGet s1 d.val with st := .on } s1)))
        | _ => s1

/-- BLKRST_TIMEOUT (R414): a pier that has not returned is fenced from this moment. -/
def execBlkrstTimeout (b : Block) (s : State) : Host.Outcome State Fault Refusal :=
  .next <|
    match s.faults.resets.find? (fun r => r.block = b), b with
    | some r, .domain d =>
      if alive s && due r.deadline s then resetOverruns d.val r s else s
    | _, _ => s

/-! ### Spandrel operations (R311, R312, Table 11-7) -/

/-- Scope of an operation: level and number of the smallest subtree that holds the leaves `first` to `last`. -/
def spScope (first last : Nat) : Nat × Nat :=
  match (List.range 5).find? (fun l => first / 4 ^ l = last / 4 ^ l) with
  | some l => (l, first / 4 ^ l)
  | none => (5, 0)

/-- Count of Table 11-7 in stages. -/
def spStages (k : SpKind) (level : Nat) : Nat := (if k = .reset then 24 else 8) + 12 * level

/-- Every participant has joined. -/
def SpOp.whole (o : SpOp) : Bool := (List.range (o.last + 1 - o.first)).all (fun i => o.joined.contains (o.first + i))

/-- A tree node, as level and number, lies in the subtree of another. -/
def inScope (node scope : Nat × Nat) : Bool := node.1 ≤ scope.1 && node.2 / 4 ^ (scope.1 - node.1) = scope.2

/-- The operation has a slot at every node of its scope: an operation holds one of the 16 slots of each node of its own, and
the most used nodes are the roots of scopes. -/
def spHasSlots (before : List SpOp) (o : SpOp) : Bool :=
  let scopes := before.map (fun x => spScope x.first x.last)
  let mine := spScope o.first o.last
  (mine :: scopes.filter (fun r => inScope r mine)).all (fun r => (scopes.filter (inScope r)).length < 16)

/-- The first operation that is whole and holds its slots. -/
def spReady (ops : List SpOp) : Option SpOp :=
  ops.find? (fun o => o.whole && spHasSlots (ops.takeWhile (· ≠ o)) o)

/-- Releases an operation; the release of a SNAP over all nodes is the cut of a snapshot in progress (R412). -/
def spRelease (o : SpOp) (s : State) : State :=
  let r : SpRelease := ⟨o.id, o.kind, o.first, o.last, o.value, spStages o.kind (spScope o.first o.last).1⟩
  let s1 := { s with deck := { s.deck with ops := dropFirst (· = o) s.deck.ops, released := s.deck.released ++ [r] } }
  if o.kind = .snap && o.first = 0 && o.last = 383 && s.obs.snapBusy then
    { s1 with obs := { s1.obs with snapCut := s1.obs.counters } }
  else s1

def spReleaseAll : Nat → State → State
  | 0, s => s
  | n + 1, s =>
    match spReady s.deck.ops with
    | some o => spReleaseAll n (spRelease o s)
    | none => s

/-- A leaf joins an operation, which its first participant opens. -/
def spJoin (k : SpKind) (op first last leaf : Nat) (v : W64) (s : State) : State :=
  if !alive s || leaf < first || last < leaf then s
  else
    let isIt := fun (o : SpOp) => o.id = op && o.kind = k && o.first = first && o.last = last
    let ops := s.deck.ops
    let ops := if ops.any isIt then ops else ops ++ [⟨op, k, first, last, [], BitVec.allOnes 64⟩]
    let add := fun (o : SpOp) =>
      if o.joined.contains leaf then o else { o with joined := o.joined ++ [leaf], value := o.value &&& v }
    let ops := modFirst isIt add ops
    spReleaseAll ops.length { s with deck := { s.deck with ops := ops } }

def execJoin (op : Nat) (first last leaf : Fin 384) (s : State) : Host.Outcome State Fault Refusal :=
  .next (spJoin .join op first.val last.val leaf.val 0 s)

/-- BCAST (R312): from one issuer up to the scope root and down to every leaf of the scope. -/
def execBcast (first last : Fin 384) (value : W64) (s : State) : Host.Outcome State Fault Refusal :=
  .next <|
    if !alive s || last.val < first.val then s
    else
      let leaves := (List.range (last.val + 1 - first.val)).map (first.val + ·)
      let ops := s.deck.ops ++ [⟨0, .bcast, first.val, last.val, leaves, value⟩]
      spReleaseAll ops.length { s with deck := { s.deck with ops := ops } }

def execAndOp (op : Nat) (first last leaf : Fin 384) (bit : Bool) (s : State) : Host.Outcome State Fault Refusal :=
  .next (spJoin .and op first.val last.val leaf.val (BitVec.ofNat 64 (b2n bit)) s)

def execSnap (op : Nat) (first last leaf : Fin 384) (s : State) : Host.Outcome State Fault Refusal :=
  .next (spJoin .snap op first.val last.val leaf.val 0 s)

def execResetOp (op : Nat) (first last leaf : Fin 384) (s : State) : Host.Outcome State Fault Refusal :=
  .next (spJoin .reset op first.val last.val leaf.val 0 s)

end Sys2Proof.Machine
end

