-- ==== Sys2Proof/Machine/Observation.lean ====
section
/-!
DEFINITION. Machine/Observation.lean: trace destinations and snapshots (17_observation.md).
-/
namespace Sys2Proof.Machine

/-- TRACE_RECORD (R405, R406). -/
def execTraceRecord (event : Byte) (unit : BitVec 9) (a b : W64) (s : State) : Host.Outcome State Fault Refusal :=
  .next (if alive s then trace event.toNat unit a.toNat b.toNat s else s)

/-- TRACE_PORT_SEND (R406 to R408): the port takes the next record; it is active from start-up step 3 on. -/
def execTracePortSend (s : State) : Host.Outcome State Fault Refusal :=
  .next <|
    match s.obs.store[s.obs.portPos]? with
    | some r =>
      if s.obs.portEn && alive s then
        let s1 := emit (.traceRecord r s.obs.portLost)
          { s with obs := { s.obs with portPos := s.obs.portPos + 1, portLost := false } }
        traceTrim (count 2766 s1)
      else s
    | none => s

/-- Bytes of an Emkar record (Table 17-1) with the destination's FLAGS. -/
def TraceRec.bytes (r : TraceRec) (flags : Byte) : List Byte :=
  [r.event, flags] ++ leBytes 2 r.unit.toNat ++ leBytes 4 r.seq.toNat ++ leBytes 8 r.ts.toNat ++
    leBytes 8 r.a.toNat ++ leBytes 8 r.b.toNat

/-- Records the host ring holds (R409). -/
def ringSlots (s : State) : Nat := 128 * 2 ^ s.obs.bufSize.toNat

/-- PHASE of ring write `w` (R409). -/
def ringPhase (w slots : Nat) : Nat := 1 - (w / slots) % 2

/-- TRACE_RING_WRITE (R406, R407, R409): bytes 02h to 1Fh first, then bytes 00h and 01h. -/
def execTraceRingWrite (s : State) : Host.Outcome State Fault Refusal :=
  .next <|
    match s.obs.store[s.obs.ringPos]? with
    | some r =>
      if s.obs.bufEn && !ringStalled s then
        let w := s.obs.ringW
        let at_ := s.obs.bufBase.toNat * 4096 + 32 * (w % ringSlots s)
        let b := r.bytes (BitVec.ofNat 8 (ringPhase w (ringSlots s) + 2 * b2n s.obs.ringLost))
        let s1 := { s with obs := { s.obs with ringPos := s.obs.ringPos + 1, ringLost := false, ringW := w + 1 } }
        let s2 := hostWrite (BitVec.ofNat 64 at_) none (b.take 2)
          (hostWrite (BitVec.ofNat 64 (at_ + 2)) none (b.drop 2) s1)
        traceTrim (count 2767 s2)
      else s
    | none => s

/-- BUF_EN rises: ring writes are numbered from 0 (R409). -/
def enableRing (s : State) : State :=
  if s.obs.bufEn then s else { s with obs := { s.obs with bufEn := true, ringW := 0 } }

/-- TRACE_BUF_ENABLE (R409). -/
def execTraceBufEnable (s : State) : Host.Outcome State Fault Refusal :=
  .next (if writable s then enableRing s else s)

/-- SNAP_GO (R412): the cut is taken here, the copies end with SNAPSHOT_END. -/
def snapGo (s : State) : State :=
  if s.obs.snapBusy then count 2770 s
  else { s with obs := { s.obs with snapBusy := true, snapCut := s.obs.counters } }

def execSnapGo (s : State) : Host.Outcome State Fault Refusal :=
  .next (if writable s then snapGo s else s)

/-- SNAPSHOT_END (R412). -/
def execSnapshotEnd (s : State) : Host.Outcome State Fault Refusal :=
  .next <|
    if s.obs.snapBusy then
      let n := s.obs.snapSeq + 1
      trace 0x48 uObserve n.toNat 0 (count 2769
        { s with obs := { s.obs with snapBusy := false, snapSeq := n, snapBank := s.obs.snapCut } })
    else s

end Sys2Proof.Machine
end

