-- ==== Sys2Proof/Machine/Milell.lean ====
section
/-!
DEFINITION. Machine/Milell.lean: the field network: CAN, NMT, LSS, heartbeat, emergency messages, and the USDO server up
to the request that core 1 serves (15_milell_dictionary.md R369 to R373, R377).
-/
namespace Sys2Proof.Machine

/-! ### The node (R371, R372) -/

/-- The CAN controller is active (Table 14-3 step 3). -/
def canUp (s : State) : Bool := alive s && s.milell.booted

/-- The node has a node ID in force and takes part in the network (R371). -/
def onNetwork (s : State) : Bool := canUp s && s.milell.nodeInForce ≠ 0xFF

/-- USDO is served: pre-operational or operational (R372). -/
def usdoServed (s : State) : Bool := onNetwork s && s.milell.nmt ≠ .stopped

/-- Content of a heartbeat for an NMT state (CiA 1301; notes/assumptions/33.md). -/
def nmtCode : Nmt → Byte
  | .stopped => 0x04
  | .operational => 0x05
  | .preOperational => 0x7F

/-- Tick of the next heartbeat from now on (1017h, in ms). -/
def heartbeatAfter (s : State) : Nat := s.ticks + s.milell.heartbeatMs.toNat * 100000

/-- The boot-up message of a configured node; pre-operational follows (R371, R372). -/
def bootUp (s : State) : State :=
  let s1 := { s with milell := { s.milell with nmt := .preOperational, nextHeartbeat := heartbeatAfter s } }
  if onNetwork s1 then emit (.can (0x700 + s1.milell.nodeInForce.toNat) [0]) s1 else s1

/-- A node ID is allowed (Table 15-10). -/
def nodeIdOk (id : Nat) : Bool := (1 ≤ id && id ≤ 127) || id = 0xFF

/-- NODE_ID is written and kept in the retained block (R361, R371). -/
def nodeIdSet (id : Byte) (s : State) : State :=
  { s with milell := { s.milell with nodeId := id }
           power := { s.power with retained := { s.power.retained with nodeId := id } } }

/-! ### NMT -/

/-- A change of NMT state, in an unconfigured node too; messages that waited in Stopped go out once EMCY is served again (R377). -/
def nmtGo (st : Nmt) (s : State) : State :=
  if canUp s then emcySend { s with milell := { s.milell with nmt := st } } else s

/-- NMT_START. -/
def execNmtStart (s : State) : Host.Outcome State Fault Refusal := .next (nmtGo .operational s)
/-- NMT_STOP. -/
def execNmtStop (s : State) : Host.Outcome State Fault Refusal := .next (nmtGo .stopped s)
/-- NMT_PRE_OPERATIONAL. -/
def execNmtPreOperational (s : State) : Host.Outcome State Fault Refusal := .next (nmtGo .preOperational s)

/-- NMT_RESET_NODE: a chip reset; ignored and counted in the safe state (R329, R360, R372). -/
def execNmtResetNode (s : State) : Host.Outcome State Fault Refusal :=
  .next <|
    if !canUp s then s
    else if s.faults.safe then count 2699 s
    else chipReset 5 s

/-- NMT_RESET_COMMUNICATION: NODE_ID and the communication objects are read again, then the boot-up message (R372). An
unconfigured node takes an ID written from the host window here (R371). -/
def execNmtResetCommunication (s : State) : Host.Outcome State Fault Refusal :=
  .next <|
    if !canUp s then s
    else
      let m := { s.milell with nodeInForce := s.milell.nodeId, inhibit := 100, heartbeatMs := 1000, usdo := [], segs := [] }
      emcySend (bootUp { s with milell := m })

/-! ### LSS (R371) -/

/-- An answer of the LSS slave (CiA 1305; notes/assumptions/33.md). -/
def lssAnswer (cmd err : Byte) (s : State) : State := emit (.can 0x7E4 [cmd, err, 0, 0, 0, 0, 0, 0]) s

/-- LSS_CONFIGURE_NODE_ID: an unconfigured node takes its first ID at once and boots up; any other change waits for the next
NMT Reset Communication or chip reset. -/
def execLssConfigureNodeId (id : Byte) (s : State) : Host.Outcome State Fault Refusal :=
  .next <|
    if !canUp s then s
    else if s.faults.safe || !nodeIdOk id.toNat then lssAnswer 0x11 1 s
    else
      let s1 := lssAnswer 0x11 0 { s with milell := { s.milell with nodeId := id } }
      if s.milell.nodeInForce = 0xFF && id ≠ 0xFF then bootUp { s1 with milell := { s1.milell with nodeInForce := id } } else s1

/-- LSS_STORE_CONFIGURATION: the retained block takes NODE_ID. -/
def execLssStoreConfiguration (s : State) : Host.Outcome State Fault Refusal :=
  .next <|
    if !canUp s then s
    else if s.faults.safe then lssAnswer 0x17 1 s
    else lssAnswer 0x17 0 (nodeIdSet s.milell.nodeId s)

/-! ### Heartbeat, emergency messages, classic frames -/

/-- CAN_HEARTBEAT (R370; 1017h, 0 disables). -/
def execCanHeartbeat (s : State) : Host.Outcome State Fault Refusal :=
  .next <|
    if onNetwork s && s.milell.heartbeatMs ≠ 0 && due s.milell.nextHeartbeat s then
      emit (.can (0x700 + s.milell.nodeInForce.toNat) [nmtCode s.milell.nmt])
        { s with milell := { s.milell with nextHeartbeat := heartbeatAfter s } }
    else s

/-- EMCY_INHIBIT_EXPIRY (R377). -/
def execEmcyInhibitExpiry (s : State) : Host.Outcome State Fault Refusal := .next (if canUp s then emcySend s else s)

/-- CLASSIC_CAN_FRAME (R369): ignored and counted. -/
def execClassicCanFrame (s : State) : Host.Outcome State Fault Refusal := .next (if canUp s then count 2696 s else s)

/-! ### The USDO server (R370, R373) -/

/-- A frame to a client. -/
def usdoSend (client : Nat) (r : UsdoRsp) (s : State) : State := emit (.usdo (0x580 + s.milell.nodeInForce.toNat) client r) s

/-- An abort code to a client. -/
def usdoAbort (client : Nat) (code : W32) (s : State) : State := usdoSend client (.abort code) s

def segOf (client : Nat) (s : State) : Option Segmented := s.milell.segs.find? (fun x => x.client = client)
def segDrop (client : Nat) (s : State) : State :=
  { s with milell := { s.milell with segs := s.milell.segs.filter (fun x => x.client ≠ client) } }
def segOpen (x : Segmented) (s : State) : State := { s with milell := { s.milell with segs := s.milell.segs ++ [x] } }

/-- One second without a segment loses the transfer. -/
def segDeadline (s : State) : Nat := after 100000000 s

/-- A request for core 1. -/
def usdoQueue (r : UsdoReq) (s : State) : State :=
  ringDoorbell 1 0 { s with milell := { s.milell with usdo := s.milell.usdo ++ [r] } }

/-- An initiate addressed to this node: a broadcast is counted, a service Idern lacks is aborted, and an open transfer of the
client is aborted first. -/
def usdoInitiate (client : Nat) (dest : Byte) (kind : UsdoKind) (go : State → State) (s : State) : State :=
  if !usdoServed s then s
  else if dest = 0 then count 2697 s
  else if dest ≠ s.milell.nodeInForce then s
  else
    let s1 := match segOf client s with
      | some _ => usdoAbort client 0x08000000 (segDrop client s)
      | none => s
    if kind = .other then usdoAbort client 0x05040001 (count 2692 s1) else go s1

/-- USDO_UPLOAD_INITIATE. -/
def execUsdoUploadInitiate (client : Fin 128) (dest : Byte) (index : W16) (sub : Byte) (kind : UsdoKind) (s : State) :
    Host.Outcome State Fault Refusal :=
  .next (usdoInitiate client.val dest kind (usdoQueue ⟨client.val, index, sub, none, kind = .segmented⟩) s)

/-- USDO_DOWNLOAD_INITIATE: an expedited value is a request at once; a segmented one waits for its last segment. -/
def execUsdoDownloadInitiate (client : Fin 128) (dest : Byte) (index : W16) (sub : Byte) (kind : UsdoKind) (value : List Byte)
    (s : State) : Host.Outcome State Fault Refusal :=
  .next <|
    usdoInitiate client.val dest kind (fun s =>
      if kind = .segmented then
        usdoSend client.val .openDownload (segOpen ⟨client.val, false, index, sub, value, segDeadline s⟩ s)
      else usdoQueue ⟨client.val, index, sub, some value, false⟩ s) s

/-- A transfer whose client has sent no segment in time is lost (R373). -/
def segLost (client : Nat) (s : State) : State := usdoAbort client 0x05040000 (segDrop client s)

/-- USDO_SEGMENT: the next segment of an upload, or a segment of a download, whose last one makes the request. -/
def execUsdoSegment (client : Fin 128) (bytes : List Byte) (last : Bool) (s : State) : Host.Outcome State Fault Refusal :=
  .next <|
    match (if usdoServed s then segOf client.val s else none) with
    | none => s
    | some x =>
      let s1 := ringDoorbell 1 0 (segDrop client.val s)
      if due x.deadline s then segLost client.val s
      else if x.upload then
        let rest := x.bytes.drop 56
        let s2 := usdoSend client.val (.segment (x.bytes.take 56) rest.isEmpty) s1
        if rest.isEmpty then s2 else segOpen { x with bytes := rest, deadline := segDeadline s } s2
      else if last then usdoQueue ⟨client.val, x.index, x.sub, some (x.bytes ++ bytes), true⟩ s1
      else usdoSend client.val .segmentAck (segOpen { x with bytes := x.bytes ++ bytes, deadline := segDeadline s } s1)

/-- USDO_TIMEOUT. -/
def execUsdoTimeout (client : Fin 128) (s : State) : Host.Outcome State Fault Refusal :=
  .next <|
    match segOf client.val s with
    | some x => if canUp s && due x.deadline s then segLost client.val s else s
    | none => s

end Sys2Proof.Machine
end

