-- ==== Sys2Proof/Machine/ConfigSpace.lean ====
section
/-!
DEFINITION. Machine/ConfigSpace.lean: the header and the capability chain of configuration space, and the bits of it that
software writes without a further effect (07_host_port.md R200, R203, Tables 7-1 to 7-4; 09_translation.md R264).
Where the spec names a capability and not its layout, the layout is that of PCIe and CXL (notes/assumptions/35.md).
-/
namespace Sys2Proof.Machine

/-- A doubleword: the value it reads with at reset, and the bits of it that are RW and W1C. -/
structure CfgDword where
  off : Nat
  value : Nat
  rw : Nat := 0
  w1c : Nat := 0

/-- Header of an extended capability. -/
def extCap (off id version next : Nat) : CfgDword := { off := off, value := id + version * 2 ^ 16 + next * 2 ^ 20 }

/-- A DVSEC: its header, and DVSEC header 1. -/
def dvsec (off next vendor revision length : Nat) : List CfgDword :=
  [extCap off 0x23 1 next, { off := off + 4, value := vendor + revision * 2 ^ 16 + length * 2 ^ 20 }]

/-- Header (Table 7-1). -/
def cfgHeader : List CfgDword :=
  [{ off := 0x00, value := 0x7A400000 + Config.vendorId.toNat },
   { off := 0x04, value := 0x00100000 },
   { off := 0x08, value := 0x12000000 + Config.stepping.toNat },
   { off := 0x2C, value := Config.subsystem.toNat },
   { off := 0x34, value := 0x40 },
   { off := 0x3C, value := 0x100 }]

/-- Power Management, PCI Express, MSI-X (Table 7-2). -/
def cfgStandard : List CfgDword :=
  [{ off := 0x40, value := 0x00035001 }, { off := 0x44, value := 0x8 },
   { off := 0x50, value := 0x00029010 }, { off := 0x54, value := 0x10008022 },
   { off := 0x58, value := 0x0910, rw := 0x091F, w1c := 0x000F0000 },
   { off := 0x5C, value := 0x106 }, { off := 0x74, value := 0xF }, { off := 0x7C, value := 0x7E },
   { off := 0x80, value := 0x6, rw := 0xF },
   { off := 0x90, value := 0x07FF0011 }, { off := 0x94, value := 0x00010000 }, { off := 0x98, value := 0x00018000 }]

/-- AER, with the uncorrectable mask and severity and the correctable status and mask; serial number. -/
def cfgAer : List CfgDword :=
  [extCap 0x100 0x01 2 0x148,
   { off := 0x108, value := 0x00400000, rw := 0x03FFF030 }, { off := 0x10C, value := 0x00462030, rw := 0x03FFF030 },
   { off := 0x110, value := 0, w1c := 0xF1C1 }, { off := 0x114, value := 0xE000, rw := 0xF1C1 },
   extCap 0x148 0x03 1 0x158,
   { off := 0x14C, value := Config.serial.toNat % 2 ^ 32 }, { off := 0x150, value := Config.serial.toNat / 2 ^ 32 }]

/-- From Secondary PCI Express to IDE. -/
def cfgLink : List CfgDword :=
  [extCap 0x158 0x19 1 0x188, { off := 0x160, value := 0, w1c := 0xFFFF },
   extCap 0x188 0x25 1 0x198, { off := 0x18C, value := 0x80000001, rw := 0x80000000 },
   extCap 0x198 0x26 1 0x1C8, extCap 0x1C8 0x27 1 0x210, extCap 0x210 0x2A 1 0x240, extCap 0x240 0x31 1 0x260,
   extCap 0x260 0x2F 1 0x270, { off := 0x264, value := 0x6 }, { off := 0x268, value := 0, rw := 0x4 },
   extCap 0x270 0x32 1 0x290, extCap 0x290 0x2E 2 0x2B0,
   extCap 0x2B0 0x30 1 0x350, { off := 0x2B4, value := 0x00030003 }]

/-- ATS, PASID and Page Request with the values of R264: Invalidate Queue Depth 32 (00000b), Page Aligned Request, Global
Invalidate Supported, Max PASID Width 20, capacity 512, PRG Response PASID Required. -/
def cfgTranslation : List CfgDword :=
  [extCap 0x350 0x0F 1 0x358, { off := 0x354, value := 0x60, rw := 0x001F0000 },
   extCap 0x358 0x1B 1 0x360, { off := 0x35C, value := 0x1400 },
   extCap 0x360 0x13 1 0x370, { off := 0x364, value := 0x80000000 }, { off := 0x368, value := 512 }]

/-- The DVSECs (Tables 7-2 to 7-4) and PB_CAP (Table 6-20). -/
def cfgDvsec : List CfgDword :=
  dvsec 0x370 0x3B0 0x1E98 3 0x3C ++
  [{ off := 0x378, value := 0x01970000 }, { off := 0x37C, value := 0x2, rw := 0x5 }, { off := 0x384, value := 0x60020000, rw := 1 },
   { off := 0x388, value := 0x40 }, { off := 0x38C, value := 0x2000 },
   { off := 0x390, value := 0, rw := 0xFFFFFFFF }, { off := 0x394, value := 0, rw := 0xF0000000 }] ++
  dvsec 0x3B0 0x3D0 0x1E98 2 0x20 ++ [{ off := 0x3B8, value := 0x00070007 }] ++
  dvsec 0x3D0 0x3E8 0x1E98 0 0x14 ++ [{ off := 0x3D8, value := 0x8 }, { off := 0x3DC, value := 0x100 }] ++
  dvsec 0x3E8 0 Config.vendorId.toNat 0 0x14 ++ [{ off := 0x3F0, value := 0x1 }, { off := 0x3F4, value := 0x7B }]

/-- The doubleword at an offset; what the chain does not hold reads 0. -/
def cfgDword (off : Nat) : CfgDword :=
  ((cfgHeader ++ cfgStandard ++ cfgAer ++ cfgLink ++ cfgTranslation ++ cfgDvsec).find? (fun d => d.off = off)).getD
    { off := off, value := 0 }

/-- A doubleword's writable bits as they stand; an unlisted one is at reset. -/
def cfgReset (off : Nat) : W32 := BitVec.ofNat 32 (cfgDword off).value
def cfgGet (s : State) (off : Nat) : W32 := tget cfgReset s.host.cfg off

/-- A write of the doubleword: RW bits take the value, W1C bits clear. -/
def cfgWrite (off : Nat) (mask v : W32) (s : State) : State :=
  let d := cfgDword off
  let rw := mask &&& BitVec.ofNat 32 d.rw
  let x := ((cfgGet s off &&& ~~~rw) ||| (v &&& rw)) &&& ~~~(v &&& mask &&& BitVec.ofNat 32 d.w1c)
  { s with host := { s.host with cfg := tset cfgReset s.host.cfg off x } }

/-- AER's registers are sticky (PCIe): a function-level reset keeps them (Table 7-14). -/
def cfgSticky (off : Nat) : Bool := 0x100 ≤ off && off < 0x148

end Sys2Proof.Machine
end

