-- ==== Sys2Proof/Machine/HostEvents.lean ====
section
/-!
DEFINITION. Machine/HostEvents.lean: link, host-side resets, Bus Master Enable, HDM decoders, the host's own accesses
(07_host_port.md R199 to R204, R209, R225 to R230).
-/
namespace Sys2Proof.Machine

/-! ### What every host-side event does (Table 7-14, R334, R364, R399, R409) -/

/-- Every non-terminal stream gets HOST: at once, or at its next boundary where it holds a slot (Table 5-13). -/
def suspendAll (bits : BitVec 5) (s : State) : State :=
  foldS ((streamIds s).filter (fun i => (streamGet s i).live)) (fun i => suspendSoon i bits) s

/-- Secured sessions end; what waits under them goes with them (R334). -/
def endSessions (s : State) : State :=
  { s with sec := { s.sec with
      sessions := [], chunks := s.sec.chunks.filter (fun c => c.session.isNone)
      createWait := s.sec.createWait.filter (fun c => c.2.isNone) } }

/-- Window ports are reset; a request in progress completes inside, its response is lost (R380). -/
def resetPorts (s : State) : State :=
  { s with milell := { s.milell with ports := [], orphans := s.milell.orphans ++ s.milell.ports.filter (fun p => p.2.busy) } }

/-- The part that all five events share, whatever their column. -/
def hostEvent (s : State) : State :=
  let s1 := resetPorts (endSessions s)
  let s2 := { s1 with
    sb := { s1.sb with hostMask := 0xFFFFFFFF, hostIen := false }
    obs := { s1.obs with bufEn := false }
    host := { s1.host with ideSecure := 0 }
    store := { s1.store with hostSleep := true } }
  xlHostEvent (suspendAll suspHost s2)

/-- Queue-pair table, MSI-X table and PBA, INTX_STATUS reset; ARMED clears in the twin entries (R208, R228). -/
def clearQueues (s : State) : State :=
  let armed := s.host.qps.filter (fun q => q.2.armed)
  let s1 := foldS armed (fun (n, q) => putTwin n { q with armed := false }) s
  { s1 with host := { s1.host with qps := [], msix := [], intxStatus := 0, intxAsserted := false } }

/-- Every context is unbound. -/
def unbindAll (s : State) : State := foldS ((s.host.bindings.filter (fun b => b.2.bound)).map (·.1)) unbindCtx s

/-- The request window reads 0 throughout (R228). -/
def zeroWindow (s : State) : State :=
  let inWin := fun p a => (regionOfLocal s.store.regions p a).any (fun e => e.2.isWindow)
  { s with store := { s.store with
      cells := s.store.cells.filter (fun c => !inWin (c.1 / 4294967296) (c.1 % 4294967296))
      side := s.store.side.filter (fun c => !inWin (c.1 / 67108864) (c.1 % 67108864 * 64))
      windowZero := true } }

/-- Configuration space is reset; `keep` keeps the bits PCIe defines as sticky (AER's), as a function-level reset does. A fence of R187 still forces PWR_CTL; a bay
that gets its power back trains again (R175). -/
def configReset (keep : Bool) (s : State) : State :=
  let h := s.host
  let p := s.pair
  let again := p.pwrOff && p.st ≠ .degraded && p.present && s.viaduct.step = 0 && !s.viaduct.up
  setPriEnable false
    { s with
      host := { h with mse := false, bme := false, perr := false, serr := false, intxDisable := false, bar0 := 0, bar2 := 0
                       bar4 := 0, romBar := 0, romEnable := false, intLine := 0, d3hot := false, mps := 0, mrrs := 2
                       ctoValue := 0, msixEn := false, msixMask := false, atsEn := false, pasidEn := false, hpVector := 0
                       aerUncorr := if keep then h.aerUncorr else 0
                       cfg := h.cfg.filter (fun e => keep && cfgSticky e.1) }
      xl := { s.xl with prAlloc := 0, priStopped := false }
      viaduct := { s.viaduct with restartAt := if again then some s.ticks else s.viaduct.restartAt }
      pair := { p with pwrOff := p.pwrOff && p.st = .degraded, pwrInd := 3, atnInd := 3, hpIntEn := false, presEn := false
                       atnEn := false, pairChg := false, linkChg := false, presChg := false, atnPressed := false } }

/-- HDM decoders are uncommitted, their locks clear. -/
def uncommitHdm (s : State) : State :=
  { s with host := { s.host with hdm := s.host.hdm.map (fun d =>
      (d.1, { d.2 with committed := false, commit := false, lockOnCommit := false, errNotCommitted := false })) } }

/-- Host lines leave the device cache, merged stores to them are abandoned, slot 0 leaves the directory. -/
def dropHostLines (s : State) : State :=
  let s1 := (dcInvalidate (fun x => x.st ≠ .none && !x.space) s).2
  sweepSlot 0 false (endFences { s1 with coh := { s1.coh with merges := s1.coh.merges.filter (fun m => m.space) } })

/-- The columns for CXL reset and for the link events share these rows. -/
def cxlStateReset (s : State) : State :=
  let s1 := dropHostLines (uncommitHdm s)
  { s1 with host := { s1.host with ideMemSecure := false } }

/-- Chunks in progress are given up; each is moved again from its start once the engine goes on. -/
def abandonChunks (s : State) : State :=
  foldS (engineIds s) (fun e s =>
    match xferGet s e with
    | some x =>
      if x.translates then
        let s1 := xferSet e (some { x with chunk := false, toRead := [], stopped := true, written := false, asked64 := false, got := [] }) s
        { s1 with coh := { s1.coh with fills := modAll (fun f => f.engine = some e) (fun f => { f with engine := none }) s1.coh.fills } }
      else s
    | none => s) s

/-- The tables of R228's clearing step. -/
def clearStep (s : State) : State := zeroWindow (unbindAll (clearQueues s))

/-! ### Link events (R199, R226, R229) -/

/-- Everything a link drop does, with the HOST_RESET code of its cause. -/
def dropEffects (code : Nat) (s : State) : State :=
  let s1 := trace 0x21 uHost code 0 s
  let s2 := hostEvent { s1 with host := { s1.host with reads := [], flr := none, cxlReset := none }
                                coh := { s1.coh with ioReads := [] } }
  sleepIfQuiet (cxlStateReset (configReset false (clearStep (abandonChunks s2))))

/-- DL_UP falls: source 2916, a HOST_LINK record, and a link drop. -/
def linkFalls (code : Nat) (s : State) : State :=
  let s1 := { s with host := { s.host with phyUp := false, dlUp := false } }
  let s2 := if s.host.phyUp then
      trace 0x20 uHost (16 * s.host.speed.toNat + 256 * s.host.width.toNat) 0 (raiseLevel 2916 .uc true 0 s1)
    else s1
  dropEffects code s2

/-- LINK_UP (R199, R358): the link trains once PERST_N is high and start-up step 1 has ended. -/
def execLinkUp (width speed : BitVec 4) (flit256 : Bool) (s : State) : Host.Outcome State Fault Refusal :=
  .next <|
    let ready := match s.power.phase with
      | .inReset => false
      | .starting => decide (2 ≤ s.power.step)
      | _ => true
    if !ready || s.host.phyUp then s
    else
      let s1 := { s with
        power := { s.power with perstN := true }
        host := { s.host with phyUp := true, dlUp := s.host.ideFailed.isNone, width := width, speed := speed, flit256 := flit256 } }
      trace 0x20 uHost (1 + 16 * speed.toNat + 256 * width.toNat) 0 (raiseLevel 2916 .uc false 0 s1)

/-- LINK_RETRAIN (R226): a retrain that fails is a link drop. -/
def execLinkRetrain (ok : Bool) (s : State) : Host.Outcome State Fault Refusal :=
  .next (if alive s && s.host.phyUp && !ok then linkFalls 5 s else s)

/-- LINK_DROP (R226). -/
def execLinkDrop (s : State) : Host.Outcome State Fault Refusal :=
  .next (if alive s && s.host.phyUp then linkFalls 5 s else s)

/-- PERST (R226): PERST_N falls; during chip reset it is ignored (Table 14-6). -/
def execPerst (s : State) : Host.Outcome State Fault Refusal :=
  .next (if alive s then linkFalls 4 { s with power := { s.power with perstN := false } } else s)

/-- HOT_RESET (R226). -/
def execHotReset (s : State) : Host.Outcome State Fault Refusal :=
  .next (if alive s && s.host.phyUp then linkFalls 3 s else s)

def ideNum : IdeStream → Nat
  | .cxlIo n => n.val
  | .cacheMem => 5

/-- IDE protects the stream. -/
def ideOn (s : State) : IdeStream → Bool
  | .cxlIo n => s.host.ideSecure.getLsbD n.val
  | .cacheMem => s.host.ideMemSecure

/-- IDE_FAILURE (R229): the flit is discarded, and the link counts as dropped until the stream is established again. -/
def execIdeFailure (stream : IdeStream) (s : State) : Host.Outcome State Fault Refusal :=
  .next <|
    if !alive s || !s.host.dlUp || !ideOn s stream then s
    else dropEffects 5 (raise 2922 .uc (ideNum stream) { s with host := { s.host with dlUp := false, ideFailed := some stream } })

/-! ### Function-level and CXL reset (R228) -/

/-- The reset begins: host requests and fetches stop, streams suspend. -/
def resetBegins (code : Nat) (s : State) : State := sleepIfQuiet (hostEvent (trace 0x21 uHost code 0 s))

/-- Outstanding reads have completed, or their wait has ended: the rest is abandoned and its tags quarantined, and with it
the posted writes not yet sent. -/
def abandonReads (s : State) : State :=
  let s1 := foldS s.host.reads (fun r => quarantine r.tag) s
  abandonChunks { s1 with host := { s1.host with reads := [] } }

/-- FLR (R228): a write of Initiate Function Level Reset. -/
def execFlr (s : State) : Host.Outcome State Fault Refusal :=
  .next <|
    if !cfgOpen s || resetBusy s then s
    else resetBegins 1 { s with host := { s.host with flr := some ⟨after 9000000 s⟩ } }

/-- FLR_COMPLETE (R228). -/
def execFlrComplete (s : State) : Host.Outcome State Fault Refusal :=
  .next <|
    match s.host.flr with
    | none => s
    | some w =>
      if !alive s || !(s.host.reads.isEmpty || due w.deadline s) then s
      else
        let s1 := configReset true (clearStep (abandonReads s))
        { s1 with host := { s1.host with flr := none } }

/-- CXL_RESET (R228, Table 7-14). -/
def execCxlReset (s : State) : Host.Outcome State Fault Refusal :=
  .next <|
    if !cfgOpen s || resetBusy s then s
    else resetBegins 2 { s with host := { s.host with cxlReset := some ⟨after 9000000 s⟩ } }

/-- CXL_RESET_COMPLETE. -/
def execCxlResetComplete (s : State) : Host.Outcome State Fault Refusal :=
  .next <|
    match s.host.cxlReset with
    | none => s
    | some w =>
      if !alive s || !(s.host.reads.isEmpty || due w.deadline s) then s
      else
        let s1 := cxlStateReset (clearStep (abandonReads s))
        { s1 with host := { s1.host with cxlReset := none } }

/-! ### Bus Master Enable and D3hot (R219, R227, Table 5-13) -/

/-- Streams whose spill or read-back stalls suspend with BME (R163). -/
def bmeStops (s : State) : State :=
  foldS ((streamIds s).filter (fun i => (streamGet s i).live && (streamGet s i).kv.any (·.moving)))
    (fun i => suspendSoon i suspBme) s

/-- Idern may issue requests again. -/
def bmeStarts (s : State) : State :=
  let s1 := foldS ((streamIds s).filter (fun i => (streamGet s i).live)) (fun i => unsuspend i suspBme) s
  pumpEngines (pumpReads (sendAllPending s1))

/-- BME_CLEAR (R227). -/
def execBmeClear (s : State) : Host.Outcome State Fault Refusal :=
  .next <|
    if !cfgOpen s || !s.host.bme then s
    else bmeStops (trace 0x22 uHost 0 0 { s with host := { s.host with bme := false } })

/-- BME_SET (R219, R227). -/
def execBmeSet (s : State) : Host.Outcome State Fault Refusal :=
  .next <|
    if !cfgOpen s || s.host.bme then s
    else
      let s1 := trace 0x22 uHost 1 0 { s with host := { s.host with bme := true } }
      if s1.host.d3hot then s1 else bmeStarts s1

/-- D3HOT_ENTRY (Table 7-2): Memory Space Enable and Bus Master Enable act as clear. -/
def execD3hotEntry (s : State) : Host.Outcome State Fault Refusal :=
  .next <|
    if !cfgOpen s || s.host.d3hot then s
    else
      let s1 := { s with host := { s.host with d3hot := true } }
      if s.host.bme then bmeStops s1 else s1

/-! ### HDM decoders and CXL.mem (R201, R202, R240) -/

def hdmGet (s : State) (n : Nat) : HdmDecoder := tget (fun _ => {}) s.host.hdm n
def hdmSet (n : Nat) (d : HdmDecoder) (s : State) : State :=
  { s with host := { s.host with hdm := tset (fun _ => {}) s.host.hdm n d } }

/-- DPA bytes a decoder maps: its size over its ways (CXL). -/
def HdmDecoder.span (d : HdmDecoder) : Nat := d.size.toNat / 2 ^ d.iw.toNat

/-- Every byte from `a` to `a + n - 1` lies in valid entries of HOST or POOL; entry by entry. -/
def spanMapped (t : Tbl Region) : Nat → Nat → Nat → Bool
  | 0, _, _ => false
  | fuel + 1, a, n =>
    if n = 0 then true
    else
      match (validRegions t).find? (fun e => (e.2.owner = 0 || e.2.owner = 1) && e.2.baseB ≤ a && a < e.2.baseB + e.2.bytes) with
      | none => false
      | some e =>
        let k := min n (e.2.baseB + e.2.bytes - a)
        spanMapped t fuel (a + k) (n - k)

/-- HDM_COMMIT (R201): the span follows those of the lower-numbered committed decoders, after its own skip. -/
def execHdmCommit (n : Fin 4) (s : State) : Host.Outcome State Fault Refusal :=
  .next <|
    let d := hdmGet s n.val
    if !bar0Open s then s
    else if d.committed then (if d.lockOnCommit then countIgnored 0x1000 s else s)
    else
      let lower := (s.host.hdm.filter (fun e => e.1 < n.val && e.2.committed)).map (·.2)
      let base := lower.foldl (fun m e => max m (e.dpa + e.span)) 0 + d.skip.toNat
      let sound := s.host.flit256 && d.iw.toNat ≤ 3 && d.ig.toNat ≤ 6 && spanMapped s.store.regions 65 base d.span
      let failed := fun (s : State) => count 2554 (hdmSet n.val { d with commit := true, errNotCommitted := true } s)
      if !sound then failed s
      else
        match tryLock s with
        | none => failed (lockRefused s)
        | some s1 => hdmSet n.val { d with commit := true, committed := true, errNotCommitted := false, dpa := base } s1

/-- DPA of a host physical address under the committed decoders (CXL interleave arithmetic). -/
def hpaToDpa (s : State) (hpa : Nat) : Option Nat :=
  (s.host.hdm.find? (fun e => e.2.committed && e.2.base.toNat ≤ hpa && hpa < e.2.base.toNat + e.2.size.toNat)).map (fun e =>
    let d := e.2
    let off := hpa - d.base.toNat
    let g := 256 * 2 ^ d.ig.toNat
    d.dpa + off / (g * 2 ^ d.iw.toNat) * g + off % g)

/-- R202: a HOST line, or a POOL line of a bound context with the host-memory attribute. -/
def hostMay (s : State) (dpa : Nat) : Bool :=
  match lineTag s dpa with
  | some (r, tag) => r.owner = 0 || (r.owner = 1 && (bindingGet s tag).bound && (ctxGet s tag).hostmemOn)
  | none => false

/-- The request at the line's home, as Table 8-3 names it (R240). -/
def hostReq (line : LineAddr) (ctx : Nat) (req : HostMemReq) (s : State) : State :=
  let ask := fun (r : CohReq) => cohRequest (.slot 0) ctx line r 0 0 s
  match req with
  | .rd .s => ask .rdS
  | .rd .a => ask .rdX
  | .rd _ => ask .rdCur
  | .wr d m p => ask (.wrInv d m p)
  | .wrFromM d p => wbArrives 0 line d p s
  | .clnEvct => evictArrives 0 line s

/-- A refused read returns data with poison, a refused write is dropped; the data is free (notes/assumptions/1.md). -/
def hostRefused (line : LineAddr) (req : HostMemReq) (s : State) : State :=
  match req with
  | .rd _ =>
    let (n, s1) := drawFree s
    emit (.memData line (Config.freeLine n) true) s1
  | .clnEvct => s
  | _ => emit (.memCmp line 0) s

/-- HOST_MEM_ACCESS (R202, R328). -/
def execHostMemAccess (hpa : W64) (req : HostMemReq) (s : State) : Host.Outcome State Fault Refusal :=
  .next <|
    if !hostServes s || !s.host.flit256 then s
    else
      let dpa := hpaToDpa s (hpa.toNat / 64 * 64)
      let line : LineAddr := BitVec.ofNat 32 (dpa.getD 0 / 64)
      if s.faults.safe then hostRefused line req s
      else
        match dpa with
        | some a =>
          let tag := ((lineTag s a).map (·.2)).getD 0
          if hostMay s a then hostReq line tag req s
          else raise 2920 .uc tag (count 2553 (hostRefused line req s))
        | none => raise 2920 .uc 0 (count 2553 (hostRefused line req s))

/-- The host path may ask the line's home for it: it has nothing before it there, and a retry credit (R243, R244). -/
def ioMayAsk (s : State) (l : LineAddr) : Bool :=
  let mine := fun (r : Requester) => decide (r = .hostIo)
  !s.coh.txns.any (fun t => t.line = l && mine t.requester) && !s.coh.retried.any (fun x => x.line = l && mine x.requester) &&
    !s.coh.away.any (fun h => h.line = l && mine h.requester) &&
    (s.coh.retried.filter (fun x => mine x.requester && homeOf s x.line = homeOf s l)).length < 4

/-- A write of the host path: a WR_INV, which waits behind the path's own earlier accesses to the line. -/
def ioWrite (l : LineAddr) (d : LineData) (m : W64) (s : State) : State :=
  let before := s.coh.posted.any (fun p => p.requester = .hostIo && p.line = l) || s.coh.ioReads.contains l
  let s1 := { s with coh := { s.coh with posted := s.coh.posted ++ [⟨.hostIo, 0, l, d, m, false, none⟩] } }
  if before || !ioMayAsk s l then s1 else cohRequest .hostIo 0 l (.wrInv d m false) 0 4 s1

/-- A read of the host path: an RD_CUR, answered when it completes. -/
def ioRead (l : LineAddr) (s : State) : State :=
  let before := s.coh.posted.any (fun p => p.requester = .hostIo && p.line = l) || s.coh.ioReads.contains l
  let s1 := { s with coh := { s.coh with ioReads := s.coh.ioReads ++ [l] } }
  if before || !ioMayAsk s l then s1 else cohRequest .hostIo 0 l .rdCur 0 4 s1

/-- BAR4_ACCESS (R209): a line of the request window, through its home as the host's CXL.io path (R234); where no entry backs
it, an unmapped access (R123). What has to wait goes on with RD_CUR and WR_INV of the host path. -/
def execBar4Access (offset : BitVec 31) (write : Option (LineData × W64)) (s : State) : Host.Outcome State Fault Refusal :=
  .next <|
    let off := offset.toNat / 64 * 64
    if !barOpen s then refuseAccess true (if write.isSome then none else some 64) s
    else
      match windowBase s, write with
      | none, some _ => unmapped .hostIo s
      | none, none => emit (.cpl (.poisoned (List.replicate 64 0))) (unmapped .hostIo s)
      | some b, some (d, m) => ioWrite (BitVec.ofNat 32 ((b + off) / 64)) d m s
      | some b, none => ioRead (BitVec.ofNat 32 ((b + off) / 64)) s

/-! ### Unsupported requests and the expansion ROM (R225, R230) -/

/-- UNSUPPORTED_REQUEST (Table 7-13). Before start-up step 7 the answer is the same (R358). -/
def execUnsupportedRequest (r : BadRequest) (s : State) : Host.Outcome State Fault Refusal :=
  .next <|
    if !alive s || !s.host.dlUp then s
    else
      match r with
      | .vdm1 => count 2555 (aerLog 20 s)
      | .duringReset true => emit (.cpl (.data (List.replicate 8 0))) (count 2555 (aerLog 20 s))
      | .duringReset false => count 2555 (aerLog 20 s)
      | _ => answerUr s

/-- The items of Table 7-15 occupy an offset. -/
def romHolds (off : Nat) : Bool := off < 0xC00000 + 0x200000

/-- EXPANSION_ROM_READ (R230): outside both enables the request reaches no enabled BAR (Table 7-13). -/
def execExpansionRomRead (offset : BitVec 24) (data : W32) (s : State) : Host.Outcome State Fault Refusal :=
  .next <|
    if !hostServes s then s
    else if !(s.host.romEnable && s.host.mse && !s.host.d3hot) then answerUr s
    else emit (.cpl (.data (if romHolds offset.toNat && !s.faults.safe then leBytes 4 data.toNat else [0, 0, 0, 0]))) s

/-- FLASH_READ_TIMEOUT (R7, Table 7-13): 2,000 ticks without an answer of the flash. -/
def execFlashReadTimeout (s : State) : Host.Outcome State Fault Refusal :=
  .next <|
    if hostServes s && s.host.romEnable && s.host.mse && !s.host.d3hot then
      emit (.cpl .ca) (raise 2937 .uc 0 (count 2549 (aerLog 15 s)))
    else s

end Sys2Proof.Machine
end

