-- ==== Sys2Proof/Machine/Pace.lean ====
section
/-!
DEFINITION. Machine/Pace.lean: pace measurement, the trim loop and trestle dispatch (01_stages_and_clocks.md).
-/
namespace Sys2Proof.Machine

/-- Completed transfers of the slowest replica chain (R27). -/
def slowestCount (counts : List W16) : Nat := counts.foldl (fun m c => min m c.toNat) 65535

/-- Picoseconds per stage from `m` transfers in 1 us, rounded up so that PACE stays an upper bound (R27;
notes/assumptions/9.md). A chain that completes fewer than 16 transfers has no 16-bit value: free. -/
def stagePsOf (m fresh : Nat) : W16 :=
  if 16 ≤ m then BitVec.ofNat 16 ((1000000 + m - 1) / m) else (Config.freeWord fresh).truncate 16

/-- PACE_UPDATE (R26, R27): neither clipped nor extrapolated. -/
def execPaceUpdate (counts : List W16) (s : State) : Host.Outcome State Fault Refusal :=
  .next <|
    if alive s && due s.pace.nextUpdate s then
      let (n, s1) := drawFree s
      { s1 with pace := { s1.pace with stagePs := stagePsOf (slowestCount counts) n, valid := true
                                       updSeq := s1.pace.updSeq + 1, nextUpdate := s1.pace.nextUpdate + 100 } }
    else s

/-- TARGET_PS as PACE_TARGET stores it (Table 1-3). -/
def clampTarget (v : Nat) : W16 := BitVec.ofNat 16 (max 300 (min 480 v))

/-- The PACE_TARGET fields change; the first interval begins at the next TS edge after TRIM_EN rises (R29). -/
def setPaceTarget (trimEn : Bool) (target : Nat) (s : State) : State :=
  let p := s.pace
  { s with pace := { p with targetPs := clampTarget target, trimEn := trimEn
                            nextTrim := if trimEn && !p.trimEn then s.ticks + 1 else p.nextTrim } }

/-- PACE_TARGET_WRITE (R29, Table 1-3). -/
def execPaceTargetWrite (value : W32) (s : State) : Host.Outcome State Fault Refusal :=
  .next (if writable s then setPaceTarget (value.getLsbD 31) (fld value 0 16) s else s)

/-- One VCORE_SET request on the PM link (R29, R354). -/
def requestVcore (mv : BitVec 10) (s : State) : State :=
  emit (.pmWrite mv) { s with pace := { s.pace with request := some (mv, after 20000 s) } }

/-- TRIM_INTERVAL (R29). The safe state stops the loop (Table 14-6). -/
def execTrimInterval (s : State) : Host.Outcome State Fault Refusal :=
  .next <|
    let p := s.pace
    if writable s && p.trimEn && due p.nextTrim s then
      let s1 := { s with pace := { p with nextTrim := p.nextTrim + 10000 } }
      if p.request.isSome then s1
      else if p.targetPs.toNat + 4 < p.stagePs.toNat && decide (p.vcoreMv.toNat < 800) then
        requestVcore (p.vcoreMv + 5) s1
      else if p.stagePs.toNat < p.targetPs.toNat - 4 && decide (700 < p.vcoreMv.toNat) then
        requestVcore (p.vcoreMv - 5) s1
      else s1
    else s

/-- An unanswered request ends: VCORE_MV is treated as unchanged and the PM-link source is raised (R30). -/
def trimLost (s : State) : State :=
  raise 2936 .uc s.pace.vcoreMv.toNat { s with pace := { s.pace with request := none } }

/-- TRIM_ACK (R29): the setpoint is the requested one. An answer that comes after the 20,000 ticks finds the request ended
(R30); one that comes while a later request is outstanding counts as that request's (notes/assumptions/77.md). -/
def execTrimAck (s : State) : Host.Outcome State Fault Refusal :=
  .next <|
    match s.pace.request with
    | some (mv, d) =>
      if due d s then trimLost s
      else { s with pace := { s.pace with vcoreMv := mv, request := none, pmRefused := false } }
    | none => s

/-- TRIM_REFUSED (R29, R30). -/
def execTrimRefused (s : State) : Host.Outcome State Fault Refusal :=
  .next <|
    match s.pace.request with
    | some (_, d) =>
      if due d s then trimLost s else { s with pace := { s.pace with request := none, pmRefused := true } }
    | none => s

/-- TRIM_TIMEOUT (R30). -/
def execTrimTimeout (s : State) : Host.Outcome State Fault Refusal :=
  .next <|
    match s.pace.request with
    | some (_, d) => if due d s then trimLost s else s
    | none => s

end Sys2Proof.Machine
end

