-- ==== Sys2Proof/Machine/Saddlebags.lean ====
section
/-!
DEFINITION. Machine/Saddlebags.lean: mailbox channels and their doorbells (16_saddlebags.md).
-/
namespace Sys2Proof.Machine

/-- Identity codes (Table 16-1). -/
def sbHost : Byte := 0x01
def sbHostPu : Byte := 0x02
def sbCore (c : Nat) : Byte := BitVec.ofNat 8 (0x10 + c)

/-- A code of Table 16-1; every other code is reserved. -/
def sbCodeOk (c : Byte) : Bool := c.toNat ≤ 2 || (0x10 ≤ c.toNat && c.toNat ≤ 0x17)

/-- The channel's pair is one of Table 16-2 (R392). -/
def SbChannel.bound (x : SbChannel) : Bool :=
  ((x.sender = sbHost || x.sender = sbHostPu) && x.receiver = sbCore 1) ||
    ((x.sender = sbCore 0 || x.sender = sbCore 6) && x.receiver = sbHost)

/-- The unit behind an identity code (Table 16-1). -/
def sbActs (a : SbActor) (code : Byte) : Bool :=
  match a with
  | .host => code = sbHost || code = sbHostPu
  | .core c => code = sbCore c.val

/-- An actor can act: the host through an open BAR0, core 1 always, the other cores outside the safe state (R328). -/
def sbAlive (a : SbActor) (s : State) : Bool :=
  match a with
  | .host => bar0Open s
  | .core c => alive s && (c.val = 1 || !s.faults.safe)

/-- Sets the receiver's RXPEND and doorbell bit for channel `c` (R396). -/
def sbRing (c : Nat) (receiver : Byte) (s : State) : State :=
  if receiver = sbHost then ringHost c s
  else
    let t := trestleGet s 1
    ringDoorbell 1 (32 + c % 32) (trestleSet 1 { t with rxpend := withBit t.rxpend c } s)

/-- A write of GO (R396). -/
def sbGo (c : Nat) (a : SbActor) (len : BitVec 5) (s : State) : State :=
  let x := chanGet s c
  if !x.bound || !sbActs a x.sender || x.busy then count (2700 + c) s
  else if len.toNat < 8 || 16 < len.toNat then
    chanSet c { x with len := len, goSeq := x.goSeq + 1, ackSeq := x.goSeq + 1, status := 0x11, detail := 0 } s
  else sbRing c x.receiver (chanSet c { x with len := len, busy := true, goSeq := x.goSeq + 1 } s)

def execSbGo (c : Channel) (actor : SbActor) (len : BitVec 5) (s : State) : Host.Outcome State Fault Refusal :=
  .next (if sbAlive actor s then sbGo c.val actor len s else s)

/-- Clears bit `c` of the receiver's RXPEND. -/
def sbTake (c : Nat) (receiver : Byte) (s : State) : State :=
  if receiver = sbHost then { s with sb := { s.sb with hostRxpend := dropBit s.sb.hostRxpend c } }
  else
    let t := trestleGet s 1
    trestleSet 1 { t with rxpend := dropBit t.rxpend c } s

/-- The receiver writes SB_ACK (R397). -/
def sbAck (c : Nat) (a : SbActor) (status detail : Byte) (s : State) : State :=
  let x := chanGet s c
  if !x.bound || !sbActs a x.receiver || !x.busy then count (2700 + c) s
  else sbTake c x.receiver (chanSet c { x with ackSeq := x.goSeq, busy := false, status := status, detail := detail } s)

def execSbAck (c : Channel) (actor : SbActor) (status detail : Byte) (s : State) : Host.Outcome State Fault Refusal :=
  .next (if sbAlive actor s then sbAck c.val actor status detail s else s)

/-- A write of SENDER_ID or RECEIVER_ID (R392, R393). -/
def sbBind (c : Nat) (receiver : Bool) (code : Byte) (s : State) : State :=
  let x := chanGet s c
  if s.sb.lock || x.busy || !sbCodeOk code then countIgnored (0xB8000 + 8 * c) s
  else if (if receiver then x.receiver else x.sender) = code then s
  else if receiver then chanSet c { sender := x.sender, receiver := code } s
  else chanSet c { sender := code, receiver := x.receiver } s

def execSbBind (c : Channel) (receiver : Bool) (code : Byte) (s : State) : Host.Outcome State Fault Refusal :=
  .next (if writable s then sbBind c.val receiver code s else s)

/-- SB_LOCK (R393). -/
def execSbLock (s : State) : Host.Outcome State Fault Refusal :=
  .next (if writable s then { s with sb := { s.sb with lock := true } } else s)

/-- A write of SB_HOST_MASK (R398): a set bit that is unmasked notifies. -/
def setHostMask (value : W32) (s : State) : State :=
  let opened := s.sb.hostDb &&& s.sb.hostMask &&& ~~~value
  let s1 := { s with sb := { s.sb with hostMask := value } }
  if opened ≠ 0 && s.sb.hostIen then interrupt s.sb.hostVector s1 else s1

def execSbHostMaskWrite (value : W32) (s : State) : Host.Outcome State Fault Refusal :=
  .next (if bar0Open s then setHostMask value s else refuseAccess false none s)

end Sys2Proof.Machine
end

