-- ==== Sys2Proof/Machine/Security.lean ====
section
/-!
DEFINITION. Machine/Security.lean: the SPDM responder, secured sessions, contexts and key release (13_security.md R330 to
R340).
-/
namespace Sys2Proof.Machine

/-! ### Responses (R333, Table 17-3) -/

def spdm (session : SessionId) (r : SpdmRsp) (s : State) : State := emit (.spdm session r) s

/-- An ERROR response. -/
def spdmError (session : SessionId) (what : String) (s : State) : State := count 2772 (spdm session (.error what) s)

/-- Response to a vendor-defined message: the code, then a STATUS byte of Table 0-5. -/
def vendorRsp (session : SessionId) (code status : Nat) (s : State) : State :=
  let s1 := spdm session (.vendor (BitVec.ofNat 8 code) (BitVec.ofNat 8 status)) s
  if status = stOk then s1 else count 2773 s1

/-! ### Sessions (R334) -/

def sessGet (s : State) (i : Nat) : Option Session := s.sec.sessions.find? (fun x => x.id = i)

def sessPut (x : Session) (s : State) : State :=
  { s with sec := { s.sec with sessions := modFirst (fun y => y.id = x.id) (fun _ => x) s.sec.sessions } }

/-- A session ends, and the chunked transfers in it. -/
def sessEnd (i : Nat) (s : State) : State :=
  { s with sec := { s.sec with
      sessions := s.sec.sessions.filter (fun x => x.id ≠ i)
      chunks := s.sec.chunks.filter (fun c => c.session.map Fin.val ≠ some i)
      createWait := s.sec.createWait.filter (fun c => c.2.map Fin.val ≠ some i) } }

/-- The identity serves more than GET_VERSION (Table 13-1). -/
def fullSpdm (s : State) : Bool := s.sec.lifecycle = .provisioned || s.sec.lifecycle = .deployed

/-- A DOE object reaches the security root: its doorbell bit of core 7 sets (Table 1-14). -/
def doe (f : State → State) (s : State) : State := if cfgOpen s then f (ringDoorbell 7 0 s) else s

/-- A request reaches the responder on the mailbox, or in a secured session, and is served there. -/
def serve (session : SessionId) (f : State → State) : State → State :=
  doe fun s =>
  if !fullSpdm s then spdmError session "UnsupportedRequest" s
  else
    match session with
    | none => if s.sec.conn < 3 then spdmError none "UnexpectedRequest" s else f s
    | some i =>
      match sessGet s i.val with
      | none => spdmError session "InvalidSession" s
      | some x => if x.secured then f s else spdmError session "UnexpectedRequest" s

/-- As `serve`, for requests that only a secured session carries. -/
def serveSecured (session : SessionId) (f : Session → State → State) (s : State) : State :=
  serve session (fun s =>
    match session.bind (fun i => sessGet s i.val) with
    | some x => f x s
    | none => spdmError session "UnexpectedRequest" s) s

/-- As `serve`, for requests that no session carries. -/
def serveOpen (session : SessionId) (f : State → State) (s : State) : State :=
  serve session (fun s => if session.isSome then spdmError session "UnexpectedRequest" s else f s) s

/-! ### Connection and identity -/

def setConn (n : Nat) (s : State) : State := { s with sec := { s.sec with conn := n } }

/-- Capabilities Idern states (R333). -/
def spdmCaps : SpdmCaps :=
  { flags := [.cert, .chal, .measSigned, .keyEx, .mutAuth, .encrypt, .mac, .hbeat, .keyUpd, .encap, .chunk]
    ctExponent := 16, dataTransferSize := 4096, maxMsgSize := 65536 }

/-- Algorithms Idern negotiates (R333). -/
def spdmAlgs : SpdmAlgs :=
  { baseAsym := .ecdsaP384, reqAsym := .ecdsaP384, hash := .sha384, dhe := .secp384r1, aead := .aes256Gcm
    keySchedule := .spdmKeySchedule, measurementSpec := .dmtfMeasurements, measurementHash := .sha384 }

/-- GET_VERSION (R330, R333): version 1.3 only, served in every lifecycle state. -/
def execGetVersion (session : SessionId) (s : State) : Host.Outcome State Fault Refusal :=
  .next <| doe (fun s =>
    if session.isSome then spdmError session "UnexpectedRequest" s
    else spdm none (.version [0x13]) (setConn 1 s)) s

/-- The two requests that follow GET_VERSION in their order. -/
def connect (session : SessionId) (need dest : Nat) (r : SpdmRsp) : State → State :=
  doe fun s =>
  if !fullSpdm s then spdmError session "UnsupportedRequest" s
  else if session.isSome || s.sec.conn < need then spdmError session "UnexpectedRequest" s
  else spdm none r (setConn dest s)

def execGetCapabilities (session : SessionId) (s : State) : Host.Outcome State Fault Refusal :=
  .next (connect session 1 2 (.capabilities spdmCaps) s)

def execNegotiateAlgorithms (session : SessionId) (s : State) : Host.Outcome State Fault Refusal :=
  .next (connect session 2 3 (.algorithms spdmAlgs) s)

def execGetDigests (session : SessionId) (s : State) : Host.Outcome State Fault Refusal :=
  .next (serve session (spdm session .digests) s)

def execGetCertificate (session : SessionId) (offset length : W16) (s : State) : Host.Outcome State Fault Refusal :=
  .next (serve session (spdm session (.certificate offset.toNat length.toNat)) s)

def execChallenge (session : SessionId) (nonce : BitVec 256) (s : State) : Host.Outcome State Fault Refusal :=
  .next (serveOpen session (spdm none (.challengeAuth nonce)) s)

/-! ### Measurements (R335, R339) -/

/-- CTX_STATE of Table 13-3. -/
def CtxState.code : CtxState → Nat
  | .free => 0 | .created => 1 | .keyed => 2 | .bound => 3

/-- OWNER_HASH of a requester: the hash that names its leaf key. -/
def ownerHash (owner : Nat) : List Byte := leBytes 48 owner

/-- The context record (Table 13-3). -/
def contextRecord (s : State) (n : Nat) : List Byte :=
  let c := ctxGet s n
  let model := match modelOf s n with
    | some m => if c.st = .bound then m.modelId.toNat else 0
    | none => 0
  leBytes 2 n ++ [BitVec.ofNat 8 c.st.code,
    BitVec.ofNat 8 (b2n c.hostmemOn + 2 * b2n c.rotOpen + 4 * c.epoch.toNat + 16 * b2n c.burnishOpen)] ++
  leBytes 4 c.keyId.toNat ++ leBytes 16 model ++ ownerHash c.owner

/-- Change stamps of indices 1 to 11, and of the context's record. -/
def stampsNow (s : State) (ctx : Nat) : List Nat :=
  (List.range 11).map (fun i => tget (fun _ => 0) s.sec.stamps (i + 1)) ++ [(ctxGet s ctx).stamp]

/-- The session's attestation is current for a context (R339). -/
def attested (s : State) (x : Session) (ctx : Nat) : Bool := x.covered = some (ctx, stampsNow s ctx)

/-- Context that index 12 reports in this exchange. -/
def selectedCtx (s : State) (session : SessionId) : Option Nat :=
  (session.bind (fun i => sessGet s i.val)).bind (·.selected)

/-- GET_MEASUREMENTS: index 0 asks the number of blocks, FFh all of them. -/
def measure (session : SessionId) (index : Nat) (signed : Bool) (s : State) : State :=
  let sel := selectedCtx s session
  let n := 11 + b2n sel.isSome
  if index = 0 then spdm session (.measurements [] signed [BitVec.ofNat 8 n]) s
  else if index = 0xFF then
    let raw := match sel with
      | some c => contextRecord s c
      | none => []
    let s1 := spdm session (.measurements ((List.range n).map (· + 1)) signed raw) s
    match session.bind (fun i => sessGet s i.val), sel with
    | some x, some c => if signed then sessPut { x with covered := some (c, stampsNow s c) } s1 else s1
    | _, _ => s1
  else if n < index then spdmError session "InvalidRequest" s
  else
    let raw := match sel with
      | some c => if index = 12 then contextRecord s c else []
      | none => []
    spdm session (.measurements [index] signed raw) s

def execGetMeasurements (session : SessionId) (index : Byte) (signed : Bool) (s : State) :
    Host.Outcome State Fault Refusal :=
  .next (serve session (measure session index.toNat signed) s)

/-! ### Opening, keeping and ending a session (R333, R334) -/

/-- KEY_EXCHANGE: at most 16 sessions; under mutual authentication Idern asks for the requester's digests next. -/
def execKeyExchange (mutualAuth : Bool) (s : State) : Host.Outcome State Fault Refusal :=
  .next <|
    serveOpen none (fun s =>
      match findBelow 16 (fun i => (sessGet s i).isNone) with
      | none => spdmError none "SessionLimitExceeded" s
      | some i =>
        let x : Session := { id := i, secured := false, mutualAuth := mutualAuth, requester := 0, selected := none
                             covered := none, keyGen := 0 }
        let s1 := spdm none (.keyExchange i mutualAuth) { s with sec := { s.sec with sessions := s.sec.sessions ++ [x] } }
        if mutualAuth then spdm (some (Fin.ofNat 16 i)) (.encapsulated false) s1 else s1) s

/-- ENCAPSULATED_RESPONSE: digests lead to a request for the certificate, whose leaf key is the requester's. -/
def execEncapsulatedResponse (session : Fin 16) (certificate : Bool) (keyHash : Nat) (s : State) :
    Host.Outcome State Fault Refusal :=
  .next <| doe (fun s =>
    match sessGet s session.val with
    | none => spdmError (some session) "InvalidSession" s
    | some x =>
      if x.secured || !x.mutualAuth then spdmError (some session) "UnexpectedRequest" s
      else if certificate then sessPut { x with requester := keyHash } s
      else spdm (some session) (.encapsulated true) s) s

/-- FINISH: the handshake MAC, and under mutual authentication the requester's signature, must check. -/
def execFinish (session : Fin 16) (ok : Bool) (requesterKey : Nat) (s : State) : Host.Outcome State Fault Refusal :=
  .next <| doe (fun s =>
    match sessGet s session.val with
    | none => spdmError (some session) "InvalidSession" s
    | some x =>
      if x.secured then spdmError (some session) "UnexpectedRequest" s
      else if ok && (!x.mutualAuth || (x.requester ≠ 0 && requesterKey = x.requester)) then
        spdm (some session) .finish (sessPut { x with secured := true } s)
      else spdmError (some session) "DecryptError" (sessEnd session.val s)) s

def execHeartbeat (session : SessionId) (s : State) : Host.Outcome State Fault Refusal :=
  .next (serveSecured session (fun _ => spdm session .heartbeatAck) s)

def execKeyUpdate (session : SessionId) (s : State) : Host.Outcome State Fault Refusal :=
  .next (serveSecured session (fun x s => spdm session .keyUpdateAck (sessPut { x with keyGen := x.keyGen + 1 } s)) s)

def execEndSession (session : SessionId) (s : State) : Host.Outcome State Fault Refusal :=
  .next (serveSecured session (fun x s => sessEnd x.id (spdm session .endSessionAck s)) s)

/-! ### Chunked transfers (R333) -/

/-- CHUNK_SEND: chunks in order from 0, of at most 4,096 bytes, a message of at most 65,536. -/
def chunkIn (session : SessionId) (handle : Byte) (seq : W16) (last : Bool) (bytes : List Byte) (s : State) : State :=
  let isIt := fun (c : Chunked) => c.session = session && c.handle = handle
  let cur : Chunked := (s.sec.chunks.find? isIt).getD ⟨session, handle, 0, []⟩
  let rest := s.sec.chunks.filter (fun c => !isIt c)
  let all := cur.bytes ++ bytes
  let drop := { s with sec := { s.sec with chunks := rest } }
  if cur.seq ≠ seq || 4096 < bytes.length || 65536 < all.length then spdmError session "InvalidRequest" drop
  else
    let next : Chunked := ⟨session, handle, seq + 1, all⟩
    let s1 := if last then drop else { s with sec := { s.sec with chunks := rest ++ [next] } }
    spdm session (.chunkSendAck seq last) s1

def execChunkSend (session : SessionId) (handle : Byte) (seq : W16) (last : Bool) (bytes : List Byte) (s : State) :
    Host.Outcome State Fault Refusal :=
  .next (serve session (chunkIn session handle seq last bytes) s)

def execChunkGet (session : SessionId) (handle : Byte) (seq : W16) (s : State) : Host.Outcome State Fault Refusal :=
  let _ := handle
  .next (serve session (spdm session (.chunkResponse seq)) s)

/-! ### IDE keys (R229, R334, Table 13-5) -/

/-- Traffic on a stream starts under its new keys; a failed stream is established again. -/
def ideGo (stream : IdeStream) (s : State) : State :=
  let h := match stream with
    | .cxlIo n => { s.host with ideSecure := withBit s.host.ideSecure n.val }
    | .cacheMem => { s.host with ideMemSecure := true }
  let h := if h.ideFailed = some stream then { h with ideFailed := none, dlUp := h.phyUp } else h
  { s with host := h }

/-- IDE_KM: key programming, and K_SET_GO. -/
def execIdeKm (session : SessionId) (stream : IdeStream) (go : Bool) (s : State) : Host.Outcome State Fault Refusal :=
  .next (serveSecured session (fun _ s => spdm session .ideKm (if go then ideGo stream s else s)) s)

/-! ### Kodjaurn messages (R337, Table 13-4) -/

/-- A vendor-defined message: refused in the safe state (R328) and outside a secured session, with what else a refusal
does; `f` gives its status. -/
def vendor (session : SessionId) (code : Nat) (refused : State → State) (f : Session → State → State) : State → State :=
  doe fun s =>
  if !fullSpdm s then spdmError session "UnsupportedRequest" s
  else if s.faults.safe then vendorRsp session code stState (refused s)
  else
    match session.bind (fun i => sessGet s i.val) with
    | some x => if x.secured then f x s else vendorRsp session code stPerm (refused s)
    | none => vendorRsp session code stPerm (refused s)

def execCtxSelect (session : SessionId) (context : W16) (s : State) : Host.Outcome State Fault Refusal :=
  .next <|
    vendor session 1 id (fun x s =>
      if 4095 < context.toNat then vendorRsp session 1 stFormat s
      else vendorRsp session 1 stOk (sessPut { x with selected := some context.toNat } s)) s

/-- The number may be created here: free and in the member's own range, or a shadow with no owner (R338); none in PAIRING
(R181). -/
def creatable (s : State) (n : Nat) : Bool :=
  let c := ctxGet s n
  if s.pair.st = .pairing then false
  else if c.st = .free then ownContext n s else c.owner = 0

/-- CTX_CREATE takes effect, and SB_LOCK sets (R393); a new context of a mirrored pair is answered once the partner has its
entry. -/
def createCtx (session : SessionId) (x : Session) (n : Nat) (allowHost : Bool) (cred : W64) (s : State) : State :=
  let c := ctxGet s n
  let shadow := c.st ≠ .free
  let (key, s1) := drawKey s
  let c1 := { c with st := .created, owner := x.requester, cred := cred, hostmemOn := c.hostmem && allowHost, epoch := 0
                     rotOpen := false, modelKey := 0, keyId := 0, spillCtr := 0 }
  let slots := tset (fun _ => {}) s1.sec.slots (2 * n) { key := key, st := .live }
  let s2 := traceCtx 7 n 1 0 <| ctxSet n c1 { s1 with sec := { s1.sec with slots := slots }, sb := { s1.sb with lock := true } }
  let tag := s2.viaduct.nextTag
  if shadow then vendorRsp session 2 stOk s2
  else
    let s3 := putContext n s2
    if waits s2 then { s3 with sec := { s3.sec with createWait := s3.sec.createWait ++ [(tag, session)] } }
    else vendorRsp session 2 stOk s3

def execCtxCreate (session : SessionId) (context : W16) (allowHost : Bool) (rsv : BitVec 47) (cred : W64) (s : State) :
    Host.Outcome State Fault Refusal :=
  .next <|
    vendor session 2 id (fun x s =>
      let n := context.toNat
      let no := fun st s => vendorRsp session 2 st s
      if cred = 0 || rsv ≠ 0 || 4095 < n then no stFormat s
      else if !x.mutualAuth then no stPerm s
      else if !(ctxGet s n).admitted then no stPerm s
      else if !creatable s n then no stState s
      else
        match tryLock s with
        | none => no stState (lockRefused s)
        | some s1 => createCtx session x n allowHost cred s1) s

/-- A LOAD_MODEL of the context is open. -/
def loading (s : State) (n : Nat) : Bool :=
  (opIds s).any (fun j => (opGet s j).isOpen && (opGet s j).opcode = 0x10 && (opGet s j).target.toNat = n)

/-- The name of a released model key (notes/assumptions/6.md). -/
def modelKeyName (k : BitVec 256) : Nat := k.toNat + 1

/-- A KEY_RELEASE is refused: its CONTEXT record (Table 17-2). -/
def keyRefused (n : Nat) (s : State) : State := traceCtx 7 (n % 4096) 7 0 s

def execKeyRelease (session : SessionId) (context rsv : W16) (keyId : W32) (modelKey : BitVec 256) (s : State) :
    Host.Outcome State Fault Refusal :=
  .next <|
    vendor session 3 (keyRefused context.toNat) (fun x s =>
      let n := context.toNat
      let c := ctxGet s n
      let no := fun st s => vendorRsp session 3 st (keyRefused n s)
      if 4095 < n || rsv ≠ 0 || keyId = 0 then no stFormat s
      else if c.st = .free || c.owner = 0 || x.requester ≠ c.owner then no stPerm s
      else if s.sec.lifecycle ≠ .deployed || !attested s x n then no stKey s
      else if (modelOf s n).isSome || loading s n then no stState s
      else
        let s1 := traceCtx 7 n 2 0 (ctxSet n { c with modelKey := modelKeyName modelKey, keyId := keyId, st := .keyed } s)
        vendorRsp session 3 stOk (if ownContext n s1 then putContext n s1 else s1)) s

/-- The key store is zeroed (R340). -/
def zeroKeys (s : State) : State :=
  let bare := fun (e : Nat × Context) =>
    (e.1, ({ admitted := e.2.admitted, hostmem := e.2.hostmem, spillVa := e.2.spillVa, spillSlots := e.2.spillSlots,
             spillSlotKib := e.2.spillSlotKib, stamp := e.2.stamp + 1 } : Context))
  { s with sec := { s.sec with slots := [], contexts := s.sec.contexts.map bare, hostKey := 0, serviceKey := 0, scrubKey := 0 } }

/-- RETIRE: the key store zeroed, RETIRED fused, chip reset. -/
def execRetire (session : SessionId) (serial : W64) (sigOk : Bool) (s : State) : Host.Outcome State Fault Refusal :=
  .next <|
    vendor session 4 id (fun _ s =>
      if s.sec.contexts.any (fun c => c.2.st ≠ .free) then vendorRsp session 4 stState s
      else if !sigOk || serial ≠ Config.serial then vendorRsp session 4 stPerm s
      else
        let s1 := zeroKeys (vendorRsp session 4 stOk s)
        chipReset 6 (restamp 2 { s1 with sec := { s1.sec with lifecycle := .retired } })) s

/-- A write of CTX_ADMIT n (R336): ignored and counted while CTX_STATE is not free. -/
def ctxAdmit (n : Nat) (v : W64) (s : State) : State :=
  let c := ctxGet s n
  if c.st ≠ .free then countIgnored (0x98000 + 8 * n) s
  else ctxSet n { c with admitted := v.getLsbD 63, hostmem := v.getLsbD 62 } s

def execCtxAdmitWrite (ctx : Ctx) (value : W64) (s : State) : Host.Outcome State Fault Refusal :=
  .next (if writable s then ctxAdmit ctx.val value s else s)

end Sys2Proof.Machine
end

