-- ==== Sys2Proof/Machine/Registers.lean ====
section
/-!
DEFINITION. Machine/Registers.lean: the registers of BAR0, of BAR2's dictionary ports and of configuration space: what they
read as, and what a write of them does under its access codes (R12, R16, R20, R210).
-/
namespace Sys2Proof.Machine

/-! ### Values of the registers (each named as in its chapter's table) -/

/-- TRIM_EN and TARGET_PS (Table 1-3). -/
def paceTargetReg (s : State) : Nat := b2n s.pace.trimEn * 2 ^ 31 + s.pace.targetPs.toNat

/-- PACE_STATUS (Table 1-4). -/
def paceStatusReg (s : State) : Nat :=
  let p := s.pace
  b2n (p.vcoreMv = 800 && p.targetPs.toNat + 4 < p.stagePs.toNat) * 2 ^ 31 +
    b2n (p.vcoreMv = 700 && p.stagePs.toNat + 4 < p.targetPs.toNat) * 2 ^ 30 +
    b2n p.request.isSome * 2 ^ 29 + b2n p.pmRefused * 2 ^ 28 + p.vcoreMv.toNat

/-- RST_STATUS (Table 14-7). -/
def rstStatusReg (s : State) : Nat :=
  let r := s.power.retained
  r.prevFirstFt.toNat * 2 ^ 52 + r.chipResets.toNat * 2 ^ 32 + r.prevPairState.toNat * 16 + r.cause.toNat

/-- START_STATUS (Table 14-7). -/
def startStatusReg (s : State) : Nat :=
  let p := s.power
  b2n p.done * 2 ^ 31 + b2n (p.phase = .failed) * 2 ^ 30 + p.failStep.toNat * 2 ^ 16 + p.step % 8 * 2 ^ 8 +
    2 * b2n p.journalDiscarded + b2n p.recovered

/-- RAIL_STATUS (Table 14-7). -/
def railStatusReg (s : State) : Nat :=
  let p := s.power
  p.vcoreMeasMv.toNat * 2 ^ 32 + p.alertCode.toNat * 2 ^ 16 + p.alert.toNat * 2 ^ 8 + p.railOk.toNat

/-- REGION_BASE n (Table 4-3). -/
def regionBaseReg (s : State) (n : Nat) : Nat :=
  let r := regionGet s.store.regions n
  b2n r.valid * 2 ^ 63 + r.owner.toNat * 2 ^ 61 + b2n r.pierLocal * 2 ^ 60 + r.granule.toNat * 2 ^ 58 + b2n r.mirror * 2 ^ 57 +
    r.use.toNat * 2 ^ 54 + r.dpaBase.toNat * 2 ^ 21

/-- REGION_SHAPE n (Table 4-4). -/
def regionShapeReg (s : State) (n : Nat) : Nat :=
  let r := regionGet s.store.regions n
  r.localBase.toNat * 2 ^ 50 + r.size.toNat * 2 ^ 32 + r.pierFirst.toNat * 2 ^ 16 + r.pierCount.toNat

/-- REGION_CTL (Table 4-5). -/
def regionCtlReg (s : State) : Nat :=
  b2n s.store.lock * 2 ^ 31 + b2n (!s.store.rebuilds.isEmpty) * 2 ^ 30 + s.store.errCode.toNat * 2 ^ 8 + s.store.errEntry.toNat

/-- VIADUCT_STATUS (Table 6-4). -/
def viaductStatusReg (s : State) : Nat :=
  let v := s.viaduct
  v.flightPs.toNat * 2 ^ 48 + v.retrains.toNat * 2 ^ 32 + v.step.toNat * 2 ^ 5 + b2n v.reversed * 16 + b2n v.up

/-- PAIR_STATUS (Table 6-13). -/
def pairStatusReg (s : State) : Nat :=
  let p := s.pair
  p.epoch.toNat * 2 ^ 32 + p.missed.toNat * 2 ^ 16 + b2n p.conflict * 2 ^ 11 + b2n p.present * 2 ^ 10 + b2n s.viaduct.up * 2 ^ 9 +
    b2n p.roleB * 2 ^ 8 + p.st.code

/-- PAIR_CTL (Table 6-14). -/
def pairCtlReg (s : State) : Nat := b2n s.pair.rejoinEn

/-- Words 0 and 1 of WIN_IN n (Table 6-18). -/
def winInWord (s : State) (n word : Nat) : Nat :=
  let x : Window := tget (fun _ => {}) s.pair.winIn n
  if word = 0 then
    b2n x.enable * 2 ^ 63 + b2n x.read * 2 ^ 62 + b2n x.write * 2 ^ 61 + x.ctx.toNat * 2 ^ 48 + x.base.toNat * 2 ^ 21
  else x.size.toNat

/-- Words 0 and 1 of WIN_OUT n (Table 6-19). -/
def winOutWord (s : State) (n word : Nat) : Nat :=
  let x : Window := tget (fun _ => {}) s.pair.winOut n
  if word = 0 then b2n x.enable * 2 ^ 63 + x.ctx.toNat * 2 ^ 48 + x.base.toNat * 2 ^ 21 else x.size.toNat

/-- PB_CTL and PB_STS (Table 6-20). -/
def pbCtlReg (s : State) : Nat :=
  let p := s.pair
  b2n p.pwrOff * 2 ^ 10 + p.pwrInd.toNat * 2 ^ 8 + p.atnInd.toNat * 2 ^ 6 + b2n p.hpIntEn * 2 ^ 5 + b2n p.presEn * 2 ^ 3 + b2n p.atnEn
def pbStsReg (s : State) : Nat :=
  let p := s.pair
  b2n p.pairChg * 2 ^ 9 + b2n p.linkChg * 2 ^ 8 + b2n p.present * 2 ^ 6 + b2n p.presChg * 2 ^ 3 + b2n p.atnPressed

/-- HP_STATUS (Table 7-7). -/
def hpStatusReg (s : State) : Nat :=
  let h := s.host
  h.tagsQuar.length * 2 ^ 48 + h.reads.length * 2 ^ 32 + b2n h.flr.isSome * 2 ^ 15 + b2n h.cxlReset.isSome * 2 ^ 14 +
    b2n h.mse * 2 ^ 13 + b2n h.bme * 2 ^ 12 + h.width.toNat * 2 ^ 8 + h.speed.toNat * 2 ^ 4 + b2n h.phyUp

/-- Words of QP_TABLE entry n (Table 7-8). -/
def qpWord (q : QpEntry) (word : Nat) : Nat :=
  match word with
  | 0 => q.sqSize.toNat * 2 ^ 32 + q.sqPage.toNat
  | 1 => q.cqAddr.toNat * 2 ^ 12
  | 2 => b2n q.vis * 2 ^ 63 + b2n q.ien * 2 ^ 62 + q.vector.toNat * 2 ^ 51 + q.coalTicks.toNat * 2 ^ 32 + q.coalCount.toNat * 2 ^ 24 +
      q.cqSize.toNat * 2 ^ 20
  | _ => b2n q.arm * 2 ^ 63 + b2n q.armed * 2 ^ 62 + b2n q.priv * 2 ^ 61 + b2n q.twin * 2 ^ 60 + q.ctx.toNat * 2 ^ 48 +
      q.twinCq.toNat * 2 ^ 32 + q.armErr.toNat * 2 ^ 8

/-- GP_CTL, GP_STATUS and GP_HWIN of port n (Table 10-10). -/
def gpCtlReg (s : State) (n : Nat) : Nat :=
  let p := portGet s n
  4 * b2n p.hostHdm + 2 * b2n p.enc + b2n p.auto
def gpStatusReg (s : State) (n : Nat) : Nat :=
  let p := portGet s n
  (p.items.filter (·.sent)).length * 2 ^ 48 + p.txns.length * 2 ^ 32 + p.replays.toNat * 2 ^ 16 + b2n p.sweepBusy * 2 ^ 7 + b2n p.encOn * 2 ^ 6 +
    b2n p.pwrgd * 2 ^ 5 + b2n p.present * 2 ^ 4 + p.st.code
def hwinWord (s : State) (n k word : Nat) : Nat :=
  let x : HostWin := (portGet s n).hwin.getD k {}
  if word = 0 then b2n x.en * 2 ^ 63 + x.base.toNat * 2 ^ 12 else x.last.toNat * 2 ^ 12

/-- DECK_STATUS (Table 11-8): ROOT_SLOTS counts the operations in progress over all leaves. -/
def deckStatusReg (s : State) : Nat :=
  min 16 (s.deck.ops.filter (fun o => (spScope o.first o.last).1 = 5)).length * 2 ^ 8 + 2 * b2n s.deck.reconfBusy + b2n s.deck.routeVer

/-- PD d (Table 11-9). -/
def pdReg (s : State) (d : Nat) : Nat :=
  let x := pdGet s d
  b2n x.req * 2 ^ 31 + x.errCode.toNat * 2 ^ 8 + x.st.code

/-- COH_CTL (Table 8-6). -/
def cohCtlReg (s : State) : Nat :=
  let c := s.coh
  b2n (!c.qmoves.isEmpty) * 2 ^ 7 + c.qFenced.toNat * 2 ^ 3 + b2n c.moesi * 4 + b2n c.forcedHw * 2 + b2n c.forcedSw

def wayMaskReg (s : State) (c : Nat) : Nat := (tget (fun _ => (0 : BitVec 24)) s.coh.wayMask c).toNat

/-- XL_STATUS (Table 9-11). -/
def xlStatusReg (s : State) : Nat :=
  let x := s.xl
  (x.prgs.length + x.prgQuar.length) * 2 ^ 48 + walksBusy s * 2 ^ 40 +
    x.invs.length * 2 ^ 32 + b2n x.priStopped * 4 + xlMode s

def hotCtlReg (s : State) : Nat :=
  b2n s.xl.hotEn * 2 ^ 31 + b2n s.xl.hotIen * 2 ^ 30 + s.xl.hotVector.toNat * 2 ^ 19 + s.xl.hotSize.toNat

/-- CTX_ROOT n (Table 9-13). -/
def ctxRootReg (s : State) (n : Nat) : Nat :=
  let r : BitVec 52 × Bool := tget (fun _ => (0, false)) s.xl.roots n
  r.1.toNat * 2 ^ 12 + b2n r.2

/-- Code of a lifecycle state (Table 13-1). -/
def Lifecycle.code : Lifecycle → Nat
  | .blank => 0 | .provisioned => 1 | .deployed => 2 | .retired => 3

/-- SEC_STATUS (Table 13-7). -/
def secStatusReg (s : State) : Nat :=
  let x := s.sec
  x.minSvn.toNat * 2 ^ 48 + x.fwSvn.toNat * 2 ^ 40 + (x.sessions.filter (·.secured)).length * 2 ^ 32 +
    (x.contexts.filter (fun c => c.2.st ≠ .free)).length * 2 ^ 16 + x.lifecycle.code

/-- CTX_ADMIT n (Table 13-7). -/
def ctxAdmitReg (s : State) (n : Nat) : Nat :=
  let c := ctxGet s n
  b2n c.admitted * 2 ^ 63 + b2n c.hostmem * 2 ^ 62 + c.st.code * 2 ^ 56 + c.epoch.toNat * 2 ^ 54 + b2n c.rotOpen * 2 ^ 53 +
    b2n c.burnishOpen * 2 ^ 52 + c.oldPages.toNat

/-- FS_STS and FS_CFG of source n (Table 12-3). -/
def fsStsReg (s : State) (n : Nat) : Nat :=
  let x := srcGet s n
  x.detail.toNat * 2 ^ 32 + x.count.toNat * 2 ^ 16 + b2n x.wire * 2 ^ 7 + b2n (live s n) * 2 ^ 6 + 4 * b2n x.ft + 2 * b2n x.uc + b2n x.ce
def fsCfgReg (s : State) (n : Nat) : Nat :=
  let x := srcGet s n
  let i := srcInfo n
  b2n i.level * 2 ^ 63 + b2n (i.can .ft) * 2 ^ 62 + b2n (i.can .uc) * 2 ^ 61 + b2n (i.can .ce) * 2 ^ 60 + x.vector.toNat * 2 ^ 18 +
    x.reactFt.toNat * 2 ^ 12 + x.reactUc.toNat * 2 ^ 6 + x.reactCe.toNat

/-- TRACE_CTL (Table 17-4). -/
def traceCtlReg (s : State) : Nat :=
  let o := s.obs
  b2n o.snapBusy * 2 ^ 30 + o.snapSeq.toNat * 2 ^ 8 + 2 * b2n o.bufEn + b2n o.portEn

/-! ### A write as it falls on an aligned quadword -/

/-- The bits written, and their values. -/
structure RegW where
  mask : W64
  v : W64

/-- A whole 64-bit word. -/
def RegW.all (v : Nat) : RegW := ⟨BitVec.allOnes 64, BitVec.ofNat 64 v⟩
/-- The register's value with the written bytes in place. -/
def RegW.merge (w : RegW) (cur : Nat) : W64 := (BitVec.ofNat 64 cur &&& ~~~w.mask) ||| (w.v &&& w.mask)
/-- Ones written: what WO, W1C and W1S bits see. -/
def RegW.ones (w : RegW) : W64 := w.v &&& w.mask
/-- Any bit of a field is written. -/
def RegW.hits (w : RegW) (lo len : Nat) : Bool := fld w.mask lo len ≠ 0
def RegW.any (w : RegW) : Bool := w.mask ≠ 0
/-- The 32-bit register at the lower, and at the higher, half. -/
def RegW.lo (w : RegW) : RegW := ⟨w.mask &&& 0xFFFFFFFF, w.v &&& 0xFFFFFFFF⟩
def RegW.hi (w : RegW) : RegW := ⟨w.mask >>> 32, w.v >>> 32⟩

/-- The state a command's meaning leads to. -/
def nextOf (o : Host.Outcome State Fault Refusal) (s : State) : State :=
  match o with
  | .next t => t
  | _ => s

def clamp (lo hi v : Nat) : Nat := max lo (min hi v)

/-! ### Writes of single registers -/

/-- REGION_BASE n: VALID runs the checks; a valid entry takes only a write that clears VALID alone (R121). -/
def regionBaseWrite (n : Nat) (w : RegW) (s : State) : State :=
  let cur := regionBaseReg s n
  let m := w.merge cur
  let r := regionGet s.store.regions n
  if m.getLsbD 63 then regionSet n m s
  else if s.store.lock then countIgnored (0x30000 + 16 * n) s
  else if !r.valid then restamp 10 (regionPut n { withBase r m with valid := false } s)
  else if withBase r m = r then regionClear n s
  else countIgnored (0x30000 + 16 * n) s

/-- REGION_SHAPE n. -/
def regionShapeWrite (n : Nat) (w : RegW) (s : State) : State :=
  let r := regionGet s.store.regions n
  if s.store.lock || r.valid then countIgnored (0x30008 + 16 * n) s
  else restamp 10 (regionPut n (withShape r (w.merge (regionShapeReg s n))) s)

/-- PAIR_CTL. -/
def pairCtlWrite (w : RegW) (s : State) : State :=
  let s1 := { s with pair := { s.pair with rejoinEn := (w.merge (pairCtlReg s)).getLsbD 0 } }
  let s2 := if w.ones.getLsbD 31 then pairRelease s1 else s1
  if w.ones.getLsbD 30 then pairDiscard s2 else s2

/-- Word `word` of WIN_IN n and of WIN_OUT n. -/
def winInWrite (n word : Nat) (w : RegW) (s : State) : State :=
  let x : Window := tget (fun _ => {}) s.pair.winIn n
  let m := w.merge (winInWord s n word)
  let y := if word = 0 then
      { x with enable := m.getLsbD 63, read := m.getLsbD 62, write := m.getLsbD 61, ctx := BitVec.ofNat 12 (fld m 48 12)
               base := BitVec.ofNat 17 (fld m 21 17) }
    else { x with size := BitVec.ofNat 18 (fld m 0 18) }
  { s with pair := { s.pair with winIn := tset (fun _ => {}) s.pair.winIn n y } }
def winOutWrite (n word : Nat) (w : RegW) (s : State) : State :=
  let x : Window := tget (fun _ => {}) s.pair.winOut n
  let m := w.merge (winOutWord s n word)
  let y := if word = 0 then
      { x with enable := m.getLsbD 63, ctx := BitVec.ofNat 12 (fld m 48 12), base := BitVec.ofNat 17 (fld m 21 17) }
    else { x with size := BitVec.ofNat 18 (fld m 0 18) }
  { s with pair := { s.pair with winOut := tset (fun _ => {}) s.pair.winOut n y } }

/-- PB_STS: change bits clear where a 1 is written. -/
def pbStsWrite (ones : W16) (s : State) : State :=
  let p := s.pair
  { s with pair := { p with pairChg := p.pairChg && !ones.getLsbD 9, linkChg := p.linkChg && !ones.getLsbD 8
                            presChg := p.presChg && !ones.getLsbD 3, atnPressed := p.atnPressed && !ones.getLsbD 0 } }

/-- CTX_BIND: GO or UNBIND acts; else CONTEXT and PASID are stored (R206). -/
def ctxBindWrite (w : RegW) (s : State) : State :=
  let cur := s.host.ctxBindCtx.toNat * 2 ^ 48 + s.host.ctxBindPasid.toNat
  let m := w.merge cur
  if w.ones.getLsbD 63 || w.ones.getLsbD 62 then
    bindWrite ((m &&& 0x3FFFFFFFFFFFFFFF) ||| (w.ones &&& 0xC000000000000000)) (!w.ones.getLsbD 63) s
  else if s.host.bindReq.isSome then countIgnored 0x40010 s
  else bindFields m s

/-- GP_CTL of port n: the RW bits first, then START, STOP, FENCE. -/
def gpCtlWrite (n : Nat) (w : RegW) (s : State) : State :=
  let m := w.merge (gpCtlReg s n)
  let s1 := restamp 10 (portSet n { portGet s n with hostHdm := m.getLsbD 2, enc := m.getLsbD 1, auto := m.getLsbD 0 } s)
  let s2 := if w.ones.getLsbD 31 then gpStart n s1 else s1
  let s3 := if w.ones.getLsbD 30 then gpStop n s2 else s2
  if w.ones.getLsbD 29 then fencePort n s3 else s3

/-- Word `word` of GP_HWIN k of port n. -/
def hwinWrite (n k word : Nat) (w : RegW) (s : State) : State :=
  let p := portGet s n
  let m := w.merge (hwinWord s n k word)
  let x : HostWin := p.hwin.getD k {}
  let y : HostWin := if word = 0 then { x with en := m.getLsbD 63, base := BitVec.ofNat 40 (fld m 12 40) }
    else { x with last := BitVec.ofNat 40 (fld m 12 40) }
  portSet n { p with hwin := p.hwin.set k y } s

/-- COH_CTL: only FORCED_SW. -/
def cohCtlWrite (w : RegW) (s : State) : State :=
  if w.hits 0 1 then setForcedSw (w.ones.getLsbD 0) s else s

/-- HOME_TIMEOUT, MERGE_TICKS, DECK_CTL, DECK_MARGIN: the nearer limit outside their ranges (R261, Table 11-8). -/
def homeTimeoutSet (v : Nat) (s : State) : State :=
  { s with coh := { s.coh with homeTimeout := BitVec.ofNat 17 (clamp 100 100000 v) } }
def mergeTicksSet (v : Nat) (s : State) : State := { s with coh := { s.coh with mergeTicks := BitVec.ofNat 8 (clamp 1 255 v) } }
def guarPeriodSet (v : Nat) (s : State) : State := { s with deck := { s.deck with guarPeriod := BitVec.ofNat 6 (clamp 2 32 v) } }
def deckMarginSet (v : Nat) (s : State) : State :=
  { s with deck := { s.deck with margin := BitVec.ofNat 20 (clamp 1000 1000000 v) } }

def wayMaskSet (c v : Nat) (s : State) : State :=
  { s with coh := { s.coh with wayMask := tset (fun _ => 0) s.coh.wayMask c (BitVec.ofNat 24 v) } }

/-- DC_LFSR: a write of 0 stores ACE1h. -/
def lfsrSet (slice v : Nat) (s : State) : State :=
  let x : W16 := if v % 65536 = 0 then 0xACE1 else BitVec.ofNat 16 v
  { s with coh := { s.coh with lfsr := tset (fun _ => 0xACE1) s.coh.lfsr slice x } }

/-- HOT_BASE holds while EN is 1. -/
def hotBaseWrite (w : RegW) (s : State) : State :=
  if s.xl.hotEn then countIgnored 0x80100 s
  else { s with xl := { s.xl with hotBase := BitVec.ofNat 52 (fld (w.merge (s.xl.hotBase.toNat * 4096)) 12 52) } }

/-- FS_STS: W1C of status bits that LIVE does not hold (R325). -/
def fsStsWrite (n : Nat) (w : RegW) (s : State) : State :=
  let ones := BitVec.ofNat 8 (fld w.ones 0 8) &&& 0x87
  if ones = 0 then s else if live s n then count 2688 s else clearSource n ones s

/-- TRACE_CTL. -/
def traceCtlWrite (w : RegW) (s : State) : State :=
  let m := w.merge (traceCtlReg s)
  let s1 := if m.getLsbD 1 then enableRing s else { s with obs := { s.obs with bufEn := false } }
  let s2 := traceTrim { s1 with obs := { s1.obs with portEn := m.getLsbD 0 } }
  if w.ones.getLsbD 31 then snapGo s2 else s2

/-- TRACE_BUF_BASE and TRACE_BUF_SIZE hold while BUF_EN is 1. -/
def bufBaseSet (v : Nat) (s : State) : State :=
  if s.obs.bufEn then countIgnored 0xC0008 s else { s with obs := { s.obs with bufBase := BitVec.ofNat 52 (v / 4096) } }
def bufSizeSet (v : Nat) (s : State) : State :=
  if s.obs.bufEn then countIgnored 0xC0010 s else { s with obs := { s.obs with bufSize := BitVec.ofNat 4 v } }

/-- Quadword `k` of TRACE_EVENT_EN. -/
def eventEnWrite (k : Nat) (w : RegW) (s : State) : State :=
  let e := s.obs.eventEn
  let clear : BitVec 256 := (w.mask.setWidth 256) <<< (64 * k)
  { s with obs := { s.obs with eventEn := (e &&& ~~~clear) ||| ((w.ones.setWidth 256) <<< (64 * k)) } }

/-- Word `word` of QP_TABLE entry n: fixed while ARMED, but for ARM (R207); ignored and counted while FLR_BUSY (R228). -/
def qpWrite (n word : Nat) (w : RegW) (s : State) : State :=
  let q := qpGet s n
  let off := 0x100000 + 32 * n + 8 * word
  let m := w.merge (qpWord q word)
  if s.host.flr.isSome then countIgnored off s
  else if word = 3 && w.hits 63 1 then
    if m.getLsbD 63 then armQp n m s
    else if q.armed then
      let s1 := nextOf (execQpDisarm (Fin.ofNat 32768 n) s) s
      if withWord3 q m = { q with arm := false } then s1 else countIgnored off s1
    else qpSet n { withWord3 q m with arm := false } s
  else if q.armed then countIgnored off s
  else
    match word with
    | 0 => qpSet n { q with sqSize := BitVec.ofNat 4 (fld m 32 4), sqPage := BitVec.ofNat 19 (fld m 0 19) } s
    | 1 => qpSet n { q with cqAddr := BitVec.ofNat 52 (fld m 12 52) } s
    | 2 =>
      qpSet n { q with vis := m.getLsbD 63, ien := m.getLsbD 62, vector := BitVec.ofNat 11 (fld m 51 11)
                       coalTicks := BitVec.ofNat 16 (fld m 32 16), coalCount := BitVec.ofNat 8 (fld m 24 8)
                       cqSize := BitVec.ofNat 4 (fld m 20 4) } s
    | _ => qpSet n { withWord3 q m with arm := q.arm } s

/-- Quadword of the MSI-X table: address, then data and vector control (PCIe). -/
def msixWrite (v word : Nat) (w : RegW) (s : State) : State :=
  let e := msixGet s v
  if s.host.flr.isSome then countIgnored 0x10000 s
  else if word = 0 then msixSet v { e with addr := w.merge e.addr.toNat } s
  else
    let m := w.merge (b2n e.masked * 2 ^ 32 + e.data.toNat)
    sendPending v (msixSet v { e with data := m.truncate 32, masked := m.getLsbD 32 } s)

/-! ### HDM decoders (CXL; their place in the component registers, notes/assumptions/34.md) -/

/-- Quadword `k` of decoder n: base, size, control and skip low, skip high. A committed decoder holds its fields; writing
COMMIT 0 uncommits one that is not locked. -/
def hdmWrite (n : Fin 4) (k : Nat) (w : RegW) (s : State) : State :=
  let d := hdmGet s n.val
  let kept := 0xFFFFFFFFF0000000
  match k with
  | 0 => if d.committed then s else hdmSet n.val { d with base := w.merge d.base.toNat &&& kept } s
  | 1 => if d.committed then s else hdmSet n.val { d with size := w.merge d.size.toNat &&& kept } s
  | 2 =>
    let cur := (d.skip.toNat % 2 ^ 32) * 2 ^ 32 + b2n d.commit * 512 + b2n d.lockOnCommit * 256 + d.iw.toNat * 16 + d.ig.toNat
    let m := w.merge cur
    if d.committed then
      if m.getLsbD 9 then s
      else if d.lockOnCommit then countIgnored 0x1000 s
      else hdmSet n.val { d with commit := false, committed := false } s
    else
      let skip := (d.skip &&& 0xFFFFFFFF00000000) ||| (m >>> 32 &&& 0xF0000000)
      let d1 := { d with ig := BitVec.ofNat 4 (fld m 0 4), iw := BitVec.ofNat 4 (fld m 4 4), lockOnCommit := m.getLsbD 8, skip := skip }
      if m.getLsbD 9 && !d.commit then nextOf (execHdmCommit n (hdmSet n.val d1 s)) s
      else hdmSet n.val { d1 with commit := m.getLsbD 9, errNotCommitted := d.errNotCommitted && m.getLsbD 9 } s
  | _ =>
    if d.committed then s
    else
      let hi := fld (w.merge (d.skip.toNat / 2 ^ 32)) 0 32
      hdmSet n.val { d with skip := BitVec.ofNat 64 (d.skip.toNat % 2 ^ 32 + hi * 2 ^ 32) } s

/-! ### Dictionary ports (R379, R380, Table 15-4) -/

def dwGet (s : State) (k : Nat) : DwPort := tget (fun _ => {}) s.milell.ports k
def dwSet (k : Nat) (x : DwPort) (s : State) : State :=
  { s with milell := { s.milell with ports := tset (fun _ => {}) s.milell.ports k x } }

/-- A write to a port at offset `off`: DW_REQ and DATA hold while BUSY is 1; `ignored` counts a write that is not taken. -/
def dwWrite (k off : Nat) (w : RegW) (ignored : State → State) (s : State) : State :=
  let x := dwGet s k
  if off = 0 then
    if x.busy then ignored s
    else
      let cur := x.op.toNat * 2 ^ 61 + x.sub.toNat * 2 ^ 32 + x.index.toNat * 2 ^ 16 + x.length.toNat
      let m := w.merge cur
      let go := w.ones.getLsbD 63
      let s1 := dwSet k { x with op := BitVec.ofNat 2 (fld m 61 2), sub := BitVec.ofNat 8 (fld m 32 8)
                                 index := BitVec.ofNat 16 (fld m 16 16), length := BitVec.ofNat 8 (fld m 0 8), busy := go } s
      if go then ringDoorbell 1 (if k < 16 then 1 + k else 17) s1 else s1
  else if 0x20 ≤ off then
    if x.busy then ignored s
    else
      let put := fun (d : List Byte) (i : Nat) =>
        if w.mask.getLsbD (8 * i) then d.set (off - 0x20 + i) (BitVec.ofNat 8 (fld w.v (8 * i) 8)) else d
      dwSet k { x with data := (List.range 8).foldl put x.data } s
  else s

/-! ### Saddlebag registers as the host writes them (R391, R395 to R398) -/

/-- A 32-bit register of channel c at offset `off`. -/
def sbChannelWrite (c off : Nat) (w : RegW) (s : State) : State :=
  let x := chanGet s c
  let sender := x.bound && sbActs .host x.sender
  let receiver := x.bound && sbActs .host x.receiver
  let ignored := count (2700 + c)
  if !w.any then s
  else if off < 0x40 then
    let i := off / 4
    if (sender && !x.busy) || (receiver && x.busy) then
      chanSet c { x with msg := x.msg.set i ((w.merge (x.msg.getD i 0).toNat).truncate 32) } s
    else ignored s
  else if off = 0x40 then
    let len : BitVec 5 := BitVec.ofNat 5 (fld (w.merge x.len.toNat) 0 5)
    if w.ones.getLsbD 31 then sbGo c .host len s
    else if sender && !x.busy then chanSet c { x with len := len } s
    else ignored s
  else if off = 0x48 then
    let m := w.merge (x.detail.toNat * 256 + x.status.toNat)
    sbAck c .host (BitVec.ofNat 8 (fld m 0 8)) (BitVec.ofNat 8 (fld m 8 8)) s
  else if !x.bound then ignored s
  else s

/-- SB_BIND c (R395): the two codes, each written byte of the register. -/
def sbBindWrite (c : Nat) (w : RegW) (s : State) : State :=
  let s1 := if w.hits 8 8 then sbBind c false (BitVec.ofNat 8 (fld w.v 8 8)) s else s
  if w.hits 0 8 then sbBind c true (BitVec.ofNat 8 (fld w.v 0 8)) s1 else s1

/-! ### BAR0 by block (Table 7-5); `q` is the offset of the quadword -/

def bar0Component (q : Nat) (w : RegW) (s : State) : State :=
  if 0x1210 ≤ q && q < 0x1290 then hdmWrite (Fin.ofNat 4 ((q - 0x1210) / 32)) ((q - 0x1210) % 32 / 8) w s else s

def bar0Region (q : Nat) (w : RegW) (s : State) : State :=
  if q < 0x30400 then
    let n := (q - 0x30000) / 16
    if q % 16 = 0 then regionBaseWrite n w s else regionShapeWrite n w s
  else if q = 0x30400 then (if w.ones.getLsbD 31 then setLock s else s)
  else if q = 0x38008 then (if w.lo.any then pairCtlWrite w.lo s else s)
  else if 0x38800 ≤ q && q < 0x38C00 then winInWrite ((q - 0x38800) / 16) (q % 16 / 8) w s
  else if 0x38C00 ≤ q && q < 0x39000 then winOutWrite ((q - 0x38C00) / 16) (q % 16 / 8) w s
  else s

def bar0Host (q : Nat) (w : RegW) (s : State) : State :=
  if q = 0x40010 then ctxBindWrite w s
  else if q = 0x40018 then { s with host := { s.host with bindCred := w.merge s.host.bindCred.toNat } }
  else if 0x40100 ≤ q && q < 0x40200 then
    if s.host.flr.isSome then countIgnored 0x40100 s
    else intxClear ((w.ones.setWidth 2048) <<< (8 * (q - 0x40100))) s
  else s

def bar0Girth (q : Nat) (w : RegW) (s : State) : State :=
  let n := (q - 0x50000) / 0x1000
  let o := q % 0x1000
  if 6 ≤ n then s
  else if o = 0 then (if w.lo.any then gpCtlWrite n w.lo s else s)
  else if 0x100 ≤ o && o < 0x140 then hwinWrite n ((o - 0x100) / 16) (o % 16 / 8) w s
  else s

def bar0Deck (q : Nat) (w : RegW) (s : State) : State :=
  if q = 0x60000 then
    let s1 := if w.lo.hits 0 6 then guarPeriodSet (fld (w.lo.merge s.deck.guarPeriod.toNat) 0 6) s else s
    if w.hi.hits 0 20 then deckMarginSet (fld (w.hi.merge s.deck.margin.toNat) 0 20) s1 else s1
  else if 0x61000 ≤ q && q < 0x61530 then
    let d := (q - 0x61000) / 4
    let s1 := if w.lo.hits 31 1 then pdWrite d (w.lo.ones.getLsbD 31) s else s
    if w.hi.hits 31 1 then pdWrite (d + 1) (w.hi.ones.getLsbD 31) s1 else s1
  else s

def bar0Cache (q : Nat) (w : RegW) (s : State) : State :=
  let w := if q = 0x70400 then w else w.lo
  if !w.any then s
  else if q = 0x70000 then cohCtlWrite w s
  else if q = 0x70010 then homeTimeoutSet (fld (w.merge s.coh.homeTimeout.toNat) 0 17) s
  else if q = 0x70100 then mergeTicksSet (fld (w.merge s.coh.mergeTicks.toNat) 0 8) s
  else if 0x70200 ≤ q && q < 0x70280 then wayMaskSet ((q - 0x70200) / 8) (fld (w.merge (wayMaskReg s ((q - 0x70200) / 8))) 0 24) s
  else if 0x70300 ≤ q && q < 0x70380 then
    lfsrSet ((q - 0x70300) / 8) (fld (w.merge (lfsrGet s ((q - 0x70300) / 8)).toNat) 0 16) s
  else if q = 0x70400 then dcRangeWrite (w.merge (b2n s.coh.rangeSpace * 2 ^ 62 + s.coh.rangeBase.toNat * 2 ^ 12)) s
  else if q = 0x70408 then
    { s with coh := { s.coh with rangePages := BitVec.ofNat 21 (clamp 1 1048576 (fld (w.merge s.coh.rangePages.toNat) 0 21)) } }
  else s

def bar0Xl (q : Nat) (w : RegW) (s : State) : State :=
  if q = 0x80100 then hotBaseWrite w s
  else if q = 0x80108 then (if w.lo.any then hotCtlWrite ((w.lo.merge (hotCtlReg s)).truncate 32) s else s)
  else if q = 0x80110 then
    if w.hits 16 16 then
      { s with xl := { s.xl with hotHead := BitVec.ofNat 16 (fld (w.merge (s.xl.hotHead.toNat * 65536)) 16 16) } }
    else s
  else if 0x88000 ≤ q && q < 0x90000 then
    let n := (q - 0x88000) / 8
    ctxRootSet n (w.merge (ctxRootReg s n)) s
  else s

def bar0Sb (q : Nat) (w : RegW) (s : State) : State :=
  if q < 0xB4000 then
    let c := (q - 0xB0000) / 0x100
    let o := q % 0x100
    sbChannelWrite c (o + 4) w.hi (sbChannelWrite c o w.lo s)
  else if 0xB8000 ≤ q && q < 0xB8200 then sbBindWrite ((q - 0xB8000) / 8) w.lo s
  else if q = 0xB8200 then (if w.ones.getLsbD 0 then { s with sb := { s.sb with lock := true } } else s)
  else if q = 0xBC000 then { s with sb := { s.sb with hostDb := s.sb.hostDb &&& ~~~(w.lo.ones.truncate 32) } }
  else if q = 0xBC008 then (if w.lo.any then setHostMask ((w.lo.merge s.sb.hostMask.toNat).truncate 32) s else s)
  else if q = 0xBC018 then
    let m := w.lo.merge (b2n s.sb.hostIen * 2 ^ 31 + s.sb.hostVector.toNat)
    { s with sb := { s.sb with hostIen := m.getLsbD 31, hostVector := BitVec.ofNat 11 (fld m 0 11) } }
  else s

def bar0Trace (q : Nat) (w : RegW) (s : State) : State :=
  if q = 0xC0000 then (if w.lo.any then traceCtlWrite w.lo s else s)
  else if q = 0xC0008 then bufBaseSet (w.merge (s.obs.bufBase.toNat * 4096)).toNat s
  else if q = 0xC0010 then (if w.lo.any then bufSizeSet (w.lo.merge s.obs.bufSize.toNat).toNat s else s)
  else if 0xC0020 ≤ q && q < 0xC0040 then eventEnWrite ((q - 0xC0020) / 8) w s
  else s

def bar0Collector (q : Nat) (w : RegW) (s : State) : State :=
  let n := (q - 0x400000) / 32
  if n < 2944 then
    if q % 32 = 0 then fsStsWrite n w s
    else if q % 32 = 16 then fsCfgWrite n (w.merge (fsCfgReg s n)) s
    else s
  else if q = 0x5F0008 then (if w.ones.getLsbD 31 then nextOf (execFcLock s) s else s)
  else s

/-- A write to BAR0. Offsets that no register occupies ignore it (R20); the counters are read-only and count it (R410). -/
def bar0Write (q : Nat) (w : RegW) (s : State) : State :=
  if q < 0x10000 then bar0Component q w s
  else if q < 0x18000 then msixWrite ((q - 0x10000) / 16) (q % 16 / 8) w s
  else if q < 0x20000 then s
  else if q = 0x20008 then
    if w.lo.any then
      let m := w.lo.merge (paceTargetReg s)
      setPaceTarget (m.getLsbD 31) (fld m 0 16) s
    else s
  else if q < 0x30000 then s
  else if q < 0x40000 then bar0Region q w s
  else if q < 0x50000 then bar0Host q w s
  else if q < 0x60000 then bar0Girth q w s
  else if q < 0x70000 then bar0Deck q w s
  else if q < 0x80000 then bar0Cache q w s
  else if q < 0x90000 then bar0Xl q w s
  else if 0x98000 ≤ q && q < 0xA0000 then
    let n := (q - 0x98000) / 8
    ctxAdmit n (w.merge (ctxAdmitReg s n)) s
  else if q < 0xA0000 then s
  else if q < 0xA1000 then dwWrite ((q - 0xA0000) / 0x100) (q % 0x100) w (countIgnored q) s
  else if q < 0xB0000 then s
  else if q < 0xC0000 then bar0Sb q w s
  else if q < 0xD0000 then bar0Trace q w s
  else if 0x100000 ≤ q && q < 0x200000 then qpWrite ((q - 0x100000) / 32) (q % 32 / 8) w s
  else if 0x400000 ≤ q && q < 0x600000 then bar0Collector q w s
  else if 0x600000 ≤ q && q < 0x608000 then countIgnored q s
  else s

/-! ### Configuration space (Tables 7-1, 7-2, 7-4; fields inside the standard capabilities as PCIe places them,
notes/assumptions/35.md) -/

/-- Command: Memory Space Enable 1, Bus Master Enable 2, Parity 6, SERR# 8, Interrupt Disable 10. -/
def commandWrite (v : W16) (s : State) : State :=
  let h := s.host
  let s1 := { s with host := { h with mse := v.getLsbD 1, perr := v.getLsbD 6, serr := v.getLsbD 8, intxDisable := v.getLsbD 10 } }
  if v.getLsbD 2 then nextOf (execBmeSet s1) s1 else nextOf (execBmeClear s1) s1

def commandReg (s : State) : Nat :=
  let h := s.host
  2 * b2n h.mse + 4 * b2n h.bme + 64 * b2n h.perr + 256 * b2n h.serr + 1024 * b2n h.intxDisable

/-- A BAR keeps the bits above its size. -/
def barWrite (w : RegW) (cur : W64) (size : Nat) : W64 :=
  let m := w.merge cur.toNat
  BitVec.ofNat 64 (m.toNat / size * size)

/-- PMCSR: D0 or D3hot. -/
def pmcsrWrite (state : Nat) (s : State) : State :=
  if state = 3 then nextOf (execD3hotEntry s) s
  else if state = 0 && s.host.d3hot then
    let s1 := { s with host := { s.host with d3hot := false } }
    if s1.host.bme then bmeStarts s1 else s1
  else s

/-- Device Control: sizes whose encodings Idern supports, and Initiate Function Level Reset. -/
def devCtlWrite (w : RegW) (s : State) : State :=
  let m := w.merge (s.host.mrrs.toNat * 2 ^ 12 + s.host.mps.toNat * 2 ^ 5)
  let mps : BitVec 3 := if fld m 5 3 ≤ 2 then BitVec.ofNat 3 (fld m 5 3) else s.host.mps
  let mrrs : BitVec 3 := if fld m 12 3 ≤ 5 then BitVec.ofNat 3 (fld m 12 3) else s.host.mrrs
  let s1 := { s with host := { s.host with mps := mps, mrrs := mrrs } }
  if w.ones.getLsbD 15 then nextOf (execFlr s1) s1 else s1

/-- MSI-X message control: enable 15, function mask 14. -/
def msixCtlWrite (v : W16) (s : State) : State :=
  sendAllPending { s with host := { s.host with msixEn := v.getLsbD 15, msixMask := v.getLsbD 14 } }

/-- Fields of configuration space whose write has an effect of its own. -/
def configEffect (q : Nat) (w : RegW) (s : State) : State :=
  let h := s.host
  match q with
  | 0x00 => if w.hits 32 16 then commandWrite (BitVec.ofNat 16 (fld (w.merge (commandReg s * 2 ^ 32)) 32 16)) s else s
  | 0x10 => { s with host := { h with bar0 := barWrite w h.bar0 16777216 } }
  | 0x18 => { s with host := { h with bar2 := barWrite w h.bar2 134217728 } }
  | 0x20 => { s with host := { h with bar4 := barWrite w h.bar4 2147483648 } }
  | 0x30 =>
    let m := w.lo.merge (h.romBar.toNat + b2n h.romEnable)
    { s with host := { h with romBar := BitVec.ofNat 32 (m.toNat / 16777216 * 16777216), romEnable := m.getLsbD 0 } }
  | 0x38 => { s with host := { h with intLine := BitVec.ofNat 8 (fld (w.merge (h.intLine.toNat * 2 ^ 32)) 32 8) } }
  | 0x40 => if w.hits 32 2 then pmcsrWrite (fld w.v 32 2) s else s
  | 0x58 => if w.hits 0 16 then devCtlWrite w s else s
  | 0x78 => { s with host := { h with ctoValue := BitVec.ofNat 4 (fld (w.merge h.ctoValue.toNat) 0 4) } }
  | 0x90 =>
    if w.hits 16 16 then
      msixCtlWrite (BitVec.ofNat 16 (fld (w.merge (b2n h.msixEn * 2 ^ 31 + b2n h.msixMask * 2 ^ 30)) 16 16)) s
    else s
  | 0x100 => { s with host := { h with aerUncorr := h.aerUncorr &&& ~~~(w.hi.ones.truncate 32) } }
  | 0x350 => { s with host := { h with atsEn := (w.merge (b2n h.atsEn * 2 ^ 63)).getLsbD 63 } }
  | 0x358 => { s with host := { h with pasidEn := (w.merge (b2n h.pasidEn * 2 ^ 48)).getLsbD 48 } }
  | 0x360 => if w.hits 32 1 then setPriEnable (w.ones.getLsbD 32) s else s
  | 0x368 => { s with xl := { s.xl with prAlloc := fld (w.merge (s.xl.prAlloc * 2 ^ 32)) 32 32 } }
  | 0x380 => if w.ones.getLsbD 2 then nextOf (execCxlReset s) s else s
  | 0x3F0 => { s with host := { h with hpVector := BitVec.ofNat 11 (fld (w.merge (h.hpVector.toNat * 2 ^ 16)) 16 11) } }
  | 0x3F8 =>
    let s1 := if w.hits 0 16 && !s.faults.safe then pbCtlSet (BitVec.ofNat 16 (fld (w.merge (pbCtlReg s)) 0 16)) s else s
    pbStsWrite (BitVec.ofNat 16 (fld w.ones 16 16)) s1
  | _ => s

/-- A write to configuration space: the bits without a further effect, then the rest. -/
def configWrite (q : Nat) (w : RegW) (s : State) : State :=
  configEffect q w (cfgWrite (q + 4) (w.hi.mask.truncate 32) (w.hi.v.truncate 32)
    (cfgWrite q (w.lo.mask.truncate 32) (w.lo.v.truncate 32) s))

/-- Bits of a doubleword of configuration space that follow registers of the model. -/
def cfgLive (off : Nat) (s : State) : Nat :=
  let h := s.host
  match off with
  | 0x04 => commandReg s + b2n (h.intxStatus ≠ 0 && !h.msixEn) * 2 ^ 19
  | 0x10 => h.bar0.toNat % 2 ^ 32 + 4
  | 0x14 => h.bar0.toNat / 2 ^ 32
  | 0x18 => h.bar2.toNat % 2 ^ 32 + 4
  | 0x1C => h.bar2.toNat / 2 ^ 32
  | 0x20 => h.bar4.toNat % 2 ^ 32 + 12
  | 0x24 => h.bar4.toNat / 2 ^ 32
  | 0x30 => h.romBar.toNat + b2n h.romEnable
  | 0x3C => h.intLine.toNat
  | 0x44 => 3 * b2n h.d3hot
  | 0x58 => h.mrrs.toNat * 2 ^ 12 + h.mps.toNat * 2 ^ 5
  | 0x60 => h.speed.toNat * 2 ^ 16 + 2 ^ h.width.toNat * 2 ^ 20
  | 0x78 => h.ctoValue.toNat
  | 0x90 => b2n h.msixEn * 2 ^ 31 + b2n h.msixMask * 2 ^ 30
  | 0x104 => h.aerUncorr.toNat
  | 0x354 => b2n h.atsEn * 2 ^ 31
  | 0x35C => b2n h.pasidEn * 2 ^ 16
  | 0x364 => b2n h.priEn + b2n s.xl.priStopped * 2 ^ 16 + b2n (!h.priEn && s.xl.prgs.isEmpty) * 2 ^ 24
  | 0x36C => s.xl.prAlloc
  | 0x38C => b2n h.memInfo + 2 * b2n h.memActive
  | 0x3F0 => h.hpVector.toNat * 2 ^ 16
  | 0x3F8 => pbCtlReg s + pbStsReg s * 2 ^ 16
  | _ => 0

/-- The doublewords of configuration space as they read. -/
def cfgRead (off : Nat) (s : State) : Nat := (cfgGet s off ||| BitVec.ofNat 32 (cfgLive off s)).toNat
def configRead (q : Nat) (s : State) : Nat := cfgRead q s + 2 ^ 32 * cfgRead (q + 4) s

/-! ### REGISTER_WRITE (R12, R14, R16, R20, R210) -/

/-- The write on its quadword; none where it is longer than 8 bytes or crosses an 8-byte boundary (R210). -/
def regQuad (r : RegWrite) : Option (Nat × RegW) :=
  let o := r.offset.toNat % 8
  if r.size = 0 || 8 < o + r.size then none
  else
    let mask : W64 := BitVec.ofNat 64 ((2 ^ (8 * r.size) - 1) * 2 ^ (8 * o))
    some (r.offset.toNat - o, ⟨mask, r.value <<< (8 * o)⟩)

def execRegisterWrite (w : RegWrite) (s : State) : Host.Outcome State Fault Refusal :=
  .next <|
    match w.space, regQuad w with
    | .config, some (q, x) => if cfgOpen s then configWrite q x s else s
    | .config, none => s
    | _, none => if bar0Open s then answerUr s else refuseAccess false none s
    | .bar0, some (q, x) => if bar0Open s then bar0Write q x s else refuseAccess false none s
    | .bar2, some (q, x) =>
      let o := q % 4096
      if !bar0Open s then refuseAccess false none s
      else if 0xC00 ≤ o && o < 0xD00 then dwWrite (16 + q / 4096) (o - 0xC00) x (count 2690) s
      else s

end Sys2Proof.Machine
end

