-- ==== Sys2Proof/Machine/Dictionary.lean ====
section
/-!
DEFINITION. Machine/Dictionary.lean: the entries of the Milell dictionary, reading and writing them, and core 1's service of the
requests that wait on its paths (15_milell_dictionary.md R368, R374, R379 to R390; 16_saddlebags.md R400).
-/
namespace Sys2Proof.Machine

/-! ### Outcomes (Table 15-6), in order -/

inductive DErr where
  | noEntry | noSub | badOp | perm | readOnly | writeOnly | length | high | low | value | state
deriving DecidableEq, Repr

/-- USDO abort code. -/
def DErr.abort : DErr → W32
  | .noEntry => 0x06020000
  | .noSub => 0x06090011
  | .badOp => 0x05040001
  | .perm => 0
  | .readOnly => 0x06010002
  | .writeOnly => 0x06010001
  | .length => 0x06070010
  | .high => 0x06090031
  | .low => 0x06090032
  | .value => 0x06090030
  | .state => 0x08000022

/-- STATUS of window and saddlebag (Table 0-5). -/
def DErr.status : DErr → Nat
  | .noEntry | .noSub | .badOp | .length | .high | .low | .value => stFormat
  | .perm | .readOnly | .writeOnly => stPerm
  | .state => stState

/-! ### The entries (Tables 15-8 to 15-13 and the entry tables of the other chapters) -/

inductive DAcc where
  | const | ro | rw | wo
deriving DecidableEq, Repr

/-- One sub-index: bytes, access, unprivileged view, networks F and H, range. -/
structure DEntry where
  size : Nat
  acc : DAcc
  pu : Bool := false
  f : Bool := true
  h : Bool := true
  lo : Nat := 0
  hi : Nat := 2 ^ 512
deriving DecidableEq, Repr

def dRw (size : Nat) : DEntry := { size := size, acc := .rw }
def dRo (size : Nat) : DEntry := { size := size, acc := .ro }
def dConst (size : Nat) : DEntry := { size := size, acc := .const }
def dRange (size lo hi : Nat) : DEntry := { size := size, acc := .rw, lo := lo, hi := hi }
def DEntry.onF (e : DEntry) : DEntry := { e with h := false }
def DEntry.puView (e : DEntry) : DEntry := { e with pu := true }

/-- A record: sub-index 0 holds the highest sub-index (R384). -/
def dRec (subs : List DEntry) : List (Nat × DEntry) :=
  match subs with
  | [] => []
  | e :: _ => (0, { e with size := 1, acc := .const, lo := 0, hi := 255 }) :: subs.zipIdx.map (fun (x, i) => (i + 1, x))
def dOne (e : DEntry) : List (Nat × DEntry) := [(0, e)]

/-- Entries 1000h to 1018h (Table 15-9). -/
def commEntry (idx : Nat) : List (Nat × DEntry) :=
  match idx with
  | 0x1000 => dOne (dConst 4).onF
  | 0x1001 => dOne (dRo 1).onF
  | 0x1003 => (0, (dRw 1).onF) :: (List.range 16).map (fun i => (i + 1, (dRo 4).onF))
  | 0x1008 => dOne (dConst 16).onF
  | 0x1009 => dOne (dConst 8).onF
  | 0x100A => dOne (dRo 32).onF
  | 0x1014 => dOne (dRo 4).onF
  | 0x1015 => dOne (dRange 2 0 10000).onF
  | 0x1017 => dOne (dRw 2).onF
  | 0x1018 => dRec (List.replicate 4 (dConst 4).onF)
  | _ => []

/-- Entries 2000h to 24FFh. -/
def deviceEntry (s : State) (idx : Nat) : List (Nat × DEntry) :=
  if 0x2200 ≤ idx && idx ≤ 0x2205 then dOne (dRo 8)
  else if 0x2208 ≤ idx && idx ≤ 0x220D then dOne (dRw 4)
  else if 0x2220 ≤ idx && idx ≤ 0x2237 then dRec [dRw 8, dRw 8]
  else if 0x2310 ≤ idx && idx ≤ 0x234F then dRec [dRw 8, dRw 8]
  else if 0x2410 ≤ idx && idx ≤ 0x2414 then dRec (List.replicate 64 (dRw 4))
  else if 0x2510 ≤ idx && idx ≤ 0x251F then dOne (dRw 4)
  else if 0x2601 ≤ idx && idx ≤ 0x2605 then dRec [dRw 1, dRange 1 1 12, dRange 1 0 1, dRw 8, dRw 8]
  else if 0x2810 ≤ idx && idx ≤ 0x288F then dRec [dRw 8, dRw 8]
  else if 0x2910 ≤ idx && idx ≤ 0x2915 then dOne (dRw 48).onF
  else if 0x2A00 ≤ idx && idx ≤ 0x2A3F then dRec [dRw 1, dRw 1]
  else match idx with
  | 0x2000 => dRec [(dConst 8).puView, (dConst 2).puView, (dConst 1).puView]
  | 0x2001 => dOne (dRo 1)
  | 0x2003 => dOne (dRo 2).puView
  | 0x2004 => dRec [dRange 2 300 480, dRange 1 0 1]
  | 0x2005 => dOne (dRo 4).puView
  | 0x2006 => dOne (dRo 8).puView
  | 0x2008 => dOne (dRo 8)
  | 0x2009 => dOne (dRo 4)
  | 0x200A => dOne (dRo 8)
  | 0x2010 => dOne (dRange 1 1 255)
  | 0x2011 => dOne (dRw 1)
  | 0x2012 => dOne (dRo 4)
  | 0x2100 => dOne (dRo 8)
  | 0x2101 => dOne (dRange 2 256 4096)
  | 0x2102 => dOne (dRange 1 0 7)
  | 0x2103 => dOne (dRange 4 1000 100000000).onF
  | 0x2210 => dOne (dRange 4 100 1000000)
  | 0x2300 => dOne (dRo 4)
  | 0x2350 => dOne (dRange 1 1 168)
  | 0x2351 => dOne (dRw 2)
  | 0x2400 => dOne (dRw 4)
  | 0x2401 => dOne (dRange 4 1000 1000000)
  | 0x2402 => dOne (dRo 8)
  | 0x2415 => dRec (List.replicate 12 (dRw 4))
  | 0x2500 => dOne (dRange 1 0 1).onF
  | 0x2501 => dOne (dRw 4)
  | 0x2502 => dOne (dRange 4 100 100000)
  | 0x2503 => dOne (dRange 1 1 255)
  | 0x2504 => dOne (dRo 1)
  | 0x2600 =>
    dRec [dRange 1 2 5, dRange 1 32 51, dRw 1, dRw 1, dRw 1, dRw 1, dRw 1, dRw 1, dRw 1, dRange 1 0 1, dRo 1]
  | 0x2606 => dOne (dRo 8)
  | 0x2607 => dOne (dRange 4 1000000 4000000000)
  | 0x2608 => dRec [dRange 1 2 15, dRange 1 2 15]
  | 0x2609 => dOne (dRange 4 64 16777216)
  | 0x260A => dOne (dRange 4 1000000 4000000000)
  | 0x2701 => dOne (dRange 4 1000 100000000)
  | 0x2702 => dOne (dRange 4 10000 1000000000)
  | 0x2703 => dOne (dRange 2 1 1024)
  | 0x2704 => dOne (dRange 2 256 16384)
  | 0x2705 => dOne (dRange 4 1000 100000000)
  | 0x2706 => dOne (dRange 1 1 50)
  | 0x2707 => dOne (dRange 4 0 67108864)
  | 0x2720 => dRec [dRange 2 0 4095, { size := 1, acc := .wo, lo := 1, hi := 4 }, dRo 1, dRw 8, dRo 1, dRo 8]
  | 0x2800 => dOne (dRange 1 0 1).onF
  | 0x2801 => dOne (dRo 8).puView
  | 0x2802 => dOne (dRw 4)
  | 0x2803 => dOne (dRange 4 10000000 1000000000)
  | 0x2804 => dOne (dRange 4 1000 (min 10000000 (s.pair.bHoldoff.toNat - 10000)))
  | 0x2805 => dOne (dRange 4 (s.pair.fenceWait.toNat + 10000) 20000000)
  | 0x2806 => dOne (dRange 2 1 10000)
  | 0x2807 => dOne (dRo 8)
  | 0x2808 => dRec [dRw 2, dRw 2]
  | 0x2900 => dOne (dRo 8)
  | 0x2901 => dOne (dRange 1 1 16)
  | 0x2A40 => dOne (dRange 1 0 1)
  | 0x2B00 => dOne (dRw 4)
  | 0x2B01 => dOne (dRw 8)
  | 0x2B02 => dOne (dRw 4)
  | 0x2B03 => dOne (dRw 32)
  | _ => []

/-- Every index of Table 15-8; an index without an entry has no sub-index. -/
def dictSubs (s : State) (idx : Nat) : List (Nat × DEntry) :=
  if idx < 0x2000 then commEntry idx
  else if idx < 0x3000 then deviceEntry s idx
  else if idx < 0x4000 then dRec [dRw 8, dRw 8, dRo 4, dRw 8, dRange 4 0 16777216, dRange 2 4 2048, dRo 4, dRo 4]
  else if idx < 0x4B80 then dRec [dRo 8, dRo 8, dRw 8, { size := 1, acc := .wo }]
  else if idx < 0x4C00 then []
  else if idx < 0x4D40 then dRec [dRo 2, dRo 2, dRo 4, dRo 1, dRo 2]
  else if idx < 0x5000 then []
  else if idx < 0x6000 then dOne (dRo 8)
  else []

/-! ### Reading (R384, R387 to R390) -/

/-- Characters of a VISIBLE_STRING (n), padded with 00h. -/
def dString (n : Nat) (b : List Byte) : Nat := leNat (slice b 0 n)

def deviceName : List Byte := [0x4B, 0x6F, 0x64, 0x6A, 0x61, 0x75, 0x72, 0x6E, 0x20, 0x49, 0x64, 0x65, 0x72, 0x6E]

def commRead (idx sub : Nat) (s : State) : Nat :=
  let m := s.milell
  match idx, sub with
  | 0x1001, _ => (errorReg s).toNat
  | 0x1003, 0 => m.errors.length
  | 0x1003, i => (m.errors.getD (i - 1) 0).toNat
  | 0x1008, _ => dString 16 deviceName
  | 0x1009, _ => dString 8 Config.steppingText
  | 0x100A, _ => dString 32 Config.manifestVersion
  | 0x1014, _ => 0x80 + m.nodeInForce.toNat
  | 0x1015, _ => m.inhibit.toNat
  | 0x1017, _ => m.heartbeatMs.toNat
  | 0x1018, 1 => Config.vendorId.toNat
  | 0x1018, 2 => 0x7A40
  | 0x1018, 3 => Config.stepping.toNat * 65536 + s.sec.fwSvn.toNat
  | 0x1018, 4 => Config.serial.toNat % 2 ^ 32
  | _, _ => 0

/-- PTE_FORMAT (Table 9-2) and PTE_LEVEL (Table 9-3). -/
def pteRead (sub : Nat) (s : State) : Nat :=
  let x := s.xl
  match sub with
  | 1 => x.levels.toNat
  | 2 => x.addrHi.toNat
  | 3 => x.pBit.toNat
  | 4 => x.wBit.toNat
  | 5 => x.uBit.toNat
  | 6 => x.aBit.toNat
  | 7 => x.dBit.toNat
  | 8 => x.largeBit.toNat
  | 9 => x.flags.toNat
  | 10 => b2n x.valid
  | _ => x.errCode.toNat
def pteLevelRead (l sub : Nat) (s : State) : Nat :=
  let x := levelAt s l
  match sub with
  | 1 => x.idxLo.toNat
  | 2 => x.idxWidth.toNat
  | 3 => x.leafOk.toNat
  | 4 => x.rsvTable.toNat
  | _ => x.rsvLeaf.toNat

/-- The open operation of entry 2720h. -/
def burnOp (s : State) : Option LongOp :=
  ((opIds s).map (fun j => (j, opGet s j))).find? (fun e =>
    e.2.isOpen && !e.2.shadow && e.2.deliverCq = 0xFFFF && e.2.handle e.1 = s.service.burnHandle) |>.map (·.2)

/-- Entry 2720h (Table 5-17). -/
def burnRead (sub : Nat) (s : State) : Nat :=
  let v := s.service
  match sub with
  | 1 => v.burnCtx.toNat
  | 3 => v.burnStatus.toNat
  | 4 => v.burnHandle.toNat
  | 5 => v.burnFinal.toNat
  | 6 => ((burnOp s).map (·.doneUnits.toNat)).getD v.burnUnits.toNat
  | _ => 0

def nmtNum : Nmt → Nat
  | .preOperational => 0
  | .operational => 1
  | .stopped => 2

def deviceRead (idx sub : Nat) (s : State) : Nat :=
  if 0x2200 ≤ idx && idx ≤ 0x2205 then gpStatusReg s (idx - 0x2200)
  else if 0x2208 ≤ idx && idx ≤ 0x220D then gpCtlReg s (idx - 0x2208)
  else if 0x2220 ≤ idx && idx ≤ 0x2237 then hwinWord s ((idx - 0x2220) / 4) (idx % 4) (sub - 1)
  else if 0x2310 ≤ idx && idx ≤ 0x234F then (if sub = 1 then regionBaseReg s (idx - 0x2310) else regionShapeReg s (idx - 0x2310))
  else if 0x2410 ≤ idx && idx ≤ 0x2415 then pdReg s (64 * (idx - 0x2410) + sub - 1)
  else if 0x2510 ≤ idx && idx ≤ 0x251F then wayMaskReg s (idx - 0x2510)
  else if idx = 0x2600 then pteRead sub s
  else if 0x2601 ≤ idx && idx ≤ 0x2605 then pteLevelRead (idx - 0x2601) sub s
  else if 0x2810 ≤ idx && idx ≤ 0x284F then winInWord s (idx - 0x2810) (sub - 1)
  else if 0x2850 ≤ idx && idx ≤ 0x288F then winOutWord s (idx - 0x2850) (sub - 1)
  else if 0x2910 ≤ idx && idx ≤ 0x2915 then (tget (fun _ => (0 : BitVec 384)) s.sec.girthPeer (idx - 0x2910)).toNat
  else if 0x2A00 ≤ idx && idx ≤ 0x2A3F then
    let x := chanGet s (idx - 0x2A00)
    (if sub = 1 then x.sender else x.receiver).toNat
  else match idx, sub with
  | 0x2000, 1 => Config.serial.toNat
  | 0x2000, 2 => 0x7A40
  | 0x2000, 3 => Config.stepping.toNat
  | 0x2001, _ => s.sec.lifecycle.code
  | 0x2003, _ => s.pace.stagePs.toNat
  | 0x2004, 1 => s.pace.targetPs.toNat
  | 0x2004, 2 => b2n s.pace.trimEn
  | 0x2005, _ => paceStatusReg s
  | 0x2006, _ => s.tsNow.toNat
  | 0x2008, _ => rstStatusReg s
  | 0x2009, _ => startStatusReg s
  | 0x200A, _ => railStatusReg s
  | 0x2010, _ => s.milell.nodeId.toNat
  | 0x2011, _ => s.milell.emcyMask.toNat
  | 0x2012, _ =>
    s.milell.tec.toNat + s.milell.rxec.toNat * 2 ^ 8 + s.milell.canState.toNat * 2 ^ 16 + nmtNum s.milell.nmt * 2 ^ 24
  | 0x2100, _ => hpStatusReg s
  | 0x2101, _ => s.host.tagPool.toNat
  | 0x2102, _ => s.host.readRetries.toNat
  | 0x2103, _ => s.host.bindLockout.toNat
  | 0x2210, _ => s.girth.abortTicks.toNat
  | 0x2300, _ => regionCtlReg s
  | 0x2350, _ => s.store.scrubHours.toNat
  | 0x2351, _ => s.store.srIdle.toNat
  | 0x2400, _ => s.deck.guarPeriod.toNat
  | 0x2401, _ => s.deck.margin.toNat
  | 0x2402, _ => deckStatusReg s
  | 0x2500, _ => b2n s.power.retained.cohProtocol
  | 0x2501, _ => cohCtlReg s
  | 0x2502, _ => s.coh.homeTimeout.toNat
  | 0x2503, _ => s.coh.mergeTicks.toNat
  | 0x2504, _ => s.coh.serve.toNat
  | 0x2606, _ => xlStatusReg s
  | 0x2607, _ => s.xl.priTimeout.toNat
  | 0x2608, 1 => s.xl.classImage.toNat
  | 0x2608, 2 => s.xl.classMigrate.toNat
  | 0x2609, _ => s.xl.hotThreshold.toNat
  | 0x260A, _ => s.xl.decayTicks.toNat
  | 0x2701, _ => s.piers.stitchTimeout.toNat
  | 0x2702, _ => s.piers.offloadTimeout.toNat
  | 0x2703, _ => s.service.heldRecords.toNat
  | 0x2704, _ => s.service.prefillChunk.toNat
  | 0x2705, _ => s.service.ageingTicks.toNat
  | 0x2706, _ => s.service.kvSpillLow.toNat
  | 0x2707, _ => s.service.rawInputMax.toNat
  | 0x2720, i => burnRead i s
  | 0x2800, _ => b2n s.power.retained.pairMode
  | 0x2801, _ => pairStatusReg s
  | 0x2802, _ => pairCtlReg s
  | 0x2803, _ => s.pair.pairWait.toNat
  | 0x2804, _ => s.pair.fenceWait.toNat
  | 0x2805, _ => s.pair.bHoldoff.toNat
  | 0x2806, _ => s.pair.cursorTicks.toNat
  | 0x2807, _ => viaductStatusReg s
  | 0x2808, 1 => pbCtlReg s
  | 0x2808, 2 => pbStsReg s
  | 0x2900, _ => secStatusReg s
  | 0x2901, _ => s.sec.sweepShare.toNat
  | 0x2A40, _ => b2n s.sb.lock
  | 0x2B00, _ => traceCtlReg s
  | 0x2B01, _ => s.obs.bufBase.toNat * 4096
  | 0x2B02, _ => s.obs.bufSize.toNat
  | 0x2B03, _ => s.obs.eventEn.toNat
  | _, _ => 0

/-- Context n (Table 15-11). -/
def ctxRead (n sub : Nat) (s : State) : Nat :=
  let c := ctxGet s n
  let b := bindingGet s n
  match sub with
  | 1 => ctxAdmitReg s n
  | 2 => ctxRootReg s n
  | 3 => b2n b.bound * 2 ^ 31 + b.pasid.toNat
  | 4 => c.spillVa.toNat
  | 5 => c.spillSlots.toNat
  | 6 => c.spillSlotKib.toNat
  | 7 => ((heldPages s n).filter (fun w => w.1 ≠ 1024)).length
  | _ => (liveOf s n).length

/-- Pier n (Table 15-13): the lowest of the fenced piers whose roles it carries; FFFFh for none. -/
def pierRead (n sub : Nat) (s : State) : Nat :=
  let x := pierGet s n
  match sub with
  | 1 => b2n (256 ≤ n) * 2 ^ 15 + (pdGet s n).st.code
  | 2 =>
    let carried := s.piers.models.flatMap (fun m => m.2.programs.flatMap (fun p =>
      (p.subst.filter (fun e => p.bound && e.2 = n)).map (·.1)))
    (findBelow 320 carried.contains).getD 0xFFFF
  | 3 => (x.allocs.map (·.bytes)).foldl (· + ·) 0
  | 4 => x.slots.length
  | _ => (s.coh.track.filter (fun e => e.1 / 2048 = n)).length

/-- The value of a sub-index; a WO field reads 0. -/
def dictRead (idx sub : Nat) (s : State) : Nat :=
  let top := ((dictSubs s idx).getLast?.map (·.1)).getD 0
  if sub = 0 && top ≠ 0 && idx ≠ 0x1003 then top
  else if idx < 0x2000 then commRead idx sub s
  else if idx < 0x3000 then deviceRead idx sub s
  else if idx < 0x4000 then ctxRead (idx - 0x3000) sub s
  else if idx < 0x4B80 then
    match sub with
    | 1 => fsStsReg s (idx - 0x4000)
    | 2 => (srcGet s (idx - 0x4000)).firstTs.toNat
    | 3 => fsCfgReg s (idx - 0x4000)
    | _ => 0
  else if idx < 0x4D40 then pierRead (idx - 0x4C00) sub s
  else (tget (fun _ => (0 : W64)) s.obs.counters (idx - 0x5000)).toNat

/-! ### Writing (R382) -/

/-- Status bits that a write of a fault source's CLEAR names (Table 15-12). -/
def clearOnes (v : Nat) : Byte := BitVec.ofNat 8 (v % 8 + v / 8 % 2 * 128)

/-- A named bit is set. -/
def namedSet (x : FaultSource) (ones : Byte) : Bool :=
  (x.ce && ones.getLsbD 0) || (x.uc && ones.getLsbD 1) || (x.ft && ones.getLsbD 2) || (x.wire && ones.getLsbD 7)

/-- A value inside its limits that the entry does not allow; GUAR_PERIOD's range is that of its field. -/
def dictBadValue (idx sub v : Nat) : Option DErr :=
  if 0x2A00 ≤ idx && idx ≤ 0x2A3F then (if sbCodeOk (BitVec.ofNat 8 v) then none else some .value)
  else if 0x3000 ≤ idx && idx < 0x4000 then
    (if (sub = 4 && v % 4096 ≠ 0) || (sub = 6 && v % 4 ≠ 0) then some .value else none)
  else match idx with
  | 0x1003 => if v ≠ 0 then some .value else none
  | 0x2010 => if nodeIdOk v then none else some .value
  | 0x2400 => if v % 64 < 2 then some .low else if 32 < v % 64 then some .high else none
  | 0x2608 => if v = 2 || 9 ≤ v then none else some .value
  | _ => none

/-- A write that the defining chapter forbids in the present state (R12, R121, R265, R323, R336, R387, R388, R393, R409). -/
def dictForbidden (idx sub v : Nat) (s : State) : Bool :=
  if 0x2310 ≤ idx && idx ≤ 0x234F then
    let n := idx - 0x2310
    let r := regionGet s.store.regions n
    let w : W64 := BitVec.ofNat 64 v
    s.store.lock || (r.valid && (sub = 2 || w.getLsbD 63 || withBase r w ≠ r))
  else if 0x2600 ≤ idx && idx ≤ 0x2605 then s.host.bindings.any (fun b => b.2.bound)
  else if 0x2A00 ≤ idx && idx ≤ 0x2A3F then s.sb.lock || (chanGet s (idx - 0x2A00)).busy
  else if 0x3000 ≤ idx && idx < 0x4000 then
    let n := idx - 0x3000
    (sub = 1 && (ctxGet s n).st ≠ .free) || (4 ≤ sub && !(spilledPages s n).isEmpty)
  else if 0x4000 ≤ idx && idx < 0x4B80 then
    let n := idx - 0x4000
    if sub = 3 then s.faults.lock else live s n && namedSet (srcGet s n) (clearOnes v)
  else match idx with
  | 0x2A40 => s.sb.lock && v = 0
  | 0x2B01 | 0x2B02 => s.obs.bufEn
  | _ => false

/-- A sub-index of PTE_FORMAT or PTE_LEVEL; every write but one to VALID clears VALID (R265), and every write empties the
walk cache (R269). -/
def pteWrite (idx sub v : Nat) (s : State) : State :=
  let s := flushWalks s
  let b : Byte := BitVec.ofNat 8 v
  let x := s.xl
  if idx = 0x2600 then
    match sub with
    | 1 => { s with xl := { x with valid := false, levels := b } }
    | 2 => { s with xl := { x with valid := false, addrHi := b } }
    | 3 => { s with xl := { x with valid := false, pBit := b } }
    | 4 => { s with xl := { x with valid := false, wBit := b } }
    | 5 => { s with xl := { x with valid := false, uBit := b } }
    | 6 => { s with xl := { x with valid := false, aBit := b } }
    | 7 => { s with xl := { x with valid := false, dBit := b } }
    | 8 => { s with xl := { x with valid := false, largeBit := b } }
    | 9 => { s with xl := { x with valid := false, flags := b &&& 0x0F } }
    | _ => if v = 1 then validatePte s else { s with xl := { x with valid := false } }
  else
    let l := idx - 0x2601
    let y := levelAt s l
    let z := match sub with
      | 1 => { y with idxLo := b }
      | 2 => { y with idxWidth := b }
      | 3 => { y with leafOk := b }
      | 4 => { y with rsvTable := BitVec.ofNat 64 v }
      | _ => { y with rsvLeaf := BitVec.ofNat 64 v }
    { s with xl := { x with valid := false, level := x.level.set l z } }

/-- CMD of entry 2720h (R147). -/
def burnCommand (v : Nat) (s : State) : State :=
  let sv := s.service
  let result := fun (st : Nat) (s : State) => { s with service := { s.service with burnStatus := BitVec.ofNat 8 st } }
  if v = 1 then
    let t := sv.burnCtx.toNat
    if !burnishLegal s t then result stState s
    else
      let c : BitVec 12 := BitVec.ofNat 12 t
      let e : BitVec 512 := BitVec.ofNat 512 (0x12 + t * 2 ^ 32)
      match startOp { opcode := 0x12, ctx := c, target := c, deliverCq := 0xFFFF, entry := e } s with
      | none => result stFull s
      | some (j, s1) =>
        let f := { s1.service with burnHandle := (opGet s1 j).handle j, burnFinal := 0xFF, burnUnits := 0 }
        burnishStart j t (result stOk { s1 with service := f })
  else
    match targetOf s none sv.burnHandle.toNat with
    | .rejected st => result (if st = stState && !sv.burnHandle.getLsbD 63 then stPerm else st) s
    | .stream _ => result stPerm s
    | .longOp j =>
      if (opGet s j).opcode ≠ 0x12 then result stPerm s
      else match opCmd j v s with
        | some (st, s1) => result st s1
        | none => s

/-- A write of a device entry. -/
def deviceWrite (idx sub v : Nat) (s : State) : State :=
  let all := RegW.all v
  let w8 : Byte := BitVec.ofNat 8 v
  let w16 : W16 := BitVec.ofNat 16 v
  let w32 : W32 := BitVec.ofNat 32 v
  if 0x2208 ≤ idx && idx ≤ 0x220D then gpCtlWrite (idx - 0x2208) all s
  else if 0x2220 ≤ idx && idx ≤ 0x2237 then hwinWrite ((idx - 0x2220) / 4) (idx % 4) (sub - 1) all s
  else if 0x2310 ≤ idx && idx ≤ 0x234F then
    (if sub = 1 then regionBaseWrite (idx - 0x2310) all s else regionShapeWrite (idx - 0x2310) all s)
  else if 0x2410 ≤ idx && idx ≤ 0x2415 then pdWrite (64 * (idx - 0x2410) + sub - 1) (w32.getLsbD 31) s
  else if 0x2510 ≤ idx && idx ≤ 0x251F then wayMaskSet (idx - 0x2510) v s
  else if 0x2600 ≤ idx && idx ≤ 0x2605 then pteWrite idx sub v s
  else if 0x2810 ≤ idx && idx ≤ 0x284F then winInWrite (idx - 0x2810) (sub - 1) all s
  else if 0x2850 ≤ idx && idx ≤ 0x288F then winOutWrite (idx - 0x2850) (sub - 1) all s
  else if 0x2910 ≤ idx && idx ≤ 0x2915 then
    { s with sec := { s.sec with girthPeer := tset (fun _ => 0) s.sec.girthPeer (idx - 0x2910) (BitVec.ofNat 384 v) } }
  else if 0x2A00 ≤ idx && idx ≤ 0x2A3F then sbBind (idx - 0x2A00) (sub = 2) w8 s
  else match idx, sub with
  | 0x2004, 1 => setPaceTarget s.pace.trimEn v s
  | 0x2004, _ => setPaceTarget (v = 1) s.pace.targetPs.toNat s
  | 0x2010, _ => nodeIdSet w8 s
  | 0x2011, _ => { s with milell := { s.milell with emcyMask := w8 &&& 0x07 } }
  | 0x2101, _ => { s with host := { s.host with tagPool := w16 } }
  | 0x2102, _ => { s with host := { s.host with readRetries := w8 } }
  | 0x2103, _ => { s with host := { s.host with bindLockout := w32 } }
  | 0x2210, _ => { s with girth := { s.girth with abortTicks := w32 } }
  | 0x2350, _ => { s with store := { s.store with scrubHours := w8 } }
  | 0x2351, _ => { s with store := { s.store with srIdle := w16 } }
  | 0x2400, _ => guarPeriodSet (v % 64) s
  | 0x2401, _ => deckMarginSet v s
  | 0x2500, _ =>
    restamp 10 { s with power := { s.power with retained := { s.power.retained with cohProtocol := v = 1 } } }
  | 0x2501, _ => cohCtlWrite all s
  | 0x2502, _ => homeTimeoutSet v s
  | 0x2503, _ => mergeTicksSet v s
  | 0x2607, _ => { s with xl := { s.xl with priTimeout := w32 } }
  | 0x2608, 1 => { s with xl := { s.xl with classImage := w8 } }
  | 0x2608, _ => { s with xl := { s.xl with classMigrate := w8 } }
  | 0x2609, _ => { s with xl := { s.xl with hotThreshold := w32 } }
  | 0x260A, _ => { s with xl := { s.xl with decayTicks := w32 } }
  | 0x2701, _ => { s with piers := { s.piers with stitchTimeout := w32 } }
  | 0x2702, _ => { s with piers := { s.piers with offloadTimeout := w32 } }
  | 0x2703, _ => { s with service := { s.service with heldRecords := w16 } }
  | 0x2704, _ => { s with service := { s.service with prefillChunk := w16 } }
  | 0x2705, _ => { s with service := { s.service with ageingTicks := w32 } }
  | 0x2706, _ => { s with service := { s.service with kvSpillLow := w8 } }
  | 0x2707, _ => { s with service := { s.service with rawInputMax := w32 } }
  | 0x2720, 1 => { s with service := { s.service with burnCtx := w16 } }
  | 0x2720, 2 => burnCommand v s
  | 0x2720, _ => { s with service := { s.service with burnHandle := BitVec.ofNat 64 v } }
  | 0x2800, _ => restamp 10 { s with power := { s.power with retained := { s.power.retained with pairMode := v = 1 } } }
  | 0x2802, _ => pairCtlWrite all s
  | 0x2803, _ => { s with pair := { s.pair with pairWait := w32 } }
  | 0x2804, _ => { s with pair := { s.pair with fenceWait := w32 } }
  | 0x2805, _ => { s with pair := { s.pair with bHoldoff := w32 } }
  | 0x2806, _ => { s with pair := { s.pair with cursorTicks := w16 } }
  | 0x2808, 1 => pbCtlSet w16 s
  | 0x2808, _ => pbStsWrite w16 s
  | 0x2901, _ => { s with sec := { s.sec with sweepShare := w8 } }
  | 0x2A40, _ => { s with sb := { s.sb with lock := s.sb.lock || v = 1 } }
  | 0x2B00, _ => traceCtlWrite all s
  | 0x2B01, _ => bufBaseSet v s
  | 0x2B02, _ => bufSizeSet v s
  | 0x2B03, _ => { s with obs := { s.obs with eventEn := BitVec.ofNat 256 v } }
  | _, _ => s

/-- A write that has passed every check of Table 15-6. -/
def dictApply (idx sub v : Nat) (s : State) : State :=
  if idx < 0x2000 then
    match idx with
    | 0x1003 => { s with milell := { s.milell with errors := [] } }
    | 0x1015 => { s with milell := { s.milell with inhibit := BitVec.ofNat 16 v } }
    | 0x1017 =>
      let m := { s.milell with heartbeatMs := BitVec.ofNat 16 v }
      { s with milell := { m with nextHeartbeat := heartbeatAfter { s with milell := m } } }
    | _ => s
  else if idx < 0x3000 then deviceWrite idx sub v s
  else if idx < 0x4000 then
    let n := idx - 0x3000
    let c := ctxGet s n
    match sub with
    | 1 => ctxAdmit n (BitVec.ofNat 64 v) s
    | 2 => ctxRootSet n (BitVec.ofNat 64 v) s
    | 4 => ctxSet n { c with spillVa := BitVec.ofNat 64 v } s
    | 5 => ctxSet n { c with spillSlots := BitVec.ofNat 32 v } s
    | _ => ctxSet n { c with spillSlotKib := BitVec.ofNat 16 v } s
  else
    let n := idx - 0x4000
    if sub = 3 then fsCfgWrite n (BitVec.ofNat 64 v) s else clearSource n (clearOnes v) s

/-! ### A request (R381, Table 15-6) -/

/-- Network and view of a path (Table 15-1). -/
structure DPath where
  field : Bool
  priv : Bool

/-- A request: `value` is what a write carries, and what a read gives comes back. -/
def dictAccess (p : DPath) (op : Nat) (idx sub : Nat) (value : List Byte) (s : State) : Except DErr (List Byte × State) :=
  let reach := fun (e : Nat × DEntry) => if p.field then e.2.f else e.2.h
  let subs := (dictSubs s idx).filter reach
  if subs.isEmpty then .error .noEntry
  else
    match subs.find? (fun e => e.1 = sub) with
    | none => .error .noSub
    | some (_, e) =>
      let v := leNat value
      if 1 < op then .error .badOp
      else if !p.priv && !e.pu then .error .perm
      else if op = 0 then
        if e.acc = .wo then .error .writeOnly else .ok (leBytes e.size (dictRead idx sub s), s)
      else if e.acc = .const || e.acc = .ro then .error .readOnly
      else if value.length ≠ e.size then .error .length
      else if e.hi < v then .error .high
      else if v < e.lo then .error .low
      else
        match dictBadValue idx sub v with
        | some x => .error x
        | none => if s.faults.safe || dictForbidden idx sub v s then .error .state else .ok ([], dictApply idx sub v s)

/-! ### Service by core 1 (R38, R383) -/

/-- A request waits at a doorbell bit of core 1 (Table 1-14). -/
def core1Waits (s : State) (b : Nat) : Bool :=
  let held := fun (k : Nat) => (dwGet s k).busy || s.milell.orphans.any (fun o => o.1 = k)
  if b = 0 then !s.milell.usdo.isEmpty
  else if b ≤ 16 then held (b - 1)
  else if b = 17 then (s.milell.ports ++ s.milell.orphans).any (fun e => 16 ≤ e.1 && e.2.busy)
  else if 32 ≤ b then [b - 32, b].any (fun c => (chanGet s c).busy && (chanGet s c).receiver = sbCore 1)
  else false

/-- Core 1 comes to the items of doorbell bit `b`: a handler in progress runs to completion first, then the lowest bit that has
items. None while it is another bit's turn. -/
def core1Turn (b : Nat) (s : State) : Option State :=
  let t := trestleGet s 1
  let running := match t.last with
    | some (.bit a) => core1Waits s a
    | _ => false
  if running then (if t.last = some (.bit b) then some s else none)
  else if findBelow 64 (fun a => t.doorbell.getLsbD a && core1Waits s a) = some b then
    some (trestleSet 1 { t with doorbell := dropBit t.doorbell b, last := some (.bit b) } s)
  else none

/-- The handler ends with its last item. -/
def core1Done (b : Nat) (s : State) : State :=
  if core1Waits s b then s else trestleSet 1 { trestleGet s 1 with last := none } s

/-- The field network's oldest request. -/
def serveField (r : UsdoReq) (s : State) : State :=
  let s0 := { s with milell := { s.milell with usdo := s.milell.usdo.drop 1 } }
  match dictAccess ⟨true, true⟩ (b2n r.value.isSome) r.index.toNat r.sub.toNat (r.value.getD []) s0 with
  | .error e => usdoAbort r.client e.abort (count 2692 s0)
  | .ok (bytes, s1) =>
    if r.value.isSome then usdoSend r.client .written s1
    else if r.segmented || 56 < bytes.length then
      usdoSend r.client (.openUpload bytes.length) (segOpen ⟨r.client, true, r.index, r.sub, bytes, segDeadline s1⟩ s1)
    else usdoSend r.client (.data bytes) s1

/-- A port's request; an orphan's response is lost. -/
def servePort (k : Nat) (s : State) : State :=
  let orphan := s.milell.orphans.find? (fun o => o.1 = k)
  let x := (orphan.map (·.2)).getD (dwGet s k)
  let s0 := { s with milell := { s.milell with orphans := dropFirst (fun o => o.1 = k) s.milell.orphans } }
  let r := dictAccess ⟨false, k < 16⟩ x.op.toNat x.index.toNat x.sub.toNat (x.data.take x.length.toNat) s0
  let (s1, y) := match r with
    | .ok (bytes, s1) =>
      let n := BitVec.ofNat 8 bytes.length
      let respLen : Byte := if x.op = 0 then n else 0
      (s1, { x with status := BitVec.ofNat 8 stOk, abort := 0, respLen := respLen, data := bytes ++ x.data.drop bytes.length })
    | .error e =>
      (count (if k < 16 then 2693 else 2694) s0, { x with status := BitVec.ofNat 8 e.status, abort := e.abort, respLen := 0 })
  if orphan.isSome then s1 else dwSet k { y with busy := false, doneSeq := x.doneSeq + 1 } s1

/-- A saddlebag request (R400, Table 16-5). -/
def serveChannel (c : Nat) (s : State) : State :=
  let x := chanGet s c
  let w0 := (x.msg.getD 0 0).toNat
  let w1 := (x.msg.getD 1 0).toNat
  let op := w0 / 2 ^ 30
  let len := w1 % 256
  let reply := fun (status detail : Nat) (abort : W32) (bytes : List Byte) (s : State) =>
    let y := chanGet s c
    let words := (List.range ((bytes.length + 3) / 4)).map (fun i => le32 (slice bytes (4 * i) 4))
    let msg := (y.msg.set 1 abort).take 2 ++ words ++ y.msg.drop (2 + words.length)
    sbAck c (.core 1) (BitVec.ofNat 8 status) (BitVec.ofNat 8 detail) (chanSet c { y with msg := msg } s)
  if w0 / 2 ^ 24 % 64 ≠ 0 || w1 / 256 ≠ 0 || (op = 1 && x.len.toNat < 2 + (len + 3) / 4) then
    reply stFormat 0 0 [] (count 2695 s)
  else
    let value := ((x.msg.drop 2).flatMap (fun w => leBytes 4 w.toNat)).take len
    match dictAccess ⟨false, x.sender = sbHost⟩ op (w0 % 65536) (w0 / 65536 % 256) (if op = 1 then value else []) s with
    | .error e => reply e.status 0 e.abort [] (count 2695 s)
    | .ok (bytes, s1) => reply stOk bytes.length 0 bytes s1

/-- The request that waits on a path: its doorbell bit, whether it is a write, and its service. -/
def waitingOn (path : DictPath) (s : State) : Option (Nat × Bool × (State → State)) :=
  let port := fun (k : Nat) =>
    match s.milell.orphans.find? (fun o => o.1 = k) with
    | some o => some o.2
    | none => if (dwGet s k).busy then some (dwGet s k) else none
  match path with
  | .field => (s.milell.usdo.head?).map (fun r => (0, r.value.isSome, serveField r))
  | .bar0 p => (port p.val).map (fun x => (1 + p.val, x.op = 1, servePort p.val))
  | .bar2 q =>
    -- pending pages in ascending queue-pair number
    if (s.milell.ports ++ s.milell.orphans).any (fun e => 16 ≤ e.1 && e.1 < 16 + q.val && e.2.busy) then none
    else (port (16 + q.val)).map (fun x => (17, x.op = 1, servePort (16 + q.val)))
  | .saddlebag c =>
    let x := chanGet s c.val
    if x.busy && x.receiver = sbCore 1 then
      some (32 + c.val % 32, (x.msg.getD 0 0).toNat / 2 ^ 30 = 1, serveChannel c.val)
    else none

/-- Core 1 serves the request of a path, a read or a write as `write` says. -/
def dictServe (write : Bool) (path : DictPath) (s : State) : State :=
  match waitingOn path s with
  | none => s
  | some (b, isWrite, go) =>
    if !canUp s || isWrite ≠ write then s
    else
      match core1Turn b s with
      | none => s
      | some s1 => core1Done b (go s1)

/-- DICT_READ: a read, or a request whose OP is reserved. -/
def execDictRead (path : DictPath) (s : State) : Host.Outcome State Fault Refusal := .next (dictServe false path s)

/-- DICT_WRITE. -/
def execDictWrite (path : DictPath) (s : State) : Host.Outcome State Fault Refusal := .next (dictServe true path s)

end Sys2Proof.Machine
end

