-- ==== Sys2Proof/Machine/PairLink.lean ====
section
/-!
DEFINITION. Machine/PairLink.lean: viaduct frames, training, the pair key exchange and time (06_pair_and_guarantee.md R171
to R178; 13_security.md R344 to R346).
-/
namespace Sys2Proof.Machine

/-! ### Sending (R173, R174, R176) -/

/-- Units of a message: its header and its body (Tables 6-5, 6-6). -/
def ViaMsg.units : ViaMsg → Nat
  | .jWrite _ _ ls | .wReadData _ _ ls | .wWrite _ _ _ _ _ _ ls | .jImage _ _ _ _ ls => 1 + ls.length
  | .cursor es => 1 + (es.length + 3) / 4
  | _ => 1

/-- The next message to begin: HEALTH, TIME, CURSOR in strict priority; JOURNAL and WINDOW 3 units to 1 while both wait. -/
def Viaduct.next (v : Viaduct) : Option (ViaMsg × Viaduct) :=
  match v.health, v.time, v.cursor, v.journal, v.window with
  | m :: r, _, _, _, _ => some (m, { v with health := r })
  | [], m :: r, _, _, _ => some (m, { v with time := r })
  | [], [], m :: r, _, _ => some (m, { v with cursor := r })
  | [], [], [], j :: js, w :: ws =>
    if 3 * w.units ≤ v.jCredit then some (w, { v with window := ws, jCredit := v.jCredit - 3 * w.units })
    else some (j, { v with journal := js, jCredit := v.jCredit + j.units })
  | [], [], [], j :: js, [] => some (j, { v with journal := js, jCredit := 0 })
  | [], [], [], [], w :: ws => some (w, { v with window := ws, jCredit := 0 })
  | [], [], [], [], [] => none

/-- Fills a frame of `room` units; a message is listed in the frame that holds its last unit. -/
def Viaduct.fill : Nat → Nat → Viaduct → List ViaMsg → Viaduct × List ViaMsg
  | 0, _, v, acc => (v, acc)
  | fuel + 1, room, v, acc =>
    if room = 0 then (v, acc)
    else
      match v.begun with
      | some (m, left) =>
        if room < left then ({ v with begun := some (m, left - room) }, acc)
        else Viaduct.fill fuel (room - left) { v with begun := none } (acc ++ [m])
      | none =>
        match v.next with
        | none => (v, acc)
        | some (m, v1) => Viaduct.fill fuel room { v1 with begun := some (m, m.units) } acc

/-- Frames flow: the link is up, or training has reached its exchange of frames, and no fast retrain is under way. -/
def framesFlow (s : State) : Bool := (s.viaduct.up || 4 ≤ s.viaduct.step.toNat) && s.viaduct.fastRetrain.isNone

/-- What a new frame carries: one record in step 5; only IDLE in the safe state (R322). -/
def frameMsgs (s : State) : Viaduct × List ViaMsg :=
  let v := s.viaduct
  if s.faults.safe then (v, [])
  else if v.step = 5 then
    match v.kx with
    | r :: rest => ({ v with kx := rest }, [.kx r])
    | [] => (v, [])
  else Viaduct.fill 400 159 v []

/-- Step 5 ends once the partner's DONE has come and this member's own records are sent: session key, numbers from 0, and
the first beat of step 6. -/
def endExchange (s : State) : State :=
  if s.sec.kxStep = 5 && s.viaduct.kx.isEmpty then
    let (key, s1) := drawKey s
    sendBeat false (newNumbers key (stepTo 6 { s1 with sec := { s1.sec with kxStep := 0 } }))
  else s

/-- VIADUCT_FRAME_SEND (R173, R174): replays first; at 64 frames beyond the latest ACK a fill block. -/
def execViaductFrameSend (s : State) : Host.Outcome State Fault Refusal :=
  .next <|
    let v := s.viaduct
    if !alive s || s.faults.handover.isSome || !framesFlow s then s
    else
      match v.replay with
      | n :: rest =>
        match v.held.find? (fun h => h.num = n) with
        | some h => count 2578 (emit (.viaFrame h.num h.ack h.nak h.msgs h.key) { s with viaduct := { v with replay := rest } })
        | none => { s with viaduct := { v with replay := rest } }
      | [] =>
        if 64 < (v.txNum - v.peerAck).toNat then emit .viaFill s
        else
          let (v1, msgs) := frameMsgs s
          let h : HeldFrame := { num := v.txNum, ack := v.rxAck, nak := v.nak, msgs := msgs, key := viaKey s v.txNum, replays := 0 }
          endExchange (count 2576 (emit (.viaFrame h.num h.ack h.nak h.msgs h.key)
            { s with viaduct := { v1 with txNum := v.txNum + 1, nak := false, held := v.held ++ [h] } }))

/-! ### Receiving (R174, R176) -/

/-- ACK_NUM of the partner: the frames up to it need no replay. -/
def ackFrames (ack : W64) (s : State) : State :=
  let v := s.viaduct
  let a := (ack + 1).toNat
  if a < (v.peerAck + 1).toNat || v.txNum.toNat < a then s
  else
    { s with viaduct := { v with peerAck := ack, held := v.held.filter (fun h => decide (a ≤ h.num.toNat))
                                 replay := v.replay.filter (fun n => decide (a ≤ n.toNat)) } }

/-- A NAK: every held frame is sent again; a frame replayed four times already asks for a fast retrain of 200 ticks. -/
def nakFrames (s : State) : State :=
  let v := s.viaduct
  if !v.replay.isEmpty || v.held.isEmpty then s
  else if v.held.any (fun h => 4 ≤ h.replays) then
    raiseLevel 2923 .ce true v.retrains.toNat { s with viaduct := { v with fastRetrain := some (after 200 s) } }
  else { s with viaduct := { v with replay := v.held.map (·.num), held := v.held.map (fun h => { h with replays := h.replays + 1 }) } }

/-- SYNC of a frame block and of a fill block (Table 6-1). -/
def syncFrame : W16 := 0x7A5C
def syncFill : W16 := 0x7A5D

/-- The eight frame blocks are there, every codeword decodes and the tag checks. -/
def wholeFrame (f : ViaFrame) : Bool := f.decodes && f.tagOk && (f.syncs.filter (· = syncFrame)).length = 8

/-- Blocks of any other SYNC: each is discarded and counted (Table 6-1). -/
def strayBlocks (f : ViaFrame) : Nat := (f.syncs.filter (fun v => v ≠ syncFrame && v ≠ syncFill)).length

/-- VIADUCT_FRAME (R172, R174): a frame is accepted when it is whole, its tag checks and it is the next one. -/
def execViaductFrame (f : ViaFrame) (s : State) : Host.Outcome State Fault Refusal :=
  .next <|
    if !alive s || !framesFlow s then s
    else
      let good := wholeFrame f
      let s := countN 2581 (strayBlocks f) s
      let s1 := if good then ackFrames f.ackNum s else s
      let s2 := if good && f.nak then nakFrames s1 else s1
      let v := s2.viaduct
      if good && f.frameNum = v.rxAck + 1 then
        foldS (List.range f.reservedMsgs) (fun _ s => raise 2924 .uc s.viaduct.retrains.toNat (count 2579 s))
          (count 2577 { s2 with viaduct := { v with rxAck := f.frameNum } })
      else { s2 with viaduct := { v with nak := true } }

/-- The fast retrain has failed and the link is down (R174). -/
def retrainFails (s : State) : State :=
  let v := { s.viaduct with fastRetrain := none, retrains := satAdd s.viaduct.retrains 1 }
  let s1 := raiseLevel 2923 .ce false v.retrains.toNat { s with viaduct := v }
  if s.viaduct.up then linkDown s1
  else abortTraining { s1 with viaduct := { s1.viaduct with retrains := s.viaduct.retrains } }

/-- FAST_RETRAIN_TIMEOUT (R174). -/
def execFastRetrainTimeout (s : State) : Host.Outcome State Fault Refusal :=
  .next <|
    match s.viaduct.fastRetrain with
    | some d => if alive s && due d s then retrainFails s else s
    | none => s

/-! ### Training (R175, Table 6-3) -/

/-- Time message to the partner. -/
def sendTime (m : W32 → ViaMsg) (s : State) : State :=
  let t := s.viaduct.nextTag
  { s with viaduct := { s.viaduct with time := s.viaduct.time ++ [m t], nextTag := t + 1 } }

/-- One ECHO (R175 step 4). -/
def sendEcho (s : State) : State := sendTime (fun t => .echo t s.tsNow) s

/-- Half the median of the 64 round trips. -/
def medianHalf (l : List Nat) : Nat :=
  let sorted := l.foldl (fun acc a => acc.takeWhile (fun b => decide (b ≤ a)) ++ [a] ++ acc.dropWhile (fun b => decide (b ≤ a))) []
  (sorted.getD 31 0 + sorted.getD 32 0) / 4

/-- SHARE of this member: nonce and ephemeral key are drawn (R344). -/
def startExchange (s : State) : State :=
  let (n, s1) := drawFree s
  let r := PairKx.share (Config.freeBits n 256) (Config.freeBits n 776)
  { s1 with viaduct := { s1.viaduct with kx := [r] }, sec := { s1.sec with kxStep := 1, bundles := [] } }

/-- TRAIN_STEP_DONE: steps 1 to 3 end on the line; steps 4 to 6 end with their exchanges. A fast retrain repeats step 3,
and numbers and key go on under it. -/
def execTrainStepDone (reversed : Bool) (s : State) : Host.Outcome State Fault Refusal :=
  .next <|
    let v := s.viaduct
    if !alive s || s.faults.safe then s
    else if v.fastRetrain.any (fun d => due d s) then retrainFails s
    else if v.fastRetrain.isSome then
      let fresh := fun (h : HeldFrame) => { h with replays := 0 }
      let v1 := { v with fastRetrain := none, reversed := reversed, held := v.held.map fresh }
      raiseLevel 2923 .ce false v.retrains.toNat { s with viaduct := { v1 with replay := v.held.map (fun h => h.num) } }
    else if v.step = 1 then inTrainStep (stepTo 2) s
    else if v.step = 2 then inTrainStep (fun s => newNumbers 0 (stepTo 3 s)) s
    else if v.step = 3 then
      inTrainStep (fun s =>
        let s1 := stepTo 4 s
        sendEcho { s1 with viaduct := { s1.viaduct with reversed := reversed, samples := [] } }) s
    else s

/-- TRAIN_STEP_TIMEOUT (R175). -/
def execTrainStepTimeout (s : State) : Host.Outcome State Fault Refusal :=
  .next (if alive s && s.viaduct.step ≠ 0 && due s.viaduct.stepDeadline s then abortTraining s else s)

/-- TRAIN_RESTART (R175). -/
def execTrainRestart (s : State) : Host.Outcome State Fault Refusal :=
  .next <|
    match s.viaduct.restartAt with
    | some d => if alive s && due d s then startTraining { s with viaduct := { s.viaduct with restartAt := none } } else s
    | none => s

/-- TIME_ECHO: the reply. -/
def execTimeEcho (tag : W32) (tSend : W64) (s : State) : Host.Outcome State Fault Refusal :=
  .next <|
    if !alive s || s.faults.safe || !framesFlow s then s
    else ringDoorbell 6 0 { s with viaduct := { s.viaduct with time := s.viaduct.time ++ [.echoReply tag tSend] } }

/-- TIME_ECHO_REPLY (R175 step 4): after the 64th, FLIGHT_PS is half the median and step 5 begins. -/
def execTimeEchoReply (_tag : W32) (_tSend : W64) (roundTripPs : Nat) (s : State) : Host.Outcome State Fault Refusal :=
  .next <|
    if !alive s || s.viaduct.step ≠ 4 then s
    else inTrainStep (fun s =>
      let l := s.viaduct.samples ++ [roundTripPs]
      let s1 := ringDoorbell 6 0 { s with viaduct := { s.viaduct with samples := l } }
      if l.length < 64 then sendEcho s1
      else startExchange (stepTo 5 { s1 with viaduct := { s1.viaduct with flightPs := BitVec.ofNat 16 (medianHalf l) } })) s

/-! ### Pair key exchange (R344, R346, R338) -/

/-- BUNDLEs of every created context, then DONE. -/
def ownBundles (s : State) : List PairKx :=
  (s.sec.contexts.filter (fun c => c.2.st ≠ .free)).map (fun c =>
    let st : BitVec 2 := match c.2.st with
      | .free => 0
      | .created => 1
      | .keyed => 2
      | .bound => 3
    .bundle (Fin.ofNat 4096 c.1) st c.2.keyId c.2.modelKey c.2.cred c.2.owner c.2.hostmemOn true) ++ [.done]

/-- This member's own certificate record (R344 step 2). -/
def ownCert (s : State) : PairKx := .cert true (s.sec.lifecycle = .deployed) s.sec.fwSvn

/-- A record of the exchange; the steps run in order, and a bad signature or certificate aborts training. -/
def kxRecord (r : PairKx) (s : State) : State :=
  let k := s.sec.kxStep
  let send := fun (l : List PairKx) (k : Nat) (s : State) =>
    { s with viaduct := { s.viaduct with kx := s.viaduct.kx ++ l }, sec := { s.sec with kxStep := k } }
  let bad := fun (s : State) => abortTraining (raise 2926 .uc s.viaduct.retrains.toNat s)
  match r with
  | .share _ _ => if k = 1 then send [ownCert s] 2 s else s
  | .cert rootOk deployed svn =>
    if k ≠ 2 then s
    else if rootOk && deployed && s.sec.minSvn.toNat ≤ svn.toNat then send [.sig true] 3 s
    else bad s
  | .sig valid =>
    if k ≠ 3 then s
    else if valid then send (ownBundles s) 4 s
    else abortTraining s
  | .bundle ctx st keyId modelKey cred owner hostmem valid =>
    if k ≠ 4 || !valid then s
    else
      let b : Bundle := { ctx := ctx.val, keyId := keyId, modelKey := modelKey, cred := cred, owner := owner, hostmem := hostmem, state := st }
      { s with sec := { s.sec with bundles := s.sec.bundles.filter (fun o => o.ctx ≠ ctx.val) ++ [b] } }
  | .done =>
    if k ≠ 4 then s else endExchange (send [] 5 s)

/-- PAIR_KX_RECORD. -/
def execPairKxRecord (r : PairKx) (s : State) : Host.Outcome State Fault Refusal :=
  .next (if alive s && !s.faults.safe && s.viaduct.step = 5 then inTrainStep (kxRecord r) s else s)

/-! ### Time (R178) -/

/-- TIME_SYNC_INTERVAL: the member in role A sends SYNC. -/
def execTimeSyncInterval (s : State) : Host.Outcome State Fault Refusal :=
  .next <|
    if !alive s || s.faults.safe || !due s.pair.nextSync s then s
    else
      let s1 := { s with pair := { s.pair with nextSync := s.pair.nextSync + 1000 } }
      if s.viaduct.up && sends s && !s.pair.roleB then sendTime (fun _ => .sync s.tsNow) s1 else s1

/-- The time error of R178 in sevenths of a picosecond: a one-way trip is 5 st + 190 cyc(VD) + flight (Table 1-7). -/
def timeError (tSend : W64) (s : State) : Int :=
  7 * (((tSend.toNat : Int) - s.tsNow.toNat) * 10000 + 5 * s.pace.stagePs.toNat + s.viaduct.flightPs.toNat) + 190 * 4000

/-- TIME_SYNC: role B computes its error; slewing begins 100 ticks apart. -/
def execTimeSync (tSend : W64) (s : State) : Host.Outcome State Fault Refusal :=
  .next <|
    if !alive s || s.faults.safe || !s.viaduct.up || !s.pair.roleB then s
    else ringDoorbell 6 0 { s with pair := { s.pair with timeErr := timeError tSend s } }

/-- TS_SLEW: one TS_NOW increment inserted or deleted while |e| exceeds 10 ns. -/
def execTsSlew (s : State) : Host.Outcome State Fault Refusal :=
  .next <|
    let e := s.pair.timeErr
    if !alive s || s.faults.safe || !s.pair.roleB || !due s.pair.nextSlew s then s
    else
      let p := { s.pair with nextSlew := s.ticks + 100 }
      if 70000 < e then { s with tsNow := s.tsNow + 1, pair := { p with timeErr := e - 70000 } }
      else if e < -70000 then { s with pair := { p with timeErr := e + 70000, tsSkip := true } }
      else s

end Sys2Proof.Machine
end

