-- ==== Sys2Proof/Machine/PairJournal.lean ====
section
/-!
DEFINITION. Machine/PairJournal.lean: messages of the mirrored journal, shadow contexts, cursors and remote windows
(06_pair_and_guarantee.md R182, R183, R192, R195).
-/
namespace Sys2Proof.Machine

/-- Messages of a paired partner are taken. -/
def linked (s : State) : Bool := alive s && !s.faults.safe && s.viaduct.up

/-- This member is being brought up to date (R192). -/
def rejoiner (s : State) : Bool := s.pair.st = .rejoining && !s.pair.source

/-- Queues a reply in the JOURNAL or WINDOW class. -/
def replyJournal (m : ViaMsg) (s : State) : State :=
  { s with viaduct := { s.viaduct with journal := s.viaduct.journal ++ [m] } }
def replyWindow (m : ViaMsg) (s : State) : State :=
  { s with viaduct := { s.viaduct with window := s.viaduct.window ++ [m] } }

/-! ### Shadow contexts and operations (R181, R183, R338) -/

/-- An entry of the partner's context table; `was` is its former STATE: a new context gets a shadow without owner, and an
unloaded one loses its model here. -/
def contextArrived (n : Nat) (was : Byte) (s : State) : State :=
  let now := (jRead s (offContext n) 1).getD 0 0
  let c := ctxGet s n
  if now ≠ 0 && c.st = .free then setLock (ctxSet n { c with st := .created, owner := 0 } s)
  else if was = 2 && now = 1 && !(opIds s).any (fun j => (opGet s j).isOpen && (opGet s j).target.toNat = n) then shadowUnload n s
  else s

/-- An entry of the partner's long-operation table: its BURNISH and ROTATE_KEY run here too; a LOAD_MODEL that did not end
DONE leaves nothing here (R183). -/
def opArrived (j : Nat) (s : State) : State :=
  let cur := opGet s j
  if cur.st ≠ .free && !cur.shadow then s
  else
    match tableOp s j with
    | none => if cur.shadow && !cur.isOpen then opSet j { inc := cur.inc, used := true } s else s
    | some x =>
      if x.isOpen then
        if (x.opcode = 0x12 || x.opcode = 0x13) && cur.st = .free then startSweep j x (opSet j { x with shadow := true } s) else s
      else if cur.shadow && cur.isOpen && x.st = .cancelled then cancelOp j s
      else if x.opcode = 0x10 && x.st ≠ .done then shadowUnload x.target.toNat s
      else s

/-- The slot of the entry written counts its last unit while the sweep here still runs: the ACK waits for that sweep
(R183). -/
def sweepBehind (s : State) (j : Nat) : Bool :=
  let cur := opGet s j
  cur.shadow && cur.isOpen &&
    (match tableOp s j with
     | some x => x.isOpen && x.doneUnits = x.totalUnits
     | none => false)

/-- Numbers of the entries of `size` bytes in a table from `base` to `lim` that bytes `off` to `off + n - 1` touch. -/
def entriesIn (base lim size off n : Nat) : List Nat :=
  let lo := max base off
  let hi := min lim (off + n)
  if hi ≤ lo then []
  else (List.range ((hi - 1 - base) / size + 1 - (lo - base) / size)).map (fun k => (lo - base) / size + k)

/-- A stream-index entry of the partner: its record and its extent are taken, and the record has its INCARNATION (R145, R179). -/
def indexArrived (i : Nat) (s : State) : State :=
  let b := jRead s (offIndex i) 32
  if (streamGet s i).st ≠ .free || b.all (· = 0) then s
  else foreignSet i (if w32At b 4 = 0 then (0, 0) else (w32At b 0, w32At b 4))
    (streamSet i { inc := BitVec.ofNat 31 (w32At b 8), used := true } s)

/-- JOURNAL_WRITE (R182): the lines land at the same offset; what they change of shadows follows; the ACK goes back. The
header's serials stay this member's own, and a rejoiner takes the source's PAIR_EPOCH. -/
def journalWrite (tag : W32) (off : Nat) (lines : List LineData) (s : State) : State :=
  let n := 64 * lines.length
  let ctxs := (entriesIn 0x10000 0x50000 64 off n).map (fun c => (c, (jRead s (offContext c) 1).getD 0 0))
  let s1 := jWrite off (lines.flatMap lineBytes) s
  let s2 :=
    if off = 0 then
      let e : W32 := BitVec.ofNat 32 (w32At (jRead s1 0 64) 8)
      putHeader (if rejoiner s then { s1 with pair := { s1.pair with epoch := e } } else s1)
    else s1
  let s3 := foldS ctxs (fun c => contextArrived c.1 c.2) s2
  let ops := entriesIn 0x50000 0x70000 128 off n
  let before := ops.filter (fun j => (opGet s j).shadow)
  let s4 := foldS ops opArrived s3
  let copied := s4.pair.bytesCopied + (if rejoiner s then n else 0)
  let landed := s4.pair.landed.map (· ++ [(off / 64, lines.length)])
  let s5 := foldS (entriesIn 0x100000 0x900000 32 off n) indexArrived
    { s4 with pair := { s4.pair with bytesCopied := copied, landed := landed } }
  match before.find? (sweepBehind s5) with
  | some j => { s5 with pair := { s5.pair with ackHeld := s5.pair.ackHeld ++ [(tag, j)] } }
  | none => replyJournal (.jAck tag 0) s5

def execJournalWrite (tag : W32) (joff : W64) (lines : List LineData) (s : State) : Host.Outcome State Fault Refusal :=
  .next <|
    let off := joff.toNat
    if !linked s || !sends s then s
    else if off % 64 ≠ 0 || lines.isEmpty || 64 < lines.length || regionLines s * 64 < off + 64 * lines.length then count 2579 s
    else journalWrite tag off lines s

/-- JOURNAL_ACK (R182): what waited for it goes on. -/
def execJournalAck (tag : W32) (status : Byte) (s : State) : Host.Outcome State Fault Refusal :=
  .next <|
    if !linked s then s
    else
      let s := ringDoorbell 6 0 s
      match s.pair.acks.find? (fun a => a.1 = tag) with
      | none => s
      | some (_, w) =>
        createDone tag (ackDone w status { s with pair := { s.pair with acks := s.pair.acks.filter (fun a => a.1 ≠ tag) } })

/-- A whole chunk of the image for a shadow context (R136, R183): status 00h where it is placed. -/
def shadowChunk (ctx k : Nat) (data : List Byte) (s : State) : Nat × State :=
  let start : Except Nat (Model × State) :=
    if k = 0 then
      let s0 := undoLoad ctx s
      match headerOf data (65536 * w32At data 8) with
      | none => .error stFormat
      | some m =>
        let c := ctxGet s0 ctx
        if c.modelKey = 0 || c.keyId ≠ m.keyId then .error stKey
        else match reserveImage ctx m s0 with
          | none => .error stFull
          | some r => .ok r
    else match modelOf s ctx with
      | some m => .ok (m, s)
      | none => .error stState
  match start with
  | .error st => (st, undoLoad ctx s)
  | .ok (m, s1) =>
    let s2 := placeChunk ctx m k data (modelSet ctx (some m) s1)
    if k + 1 < m.chunkCount then (0, s2)
    else
      match (deployAll ctx m s2).map (bindImage ctx m) with
      | none => (stFormat, undoLoad ctx s2)
      | some (.error (st, _, _)) => (st, undoLoad ctx s2)
      | some (.ok (m2, s3)) => (0, ctxSet ctx { ctxGet s3 ctx with st := .bound } (modelSet ctx (some m2) s3))

/-- JOURNAL_IMAGE (R183, R192): one sixteenth of a chunk; the last one places the chunk. -/
def execJournalImage (tag : W32) (ctx : Ctx) (chunk : W32) (part : Fin 16) (units : List LineData) (s : State) :
    Host.Outcome State Fault Refusal :=
  .next <|
    if !linked s || !sends s then s
    else if units.length ≠ 64 then count 2579 s
    else
      let c : Nat := ctx
      let k := chunk.toNat
      let others := s.pair.imageParts.filter (fun p => !(p.1 = c && p.2.1 = k && p.2.2.1 = part.val))
      let parts := others ++ [(c, k, part.val, units)]
      let mine := fun (q : Nat) => parts.find? (fun p => p.1 = c && p.2.1 = k && p.2.2.1 = q)
      if (List.range 16).all (fun q => (mine q).isSome) then
        let data := (List.range 16).flatMap (fun q => ((mine q).map (fun p => p.2.2.2.flatMap lineBytes)).getD [])
        let rest := parts.filter (fun p => !(p.1 = c && p.2.1 = k))
        let (st, s1) := shadowChunk c k data { s with pair := { s.pair with imageParts := rest } }
        replyJournal (.jAck tag (BitVec.ofNat 8 st)) s1
      else replyJournal (.jAck tag 0) { s with pair := { s.pair with imageParts := parts } }

/-! ### Cursors (R182) -/

/-- One cursor entry in the index of this member's copy. -/
def cursorEntry (c : CursorEntry) (s : State) : State :=
  let i := c.handle.toNat % 2 ^ 18
  let b := jRead s (offIndex i) 32
  if (streamGet s i).st ≠ .free || w32At b 4 = 0 || c.handle.toNat / 2 ^ 32 ≠ w32At b 8 % 2 ^ 31 then s
  else if c.release then freeIndex i s
  else jWrite (offIndex i) (slice b 0 0xE ++ leBytes 2 c.deliverCq.toNat ++ leBytes 4 c.ackedSeq.toNat ++ slice b 0x14 12) s

def execCursorUpdate (entries : List CursorEntry) (s : State) : Host.Outcome State Fault Refusal :=
  .next (if linked s && sends s then foldS entries cursorEntry (ringDoorbell 6 0 s) else s)

/-- CURSOR_INTERVAL: streams whose ACKED_SEQ has changed, at most 256 entries a message. -/
def execCursorInterval (s : State) : Host.Outcome State Fault Refusal :=
  .next <|
    if !alive s || s.faults.safe || !due s.pair.nextCursor s then s
    else
      let es := s.pair.cursorDirty.map (·.2)
      let p := { s.pair with nextCursor := s.ticks + s.pair.cursorTicks.toNat, cursorDirty := [] }
      let msgs := (List.range ((es.length + 255) / 256)).map (fun g => ViaMsg.cursor ((es.drop (256 * g)).take 256))
      if !sends s then { s with pair := p }
      else { s with pair := p, viaduct := { s.viaduct with cursor := s.viaduct.cursor ++ msgs } }

/-! ### Remote windows (R195) -/

/-- The window of a request that passes its checks. -/
def windowIn (win : Byte) (ctx : Ctx) (off : W64) (lines : Nat) (write : Bool) (s : State) : Option Window :=
  let w : Window := tget (fun _ => {}) s.pair.winIn win.toNat
  if win.toNat < 64 && w.enable && (if write then w.write else w.read) && w.ctx.toNat = ctx.val && 1 ≤ lines && lines ≤ 64 &&
      decide (off.toNat + 64 * lines ≤ w.size.toNat * unit2M) then some w
  else none

/-- A refused window request. -/
def windowRefused (win : Byte) (s : State) : State := count 2580 (raise 2929 .uc win.toNat s)

/-- Reads `n` lines at a DPA through the homes, as an agent that caches nothing. -/
def windowLines (ctx : Ctx) (dpa : Nat) : Nat → State → List LineData × Bool × State
  | 0, s => ([], false, s)
  | n + 1, s =>
    let (ln, s1) := readLine (.window ctx) dpa s
    let (rest, bad, s2) := windowLines ctx (dpa + 64) n s1
    (ln.data :: rest, bad || ln.poison, s2)

def execWindowRead (tag : W32) (win : Byte) (ctx : Ctx) (offset : W64) (lines : W16) (s : State) : Host.Outcome State Fault Refusal :=
  .next <|
    if !linked s then s
    else
      match windowIn win ctx offset lines.toNat false s with
      | none => replyWindow (.wReadData tag 1 (List.replicate lines.toNat 0)) (windowRefused win s)
      | some w =>
        let (ls, bad, s1) := windowLines ctx ((w.base.toNat * unit2M + offset.toNat) / 64 * 64) lines.toNat s
        replyWindow (.wReadData tag (if bad then 2 else 0) ls) s1

def execWindowWrite (tag : W32) (win : Byte) (ctx : Ctx) (offset firstBe lastBe : W64) (lines : List LineData) (s : State) :
    Host.Outcome State Fault Refusal :=
  .next <|
    if !linked s then s
    else
      match windowIn win ctx offset lines.length true s with
      | none => replyWindow (.wWriteAck tag 1) (windowRefused win s)
      | some w =>
        let dpa := (w.base.toNat * unit2M + offset.toNat) / 64 * 64
        let last := lines.length - 1
        let mask := fun (k : Nat) => if k = 0 then (if last = 0 then firstBe &&& lastBe else firstBe) else if k = last then lastBe else BitVec.allOnes 64
        let t := foldS lines.zipIdx (fun (d, k) => storeFor ctx.val (dpa + 64 * k) (.window ctx) d (mask k) false) s
        let n := s.coh.posted.length
        if t.coh.posted.length = n then replyWindow (.wWriteAck tag 0) t
        else { t with coh := { t.coh with posted := t.coh.posted.mapIdx (fun i p => if i < n then p else { p with ack := some tag }) } }

/-- WINDOW_READ_DATA: a poisoned or refused part ends the stitch with POISON, or poisons the descriptor's chunk. -/
def execWindowReadData (tag : W32) (status : Byte) (lines : List LineData) (s : State) : Host.Outcome State Fault Refusal :=
  .next <|
    if !linked s then s
    else
      match s.pair.winReqs.find? (fun w => w.1 = tag) with
      | none => s
      | some (_, u) =>
        let s1 := { s with pair := { s.pair with winReqs := s.pair.winReqs.filter (fun w => w.1 ≠ tag) } }
        match u with
        | .engine e =>
          match xferGet s1 e with
          | some x => xferSet e (some { x with poison := x.poison || status ≠ 0 }) s1
          | none => s1
        | .read r i d p =>
          if status ≠ 0 then haltAt r i 2 s1
          else runMod r (fun x => { x with winData := x.winData ++ [(d, p, lines.flatMap lineBytes)] }) s1
        | .signal _ _ | .write _ => s1

/-- WINDOW_WRITE_ACK: a SIGNAL across the pair is complete (R102). A refused write was dropped by the partner. -/
def execWindowWriteAck (tag : W32) (_status : Byte) (s : State) : Host.Outcome State Fault Refusal :=
  .next <|
    if !linked s then s
    else
      match s.pair.winReqs.find? (fun w => w.1 = tag) with
      | none => s
      | some (_, u) =>
        let s1 := { s with pair := { s.pair with winReqs := s.pair.winReqs.filter (fun w => w.1 ≠ tag) } }
        match u with
        | .signal r i => finish r i 0 0 s1
        | _ => s1

end Sys2Proof.Machine
end

