-- ==== Sys2Proof/Machine/Power.lean ====
section
/-!
DEFINITION. Machine/Power.lean: power-on, MOD_RST_N, start-up, rails, thermal sensing, the test controller
(14_power_and_startup.md).
-/
namespace Sys2Proof.Machine

/-! ### Power-on and MOD_RST_N (R357, R360, R361) -/

/-- Every state at its power-on value, the key store filled anew (R340), MOD_RST_N still low; levels at the pins stay, and so
do the fuses. -/
def powerOn (s : State) : State :=
  { pending := s.pending, out := s.out, ticks := s.ticks, freeCtr := s.freeCtr
    sec := { lifecycle := s.sec.lifecycle, minSvn := s.sec.minSvn, hostKey := s.sec.draw, serviceKey := s.sec.draw + 1
             draw := s.sec.draw + 2 }
    pair := { present := s.pair.present, nextBeat := s.ticks + 100, nextSync := s.ticks + 1000 }
    girth := { ports := portsIn s }
    faults := { nextSweep := s.ticks + 1000 }
    power := { phase := .inReset, modRstN := false, perstN := s.power.perstN, stepStart := s.ticks
               lastReading := s.ticks }
    pace := { nextUpdate := s.ticks + 100 }
    xl := { nextDecay := s.ticks + 100000000 } }

/-- POWER_ON: a chip reset with CAUSE 1 (R360, Table 17-2). -/
def execPowerOn (s : State) : Host.Outcome State Fault Refusal := .next (trace 0x05 uObserve 1 0 (powerOn s))

/-- MOD_RST_N_FALL: chip reset; CAUSE tells the safe state apart (Table 14-7). -/
def execModRstNFall (s : State) : Host.Outcome State Fault Refusal :=
  .next <|
    if s.power.modRstN then
      chipReset (if s.faults.safe then 4 else 2) { s with power := { s.power with modRstN := false } }
    else s

/-- MOD_RST_N_RISE: start-up begins (R353, R357). -/
def execModRstNRise (s : State) : Host.Outcome State Fault Refusal :=
  .next <|
    if s.power.modRstN then s
    else { s with power := { s.power with modRstN := true, phase := .starting, step := 1, stepStart := s.ticks } }

/-! ### Start-up (R357 to R359, R362, Table 14-3) -/

/-- Bound of a step in TS ticks (Table 14-3). -/
def stepBound (cold : Bool) (step : Nat) : Nat :=
  match step with
  | 1 => 10000
  | 2 => 20000000
  | 3 => 5000000
  | 4 => 1000000
  | 5 => if cold then 8000000 else 1000
  | _ => 1000000

/-- Tick at which the step in progress overruns. -/
def stepDue (s : State) : Nat := s.power.stepStart + 1 + stepBound s.power.cold s.power.step

/-- The next step begins; a trace record names the one that ended. -/
def nextStep (s : State) : State :=
  trace 0x06 uObserve s.power.step (s.ticks - s.power.stepStart)
    { s with power := { s.power with step := s.power.step + 1, stepStart := s.ticks } }

/-- What a RAIL_READ returns is recorded (Table 14-7). -/
def railsRead (r : RailRead) (s : State) : State :=
  { s with power := { s.power with railOk := r.railOk, alert := r.alert, alertCode := r.code, vcoreMeasMv := r.vcoreMv, pmRead := none } }

/-- Step 3: a domain that has not reached ON is fenced. -/
def fenceLate (d : Nat) (s : State) : State :=
  let s1 := pdSet d { pdGet s d with st := .fenced } s
  if 320 ≤ d && d < 324 then startQmove (d - 320) s1 else s1

/-- Steps 4 and 5 after a chip reset that kept memory: units `lo` to `lo + n - 1` leave self-refresh. -/
def wakeUnits (lo n : Nat) (s : State) : State :=
  { s with store := { s.store with selfRefresh := s.store.selfRefresh.filter (fun e => e.1 < lo || lo + n ≤ e.1) } }

/-- Step 5: stacks that train; a start that restores training values has none for a stack that failed before. -/
def trainedStacks (failed : BitVec 4) (s : State) : BitVec 4 :=
  if s.power.cold then ~~~failed else s.power.retained.trained &&& ~~~failed

/-- The default region table (Table 4-7). -/
def defaultRegions : Tbl Region :=
  [(0, { valid := true, owner := 1, pierLocal := true, dpaBase := 0, size := 30208, pierFirst := 0, pierCount := 256 }),
   (1, { valid := true, owner := 1, pierLocal := true, dpaBase := 32768, size := 98304, pierFirst := 256, pierCount := 64 }),
   (61, { valid := true, owner := 2, granule := 1, mirror := true, use := 1, dpaBase := 30208, localBase := 118, size := 512
          pierFirst := 0, pierCount := 256 }),
   (62, { valid := true, owner := 2, granule := 1, dpaBase := 30720, localBase := 124, size := 1024
          pierFirst := 0, pierCount := 256 })]

/-- PREV_PAIR_STATE is SOLO or DEGRADED (R362 condition 1). -/
def servedAlone (s : State) : Bool := s.power.retained.prevPairState = 0 || s.power.retained.prevPairState = 3

/-- The region header carries MAGIC and OWN_SERIAL (R362 condition 2). -/
def headerOwn (s : State) : Bool :=
  let b := jRead s 0 64
  (jRegion s).isSome && b.take 4 = [0x4B, 0x4A, 0x4E, 0x4C] && le64 (b.drop 0x10) = Config.serial

/-- PAIR_EPOCH and PARTNER_SERIAL follow the region header. -/
def headerRead (s : State) : State :=
  let b := jRead s 0 64
  jTouch 0 64 { s with pair := { s.pair with epoch := le32 (b.drop 8), partnerSerial := le64 (b.drop 0x18) } }

/-- The journal is discarded at this start. -/
def startDiscard (s : State) : State :=
  let s1 := discardJournal s
  let r := { s1.power.retained with regions := none, spares := [] }
  { s1 with power := { s1.power with retained := r, journalDiscarded := true } }

/-- Recovery is judged (R362): a member that served alone recovers its own journal; one that was mirrored keeps it for the
handshake, if there is to be one; else the journal is discarded. At power-on it is empty. A member keeps the role it had, and
one that was in SOLO has the role of the half that holds all it serves (R184). -/
def judgeJournal (s : State) : State :=
  let prev := s.power.retained.prevPairState
  if s.power.cold then putHeader s
  else if servedAlone s then
    if s.power.retained.regions.isSome && headerOwn s then
      let s1 := recoverJournal (headerRead s)
      let s2 := { s1 with power := { s1.power with recovered := true } }
      let half := if prev = 0 then inHalf true s2 && !inHalf false s2 else s2.pair.roleB
      putHeader { s2 with pair := { s2.pair with roleB := s2.pair.st ≠ .solo && half } }
    else startDiscard s
  else if (prev = 2 || prev = 4) && s.pair.st = .pairing && headerOwn s then
    let s1 := headerRead s
    { s1 with pair := { s1.pair with journalKept := true } }
  else startDiscard s

/-- Step 6: route bank 0 and the directories are clear, FORCED_HW is set, the region table is written, recovery is judged;
then the host port opens, and girth ports and the viaduct start. -/
def endStep6 (s : State) : State :=
  let ret := s.power.retained
  let (table, spares) := match ret.regions with
    | some t => if servedAlone s && !s.power.cold then (t, ret.spares) else (defaultRegions, [])
    | none => (defaultRegions, [])
  let s0 := { s with store := { s.store with regions := table, spares := spares }, coh := { s.coh with dir := [], forcedHw := true } }
  let fenced := (List.range 320).filter (fun p => (pdGet s0 p).st = .fenced)
  let s1 := restamp 10 (nextStep (judgeJournal (foldS fenced rebuildFor s0)))
  let s2 := { s1 with power := { s1.power with phase := .served }, host := { s1.host with memActive := true, memInfo := true } }
  let auto := (List.range 6).filter (fun n => (portGet s2 n).auto && (portGet s2 n).present)
  startTraining (foldS auto gpStart s2)

/-- START_STEP_END. -/
def execStartStepEnd (ok : Bool) (rails : RailRead) (failedStacks : BitVec 4) (late : List (Fin 332)) (s : State) :
    Host.Outcome State Fault Refusal :=
  .next <|
    if s.power.phase ≠ .starting || due (stepDue s) s then s
    else
      match s.power.step with
      | 1 => nextStep (railsRead rails (emit .pmRead s))
      | 2 =>
        if ok && s.sec.minSvn.toNat ≤ Config.manifestSvn.toNat then
          nextStep { s with sec := { s.sec with fwSvn := Config.manifestSvn } }
        else raise 2941 .ft 0 s
      | 3 =>
        let s1 := nextStep (foldS (late.map (·.val)) fenceLate s)
        bootUp { s1 with milell := { s1.milell with booted := true } }
      | 4 => nextStep (if s.power.cold then s else wakeUnits 0 1024 s)
      | 5 =>
        let good := trainedStacks failedStacks s
        let bad := (List.range 4).filter (fun i => !good.getLsbD i)
        let s1 := wakeUnits 1024 64 s
        let ret := if s.power.cold then { s.power.retained with trained := good } else s.power.retained
        nextStep (foldS bad (fun i => raise (2852 + 4 * i) .uc 0) { s1 with power := { s1.power with retained := ret } })
      | _ => endStep6 s

/-- START_STEP_TIMEOUT (R358). -/
def execStartStepTimeout (s : State) : Host.Outcome State Fault Refusal :=
  .next <|
    if s.power.phase = .starting && due (stepDue s) s then
      raise 2941 .ft 0 { s with power := { s.power with phase := .failed, failStep := BitVec.ofNat 3 s.power.step } }
    else s

/-- An AUTO port's start has ended: UP, or failed. -/
def autoEnded (s : State) : Bool :=
  (List.range 6).all (fun n =>
    let p := portGet s n
    !p.auto || !p.present || (p.st ≠ .training && p.st ≠ .init))

/-- STARTUP_DONE (R359); a manifest with COMMIT_SVN raises the fused minimum (R332). -/
def execStartupDone (s : State) : Host.Outcome State Fault Refusal :=
  .next <|
    if s.power.phase = .served && !s.power.done && autoEnded s && s.pair.st ≠ .pairing then
      let s1 := { s with power := { s.power with done := true } }
      let s2 := if s1.coh.qmoves.isEmpty && s1.coh.sweeping.isEmpty then setForcedHw false s1 else s1
      if Config.commitSvn && s2.sec.minSvn.toNat < s2.sec.fwSvn.toNat then
        restamp 2 { s2 with sec := { s2.sec with minSvn := s2.sec.fwSvn } }
      else s2
    else s

/-! ### Rails and the PM link (R353, R354) -/

/-- A read the target has not answered in time: source 2936, and the next need reads again (R354). -/
def pmReadMissed (s : State) : State :=
  match s.power.pmRead with
  | some d => if due d s then raise 2936 .uc s.pace.vcoreMv.toNat { s with power := { s.power with pmRead := none } } else s
  | none => s

/-- RAIL_ALERT: RAIL_READ answers it; what the read returns is recorded, and a trace record emitted. -/
def execRailAlert (answer : Option RailRead) (s : State) : Host.Outcome State Fault Refusal :=
  .next <|
    if !alive s then s
    else
      let s := pmReadMissed s
      let s1 := if s.power.pmRead.isNone then emit .pmRead s else s
      match answer with
      | none =>
        if s.power.pmRead.isSome then s1
        else { s1 with power := { s1.power with pmRead := some (after 20000 s) } }
      | some r => trace 0x07 uObserve (r.railOk.toNat + 256 * r.alert.toNat + 65536 * r.code.toNat) 0 (railsRead r s1)

/-- PM_READ_TIMEOUT: retried at the next need. -/
def execPmReadTimeout (s : State) : Host.Outcome State Fault Refusal :=
  .next (if alive s then pmReadMissed s else s)

/-- VCORE_OUT_OF_RANGE: source 2935 holds while VCORE is outside 0.70 to 0.80 V (R26, R353). -/
def execVcoreOutOfRange (mv : W16) (s : State) : Host.Outcome State Fault Refusal :=
  .next <|
    if !alive s then s
    else raiseLevel 2935 .uc (mv.toNat < 700 || 800 < mv.toNat) mv.toNat s

/-! ### Thermal sensing (R355) -/

/-- TJ_C of a reading (Table 1-2). -/
def tjOf (t : Int) : Byte := BitVec.ofNat 8 (min 255 t.toNat)

/-- The hottest of the readings held. -/
def hottest (l : List (Nat × Int)) (t : Int) : Int := l.foldl (fun m x => max m x.2) t

/-- 1,000 ticks without a reading: source 2938, TJ_C holds, the fast refresh rate until readings resume. -/
def thermalMissed (s : State) : State :=
  if !s.power.thermalLost && due (s.power.lastReading + 1 + 1000) s then
    raise 2938 .uc s.pace.tjC.toNat { s with power := { s.power with thermalLost := true } }
  else s

/-- THERMAL_READING: TJ_C takes the hottest reading of the last 1,000 ticks; source 2934 is CE from 95 °C, UC outside the
range of R26. -/
def execThermalReading (tj : Int) (s : State) : Host.Outcome State Fault Refusal :=
  .next <|
    if !alive s then s
    else
      let s := thermalMissed s
      let recent := s.power.readings.filter (fun r => s.ticks < r.1 + 1000) ++ [(s.ticks, tj)]
      let t := hottest recent tj
      let s1 := { s with power := { s.power with readings := recent, lastReading := s.ticks, thermalLost := false }
                         pace := { s.pace with tjC := tjOf t } }
      let d := (tjOf t).toNat
      raiseLevel 2934 .uc (t < 0 || 105 < t) d (raiseLevel 2934 .ce (95 ≤ t) d s1)

/-- THERMAL_TIMEOUT. -/
def execThermalTimeout (s : State) : Host.Outcome State Fault Refusal := .next (if alive s then thermalMissed s else s)

/-! ### Boundary scan (R331, R366) -/

/-- Instructions that take the boundary pins. -/
def takesPins : JtagInstr → Bool
  | .extest | .clamp | .highz | .extestPulse | .extestTrain => true
  | .bypass | .idcode | .sample | .other _ => false

/-- JTAG_INSTRUCTION: in the deployed and retired states every other instruction acts as BYPASS; one that takes the pins
fails every port's link. -/
def execJtagInstruction (i : JtagInstr) (s : State) : Host.Outcome State Fault Refusal :=
  .next <|
    let closed := s.sec.lifecycle = .deployed || s.sec.lifecycle = .retired
    let j : JtagInstr := match i with
      | .other c => if closed then .bypass else .other c
      | _ => i
    let s1 := { s with power := { s.power with jtag := j } }
    if !takesPins j || !s.power.modRstN then s1
    else
      let s2 := raise 2939 .uc 0 s1
      let s3 := if s2.host.phyUp then linkFalls 5 s2 else s2
      let s4 := foldS (List.range 6) fencePort s3
      if s4.viaduct.up || s4.viaduct.step ≠ 0 then linkDown s4 else s4

end Sys2Proof.Machine
end

