-- ==== Sys2Proof/Machine/Trestle.lean ====
section
/-!
DEFINITION. Machine/Trestle.lean: the trestle cores' dispatch (01_stages_and_clocks.md R38, R39, Table 1-14).
-/
namespace Sys2Proof.Machine

/-- A queue pair's entry that core `c` may fetch. -/
def fetchWaits (c : Nat) (s : State) : Bool :=
  !s.service.quiesced && !fetchHeld s && s.host.qps.any (fun p => schedCore p.2.ctx.toNat = c && p.2.fetchable)

/-- The handler that core `c` last dispatched still has items to serve, so it has not run to completion (R38). -/
def handlerRuns (c : Nat) (s : State) : Bool :=
  match (trestleGet s c).last with
  | some (.bit b) =>
    if c = 0 then b = 0 && repliesOpen s
    else if c = 1 then core1Waits s b
    else decide (c < 6 && b = 0) && fetchWaits c s
  | _ => false

/-- What the handler of a bit does in the dispatch itself: core 7 serves the bind or unbind that waits (R206). The items of the
other bits have commands of their own (notes/assumptions/67.md). -/
def runHandler (c b : Nat) (s : State) : State :=
  match c, b, s.host.bindReq with
  | 7, 0, some r => serveBind r s
  | _, _, _ => s

/-- TRESTLE_DISPATCH (R38, R39): a core whose handler still runs dispatches nothing; else the fault trap first, then doorbell
bits in ascending number. -/
def execTrestleDispatch (core : Core) (s : State) : Host.Outcome State Fault Refusal :=
  .next <|
    if !coreRuns core.val s || handlerRuns core.val s then s
    else if core.val = 0 && !s.faults.traps.isEmpty then takeTrap s
    else
      match findBelow 64 (trestleGet s core.val).doorbell.getLsbD with
      | none => s
      | some b => runHandler core.val b (dispatchBit core.val b s)

end Sys2Proof.Machine
end

