-- ==== Sys2Proof/Machine/Dispatch.lean ====
section
/-!
DEFINITION. Dispatch.lean: one arm per command (spec/opcode_table.json); each arm is one call of the command's meaning.
-/
namespace Sys2Proof.Machine

def exec (i : Instr) (s : State) : Host.Outcome State Fault Refusal :=
  match i with
  | .paceUpdate counts => Sys2Proof.Machine.execPaceUpdate counts s
  | .paceTargetWrite value => Sys2Proof.Machine.execPaceTargetWrite value s
  | .trimInterval => Sys2Proof.Machine.execTrimInterval s
  | .trimAck => Sys2Proof.Machine.execTrimAck s
  | .trimRefused => Sys2Proof.Machine.execTrimRefused s
  | .trimTimeout => Sys2Proof.Machine.execTrimTimeout s
  | .trestleDispatch core => Sys2Proof.Machine.execTrestleDispatch core s
  | .arrayStep pier weight operand rowDst => Sys2Proof.Machine.execArrayStep pier weight operand rowDst s
  | .codebookLoad pier entries => Sys2Proof.Machine.execCodebookLoad pier entries s
  | .skiveFrameDecode pier slot stitch header scales payload => Sys2Proof.Machine.execSkiveFrameDecode pier slot stitch header scales payload s
  | .matvec run idx => Sys2Proof.Machine.execMatvec run idx s
  | .matmul run idx => Sys2Proof.Machine.execMatmul run idx s
  | .attend run idx => Sys2Proof.Machine.execAttend run idx s
  | .norm run idx => Sys2Proof.Machine.execNorm run idx s
  | .elem run idx => Sys2Proof.Machine.execElem run idx s
  | .reduce run idx arrival => Sys2Proof.Machine.execReduce run idx arrival s
  | .route run idx => Sys2Proof.Machine.execRoute run idx s
  | .sample run idx => Sys2Proof.Machine.execSample run idx s
  | .gather run idx => Sys2Proof.Machine.execGather run idx s
  | .scatter run idx => Sys2Proof.Machine.execScatter run idx s
  | .offload run idx => Sys2Proof.Machine.execOffload run idx s
  | .barrier run stitch => Sys2Proof.Machine.execBarrier run stitch s
  | .waitReread run stitch => Sys2Proof.Machine.execWaitReread run stitch s
  | .signal run stitch => Sys2Proof.Machine.execSignal run stitch s
  | .halt run stitch code pier => Sys2Proof.Machine.execHalt run stitch code pier s
  | .stitchTimeout run idx pier => Sys2Proof.Machine.execStitchTimeout run idx pier s
  | .offloadTimeout port tag => Sys2Proof.Machine.execOffloadTimeout port tag s
  | .rawRunEnd run => Sys2Proof.Machine.execRawRunEnd run s
  | .memoryRead dpa req errs => Sys2Proof.Machine.execMemoryRead dpa req errs s
  | .memoryWrite dpa req data mask poison => Sys2Proof.Machine.execMemoryWrite dpa req data mask poison s
  | .regionValidSet n base => Sys2Proof.Machine.execRegionValidSet n base s
  | .regionValidClear n => Sys2Proof.Machine.execRegionValidClear n s
  | .regionLock => Sys2Proof.Machine.execRegionLock s
  | .mirrorRebuildEnd => Sys2Proof.Machine.execMirrorRebuildEnd s
  | .patrolScrub pier errs => Sys2Proof.Machine.execPatrolScrub pier errs s
  | .refresh cmd => Sys2Proof.Machine.execRefresh cmd s
  | .selfRefreshEntry unit => Sys2Proof.Machine.execSelfRefreshEntry unit s
  | .selfRefreshExit unit => Sys2Proof.Machine.execSelfRefreshExit unit s
  | .sqTailWrite qp be value => Sys2Proof.Machine.execSqTailWrite qp be value s
  | .sqFetch qp => Sys2Proof.Machine.execSqFetch qp s
  | .submit qp => Sys2Proof.Machine.execSubmit qp s
  | .suspend qp => Sys2Proof.Machine.execSuspend qp s
  | .resume qp => Sys2Proof.Machine.execResume qp s
  | .cancel qp => Sys2Proof.Machine.execCancel qp s
  | .query qp => Sys2Proof.Machine.execQuery qp s
  | .setPriority qp => Sys2Proof.Machine.execSetPriority qp s
  | .loadModel qp => Sys2Proof.Machine.execLoadModel qp s
  | .unload qp => Sys2Proof.Machine.execUnload qp s
  | .burnish qp => Sys2Proof.Machine.execBurnish qp s
  | .rotateKey qp => Sys2Proof.Machine.execRotateKey qp s
  | .migrate qp => Sys2Proof.Machine.execMigrate qp s
  | .longopUnit slot chunk tagOk => Sys2Proof.Machine.execLongopUnit slot chunk tagOk s
  | .batchBoundary batch => Sys2Proof.Machine.execBatchBoundary batch s
  | .recordFlush record => Sys2Proof.Machine.execRecordFlush record s
  | .recordWrite record => Sys2Proof.Machine.execRecordWrite record s
  | .deadlineCheck core => Sys2Proof.Machine.execDeadlineCheck core s
  | .kvSpillDone record page => Sys2Proof.Machine.execKvSpillDone record page s
  | .kvReadbackDone record page tagOk => Sys2Proof.Machine.execKvReadbackDone record page tagOk s
  | .viaductFrame f => Sys2Proof.Machine.execViaductFrame f s
  | .fastRetrainTimeout => Sys2Proof.Machine.execFastRetrainTimeout s
  | .trainStepDone reversed => Sys2Proof.Machine.execTrainStepDone reversed s
  | .trainStepTimeout => Sys2Proof.Machine.execTrainStepTimeout s
  | .trainRestart => Sys2Proof.Machine.execTrainRestart s
  | .pairKxRecord r => Sys2Proof.Machine.execPairKxRecord r s
  | .journalWrite tag joff lines => Sys2Proof.Machine.execJournalWrite tag joff lines s
  | .journalAck tag status => Sys2Proof.Machine.execJournalAck tag status s
  | .journalImage tag ctx chunk part units => Sys2Proof.Machine.execJournalImage tag ctx chunk part units s
  | .cursorUpdate entries => Sys2Proof.Machine.execCursorUpdate entries s
  | .cursorInterval => Sys2Proof.Machine.execCursorInterval s
  | .windowRead tag win ctx offset lines => Sys2Proof.Machine.execWindowRead tag win ctx offset lines s
  | .windowReadData tag status lines => Sys2Proof.Machine.execWindowReadData tag status lines s
  | .windowWrite tag win ctx offset firstBe lastBe lines => Sys2Proof.Machine.execWindowWrite tag win ctx offset firstBe lastBe lines s
  | .windowWriteAck tag status => Sys2Proof.Machine.execWindowWriteAck tag status s
  | .timeSyncInterval => Sys2Proof.Machine.execTimeSyncInterval s
  | .timeSync tSend => Sys2Proof.Machine.execTimeSync tSend s
  | .tsSlew => Sys2Proof.Machine.execTsSlew s
  | .timeEcho tag tSend => Sys2Proof.Machine.execTimeEcho tag tSend s
  | .timeEchoReply tag tSend roundTripPs => Sys2Proof.Machine.execTimeEchoReply tag tSend roundTripPs s
  | .heartbeatInterval => Sys2Proof.Machine.execHeartbeatInterval s
  | .healthBeat b pairMode partnerSerial tsNow => Sys2Proof.Machine.execHealthBeat b pairMode partnerSerial tsNow s
  | .presenceLossTimeout => Sys2Proof.Machine.execPresenceLossTimeout s
  | .bHoldoffExpiry => Sys2Proof.Machine.execBHoldoffExpiry s
  | .fenceWaitExpiry => Sys2Proof.Machine.execFenceWaitExpiry s
  | .streamTakeover record => Sys2Proof.Machine.execStreamTakeover record s
  | .pairWaitExpiry => Sys2Proof.Machine.execPairWaitExpiry s
  | .remirrorSlow => Sys2Proof.Machine.execRemirrorSlow s
  | .pairRelease => Sys2Proof.Machine.execPairRelease s
  | .pairDiscard => Sys2Proof.Machine.execPairDiscard s
  | .pbCtlWrite value => Sys2Proof.Machine.execPbCtlWrite value s
  | .prtPrsntN level => Sys2Proof.Machine.execPrtPrsntN level s
  | .prtAtnbtnN => Sys2Proof.Machine.execPrtAtnbtnN s
  | .linkUp width speed flit256 => Sys2Proof.Machine.execLinkUp width speed flit256 s
  | .linkRetrain ok => Sys2Proof.Machine.execLinkRetrain ok s
  | .linkDrop => Sys2Proof.Machine.execLinkDrop s
  | .perst => Sys2Proof.Machine.execPerst s
  | .hotReset => Sys2Proof.Machine.execHotReset s
  | .cxlReset => Sys2Proof.Machine.execCxlReset s
  | .flr => Sys2Proof.Machine.execFlr s
  | .flrComplete => Sys2Proof.Machine.execFlrComplete s
  | .bmeClear => Sys2Proof.Machine.execBmeClear s
  | .bmeSet => Sys2Proof.Machine.execBmeSet s
  | .d3hotEntry => Sys2Proof.Machine.execD3hotEntry s
  | .hdmCommit n => Sys2Proof.Machine.execHdmCommit n s
  | .hostMemAccess hpa req => Sys2Proof.Machine.execHostMemAccess hpa req s
  | .biconflict line tag => Sys2Proof.Machine.execBiconflict line tag s
  | .bar4Access offset write => Sys2Proof.Machine.execBar4Access offset write s
  | .unsupportedRequest r => Sys2Proof.Machine.execUnsupportedRequest r s
  | .expansionRomRead offset data => Sys2Proof.Machine.execExpansionRomRead offset data s
  | .flashReadTimeout => Sys2Proof.Machine.execFlashReadTimeout s
  | .ctxBind value => Sys2Proof.Machine.execCtxBind value s
  | .ctxUnbind value => Sys2Proof.Machine.execCtxUnbind value s
  | .bindLockoutExpiry ctx => Sys2Proof.Machine.execBindLockoutExpiry ctx s
  | .qpArm qp word3 => Sys2Proof.Machine.execQpArm qp word3 s
  | .qpDisarm qp => Sys2Proof.Machine.execQpDisarm qp s
  | .qpDisarmComplete qp => Sys2Proof.Machine.execQpDisarmComplete qp s
  | .cqHeadWrite qp be value => Sys2Proof.Machine.execCqHeadWrite qp be value s
  | .completionWrite qp => Sys2Proof.Machine.execCompletionWrite qp s
  | .coalTimeout qp => Sys2Proof.Machine.execCoalTimeout qp s
  | .msixUnmask vector => Sys2Proof.Machine.execMsixUnmask vector s
  | .intxClear word ones => Sys2Proof.Machine.execIntxClear word ones s
  | .hostReadCompletion tag status data => Sys2Proof.Machine.execHostReadCompletion tag status data s
  | .completionTimeout tag => Sys2Proof.Machine.execCompletionTimeout tag s
  | .lateCompletion tag => Sys2Proof.Machine.execLateCompletion tag s
  | .tagQuarantineExpiry tag => Sys2Proof.Machine.execTagQuarantineExpiry tag s
  | .ideFailure stream => Sys2Proof.Machine.execIdeFailure stream s
  | .rdS slot ctx line txn => Sys2Proof.Machine.execRdS slot ctx line txn s
  | .rdX slot ctx line txn => Sys2Proof.Machine.execRdX slot ctx line txn s
  | .upg slot ctx line txn => Sys2Proof.Machine.execUpg slot ctx line txn s
  | .rdCur r ctx line txn => Sys2Proof.Machine.execRdCur r ctx line txn s
  | .wb slot line data poison => Sys2Proof.Machine.execWb slot line data poison s
  | .cevict slot line => Sys2Proof.Machine.execCevict slot line s
  | .wrInv r ctx line data mask poison txn => Sys2Proof.Machine.execWrInv r ctx line data mask poison txn s
  | .flush line => Sys2Proof.Machine.execFlush line s
  | .snpS copy line => Sys2Proof.Machine.execSnpS copy line s
  | .snpInv copy line => Sys2Proof.Machine.execSnpInv copy line s
  | .snpCur copy line => Sys2Proof.Machine.execSnpCur copy line s
  | .snpClean slot line => Sys2Proof.Machine.execSnpClean slot line s
  | .rspI slot line => Sys2Proof.Machine.execRspI slot line s
  | .rspIWb slot line => Sys2Proof.Machine.execRspIWb slot line s
  | .rspS slot line dirty poison => Sys2Proof.Machine.execRspS slot line dirty poison s
  | .rspFwd slot line data dirty poison => Sys2Proof.Machine.execRspFwd slot line data dirty poison s
  | .fwdData port route rtxn data poison => Sys2Proof.Machine.execFwdData port route rtxn data poison s
  | .cmp line => Sys2Proof.Machine.execCmp line s
  | .grantAck slot line => Sys2Proof.Machine.execGrantAck slot line s
  | .grantHoldExpiry line => Sys2Proof.Machine.execGrantHoldExpiry line s
  | .wbAck slot line => Sys2Proof.Machine.execWbAck slot line s
  | .retry r line => Sys2Proof.Machine.execRetry r line s
  | .goRetry line => Sys2Proof.Machine.execGoRetry line s
  | .trackInc line => Sys2Proof.Machine.execTrackInc line s
  | .trackIncAck line => Sys2Proof.Machine.execTrackIncAck line s
  | .trackDec line => Sys2Proof.Machine.execTrackDec line s
  | .homeTimeout slot line => Sys2Proof.Machine.execHomeTimeout slot line s
  | .homeMoveDone slot quarter => Sys2Proof.Machine.execHomeMoveDone slot quarter s
  | .qmoveSweepEnd quarter => Sys2Proof.Machine.execQmoveSweepEnd quarter s
  | .forcedSwWrite value => Sys2Proof.Machine.execForcedSwWrite value s
  | .dcRead cls space line fill fillPoison => Sys2Proof.Machine.execDcRead cls space line fill fillPoison s
  | .dcStore cls space line data mask => Sys2Proof.Machine.execDcStore cls space line data mask s
  | .dcFence cls => Sys2Proof.Machine.execDcFence cls s
  | .mergeTimeout slice space line => Sys2Proof.Machine.execMergeTimeout slice space line s
  | .dcRangeInv value => Sys2Proof.Machine.execDcRangeInv value s
  | .dcRangeInvEnd => Sys2Proof.Machine.execDcRangeInvEnd s
  | .walk engine walker => Sys2Proof.Machine.execWalk engine walker s
  | .atsTranslationCompletion engine hpa size r w => Sys2Proof.Machine.execAtsTranslationCompletion engine hpa size r w s
  | .prgResponse index code => Sys2Proof.Machine.execPrgResponse index code s
  | .priTimeout index => Sys2Proof.Machine.execPriTimeout index s
  | .prgQuarantineExpiry index => Sys2Proof.Machine.execPrgQuarantineExpiry index s
  | .priEnable value => Sys2Proof.Machine.execPriEnable value s
  | .atsInvalidate itag pasid va bytes global => Sys2Proof.Machine.execAtsInvalidate itag pasid va bytes global s
  | .atsInvalidateCompletion itag => Sys2Proof.Machine.execAtsInvalidateCompletion itag s
  | .transferDescriptor engine desc => Sys2Proof.Machine.execTransferDescriptor engine desc s
  | .transferChunkEnd engine data => Sys2Proof.Machine.execTransferChunkEnd engine data s
  | .heatDecay => Sys2Proof.Machine.execHeatDecay s
  | .hotRingEnable value => Sys2Proof.Machine.execHotRingEnable value s
  | .ctxRootWrite ctx value => Sys2Proof.Machine.execCtxRootWrite ctx value s
  | .pteFormatValidate => Sys2Proof.Machine.execPteFormatValidate s
  | .girthFlit port f => Sys2Proof.Machine.execGirthFlit port f s
  | .girthKeepalive port => Sys2Proof.Machine.execGirthKeepalive port s
  | .girthLinkIdleTimeout port => Sys2Proof.Machine.execGirthLinkIdleTimeout port s
  | .girthRetrainEnd port ok => Sys2Proof.Machine.execGirthRetrainEnd port ok s
  | .hRd port txn ctx line fill fillPoison => Sys2Proof.Machine.execHRd port txn ctx line fill fillPoison s
  | .hWr port txn ctx line data mask => Sys2Proof.Machine.execHWr port txn ctx line data mask s
  | .offloadItemSend port => Sys2Proof.Machine.execOffloadItemSend port s
  | .offloadCmp port tag status => Sys2Proof.Machine.execOffloadCmp port tag status s
  | .abortDone port tag => Sys2Proof.Machine.execAbortDone port tag s
  | .abortTicksExpiry port => Sys2Proof.Machine.execAbortTicksExpiry port s
  | .hello port body => Sys2Proof.Machine.execHello port body s
  | .credit port counts => Sys2Proof.Machine.execCredit port counts s
  | .ready port => Sys2Proof.Machine.execReady port s
  | .quiesceDone port => Sys2Proof.Machine.execQuiesceDone port s
  | .chipletError port code => Sys2Proof.Machine.execChipletError port code s
  | .girthKeyExchange port m => Sys2Proof.Machine.execGirthKeyExchange port m s
  | .gpStart port => Sys2Proof.Machine.execGpStart port s
  | .gpPwrgd port => Sys2Proof.Machine.execGpPwrgd port s
  | .girthTrainDone port => Sys2Proof.Machine.execGirthTrainDone port s
  | .girthStartTimeout port => Sys2Proof.Machine.execGirthStartTimeout port s
  | .gpStop port => Sys2Proof.Machine.execGpStop port s
  | .gpFence port => Sys2Proof.Machine.execGpFence port s
  | .gpPrsntN port level => Sys2Proof.Machine.execGpPrsntN port level s
  | .girthSweepEnd port => Sys2Proof.Machine.execGirthSweepEnd port s
  | .deckTimeout unit ttag dest line write resent => Sys2Proof.Machine.execDeckTimeout unit ttag dest line write resent s
  | .ttagQuarantineExpiry unit how => Sys2Proof.Machine.execTtagQuarantineExpiry unit how s
  | .domainOff unit ttag dest line write resent => Sys2Proof.Machine.execDomainOff unit ttag dest line write resent s
  | .routeRetire => Sys2Proof.Machine.execRouteRetire s
  | .pdReqOff d => Sys2Proof.Machine.execPdReqOff d s
  | .pdReqOn d => Sys2Proof.Machine.execPdReqOn d s
  | .domainPowerDrop d => Sys2Proof.Machine.execDomainPowerDrop d s
  | .domainWakeEnd d => Sys2Proof.Machine.execDomainWakeEnd d s
  | .join op first last leaf => Sys2Proof.Machine.execJoin op first last leaf s
  | .bcast first last value => Sys2Proof.Machine.execBcast first last value s
  | .andOp op first last leaf bit => Sys2Proof.Machine.execAndOp op first last leaf bit s
  | .snap op first last leaf => Sys2Proof.Machine.execSnap op first last leaf s
  | .resetOp op first last leaf => Sys2Proof.Machine.execResetOp op first last leaf s
  | .faultLatch source cls what detail => Sys2Proof.Machine.execFaultLatch source cls what detail s
  | .failingBeatSent => Sys2Proof.Machine.execFailingBeatSent s
  | .trap => Sys2Proof.Machine.execTrap s
  | .fence b source => Sys2Proof.Machine.execFence b source s
  | .fenceDrainTimeout d => Sys2Proof.Machine.execFenceDrainTimeout d s
  | .blkrst b source => Sys2Proof.Machine.execBlkrst b source s
  | .blkrstEnd b => Sys2Proof.Machine.execBlkrstEnd b s
  | .blkrstTimeout b => Sys2Proof.Machine.execBlkrstTimeout b s
  | .fenceReply => Sys2Proof.Machine.execFenceReply s
  | .faultClear source ones => Sys2Proof.Machine.execFaultClear source ones s
  | .fsCfgWrite source value => Sys2Proof.Machine.execFsCfgWrite source value s
  | .fcLock => Sys2Proof.Machine.execFcLock s
  | .fsCfgSweep parityError => Sys2Proof.Machine.execFsCfgSweep parityError s
  | .safeEnter cause => Sys2Proof.Machine.execSafeEnter cause s
  | .getVersion session => Sys2Proof.Machine.execGetVersion session s
  | .getCapabilities session => Sys2Proof.Machine.execGetCapabilities session s
  | .negotiateAlgorithms session => Sys2Proof.Machine.execNegotiateAlgorithms session s
  | .getDigests session => Sys2Proof.Machine.execGetDigests session s
  | .getCertificate session offset length => Sys2Proof.Machine.execGetCertificate session offset length s
  | .challenge session nonce => Sys2Proof.Machine.execChallenge session nonce s
  | .getMeasurements session index signed => Sys2Proof.Machine.execGetMeasurements session index signed s
  | .keyExchange mutualAuth => Sys2Proof.Machine.execKeyExchange mutualAuth s
  | .finish session ok requesterKey => Sys2Proof.Machine.execFinish session ok requesterKey s
  | .heartbeat session => Sys2Proof.Machine.execHeartbeat session s
  | .keyUpdate session => Sys2Proof.Machine.execKeyUpdate session s
  | .endSession session => Sys2Proof.Machine.execEndSession session s
  | .chunkSend session handle seq last bytes => Sys2Proof.Machine.execChunkSend session handle seq last bytes s
  | .chunkGet session handle seq => Sys2Proof.Machine.execChunkGet session handle seq s
  | .encapsulatedResponse session certificate keyHash => Sys2Proof.Machine.execEncapsulatedResponse session certificate keyHash s
  | .ideKm session stream go => Sys2Proof.Machine.execIdeKm session stream go s
  | .ctxSelect session context => Sys2Proof.Machine.execCtxSelect session context s
  | .ctxCreate session context allowHost rsv cred => Sys2Proof.Machine.execCtxCreate session context allowHost rsv cred s
  | .keyRelease session context rsv keyId modelKey => Sys2Proof.Machine.execKeyRelease session context rsv keyId modelKey s
  | .retire session serial sigOk => Sys2Proof.Machine.execRetire session serial sigOk s
  | .ctxAdmitWrite ctx value => Sys2Proof.Machine.execCtxAdmitWrite ctx value s
  | .powerOn => Sys2Proof.Machine.execPowerOn s
  | .modRstNFall => Sys2Proof.Machine.execModRstNFall s
  | .modRstNRise => Sys2Proof.Machine.execModRstNRise s
  | .startStepEnd ok rails failedStacks late => Sys2Proof.Machine.execStartStepEnd ok rails failedStacks late s
  | .startStepTimeout => Sys2Proof.Machine.execStartStepTimeout s
  | .startupDone => Sys2Proof.Machine.execStartupDone s
  | .railAlert answer => Sys2Proof.Machine.execRailAlert answer s
  | .pmReadTimeout => Sys2Proof.Machine.execPmReadTimeout s
  | .thermalReading tj => Sys2Proof.Machine.execThermalReading tj s
  | .thermalTimeout => Sys2Proof.Machine.execThermalTimeout s
  | .vcoreOutOfRange mv => Sys2Proof.Machine.execVcoreOutOfRange mv s
  | .jtagInstruction instruction => Sys2Proof.Machine.execJtagInstruction instruction s
  | .usdoUploadInitiate client dest index sub kind => Sys2Proof.Machine.execUsdoUploadInitiate client dest index sub kind s
  | .usdoDownloadInitiate client dest index sub kind value => Sys2Proof.Machine.execUsdoDownloadInitiate client dest index sub kind value s
  | .usdoSegment client bytes last => Sys2Proof.Machine.execUsdoSegment client bytes last s
  | .usdoTimeout client => Sys2Proof.Machine.execUsdoTimeout client s
  | .classicCanFrame => Sys2Proof.Machine.execClassicCanFrame s
  | .nmtStart => Sys2Proof.Machine.execNmtStart s
  | .nmtStop => Sys2Proof.Machine.execNmtStop s
  | .nmtPreOperational => Sys2Proof.Machine.execNmtPreOperational s
  | .nmtResetNode => Sys2Proof.Machine.execNmtResetNode s
  | .nmtResetCommunication => Sys2Proof.Machine.execNmtResetCommunication s
  | .lssConfigureNodeId id => Sys2Proof.Machine.execLssConfigureNodeId id s
  | .lssStoreConfiguration => Sys2Proof.Machine.execLssStoreConfiguration s
  | .canHeartbeat => Sys2Proof.Machine.execCanHeartbeat s
  | .emcyInhibitExpiry => Sys2Proof.Machine.execEmcyInhibitExpiry s
  | .dictRead path => Sys2Proof.Machine.execDictRead path s
  | .dictWrite path => Sys2Proof.Machine.execDictWrite path s
  | .sbGo c actor len => Sys2Proof.Machine.execSbGo c actor len s
  | .sbAck c actor status detail => Sys2Proof.Machine.execSbAck c actor status detail s
  | .sbBind c receiver code => Sys2Proof.Machine.execSbBind c receiver code s
  | .sbLock => Sys2Proof.Machine.execSbLock s
  | .sbHostMaskWrite value => Sys2Proof.Machine.execSbHostMaskWrite value s
  | .traceRecord event unit a b => Sys2Proof.Machine.execTraceRecord event unit a b s
  | .tracePortSend => Sys2Proof.Machine.execTracePortSend s
  | .traceRingWrite => Sys2Proof.Machine.execTraceRingWrite s
  | .traceBufEnable => Sys2Proof.Machine.execTraceBufEnable s
  | .snapGo => Sys2Proof.Machine.execSnapGo s
  | .snapshotEnd => Sys2Proof.Machine.execSnapshotEnd s
  | .registerWrite w => Sys2Proof.Machine.execRegisterWrite w s
  | .viaductFrameSend => Sys2Proof.Machine.execViaductFrameSend s
  | .cxlResetComplete => Sys2Proof.Machine.execCxlResetComplete s
  | .prefillRunEnd record => Sys2Proof.Machine.execPrefillRunEnd record s
  | .canErrorState e tec rxec => Sys2Proof.Machine.execCanErrorState e tec rxec s

end Sys2Proof.Machine
end

