-- ==== Sys2Proof/Machine/Step.lean ====
section
/-!
DEFINITION. Step.lean: one step takes the command at the front of the queue; on an empty queue one TS edge passes
(notes/assumptions/4.md).
-/
namespace Sys2Proof.Machine

/-- The command at the front of the queue runs on the state with the queue's rest; with no command waiting, a TS edge
passes: TS_NOW and the tick count advance by one. -/
def step (s : State) : Host.Outcome State Fault Refusal :=
  match s.pending with
  | [] => .next (tick s)
  | c :: rest => exec c { s with pending := rest }

/-- The opcode table gives no command any bits, so no word spells one: the queue is left as it is. -/
def State.withFetchWord (s : State) (nbits w : Nat) : State :=
  match decodeTableWord nbits w with
  | some c => { s with pending := c :: s.pending }
  | none => s

end Sys2Proof.Machine
end

