-- ==== Sys2Proof/Machine/RegisterReads.lean ====
section
/-!
DEFINITION. Machine/RegisterReads.lean: what BAR0, BAR2 and configuration space read as (00_scope.md R12 to R14, R16, R20;
01_stages_and_clocks.md R28; 07_host_port.md R200 to R206, R210, R225, R228; 12_fault_collector.md R328; 17_observation.md R410).
A read changes no register, so reads are functions of the state (notes/assumptions/78.md).
-/
namespace Sys2Proof.Machine

/-! ### Registers without a dictionary mirror -/

/-- PACE (Table 1-2): one 64-bit read returns one update in full (R28). -/
def paceReg (s : State) : Nat :=
  let p := s.pace
  p.updSeq.toNat * 2 ^ 32 + b2n p.valid * 2 ^ 31 + p.tjC.toNat * 2 ^ 16 + p.stagePs.toNat

/-- CTX_BIND and BIND_RESULT (Table 7-7). -/
def ctxBindReg (s : State) : Nat := s.host.ctxBindCtx.toNat * 2 ^ 48 + s.host.ctxBindPasid.toNat
def bindResultReg (s : State) : Nat := b2n s.host.bindReq.isSome * 2 ^ 31 + s.host.bindStatus.toNat * 2 ^ 8

/-- GP_PEER (Table 10-10). -/
def gpPeerReg (s : State) (n : Nat) : Nat :=
  let p := portGet s n
  p.vendor.toNat * 2 ^ 48 + p.device.toNat * 2 ^ 32 + p.itemsMax.toNat * 2 ^ 16 + p.txnMax.toNat

/-- DC_RANGE_STS (Table 8-13). -/
def rangeStsReg (s : State) : Nat := b2n s.coh.rangeJob.isSome * 2 ^ 31 + s.coh.linesInv.toNat

/-- HOT_IDX (Table 9-12). -/
def hotIdxReg (s : State) : Nat := s.xl.hotHead.toNat * 2 ^ 16 + s.xl.hotW % (64 * 2 ^ s.xl.hotSize.toNat)

/-- FC_STATUS and 64 bits of FC_PEND (Table 12-4). -/
def fcStatusReg (s : State) : Nat :=
  let f := s.faults
  let n := fun (c : FaultClass) => (f.sources.filter (fun e => e.2.status c)).length
  b2n f.safe * 2 ^ 63 + b2n (errOut s) * 2 ^ 62 + f.safeCause.toNat * 2 ^ 60 + f.firstFt.toNat * 2 ^ 48 + n .ft * 2 ^ 32 +
    n .uc * 2 ^ 16 + n .ce
def fcPendReg (s : State) (k : Nat) : Nat :=
  ((List.range 64).map (fun i => b2n (decide (64 * k + i < 2944) && (srcGet s (64 * k + i)).any) * 2 ^ i)).foldl (· + ·) 0

/-- TRACE_STATUS (Table 17-4). -/
def traceStatusReg (s : State) : Nat :=
  s.obs.nextSeq.toNat * 2 ^ 32 + s.obs.store.length * 2 ^ 16 + b2n (ringStalled s)

/-- Quadwords of a dictionary port (Table 15-4). -/
def dwWord (x : DwPort) (off : Nat) : Nat :=
  if off = 0 then x.op.toNat * 2 ^ 61 + x.sub.toNat * 2 ^ 32 + x.index.toNat * 2 ^ 16 + x.length.toNat
  else if off = 8 then b2n x.busy * 2 ^ 63 + x.status.toNat * 2 ^ 40 + x.respLen.toNat * 2 ^ 32 + x.abort.toNat
  else if off = 0x10 then x.doneSeq.toNat
  else if 0x20 ≤ off && off < 0x100 then leNat (slice x.data (off - 0x20) 8)
  else 0

/-- 32-bit registers of a saddlebag channel (Table 16-3); an unbound channel reads 0 (R395). -/
def sbWord (x : SbChannel) (off : Nat) : Nat :=
  if !x.bound then 0
  else if off < 0x40 then (x.msg.getD (off / 4) 0).toNat
  else if off = 0x40 then b2n x.busy * 2 ^ 30 + x.goSeq.toNat * 2 ^ 8 + x.len.toNat
  else if off = 0x48 then x.ackSeq.toNat * 2 ^ 24 + x.detail.toNat * 2 ^ 8 + x.status.toNat
  else 0

/-- Quadwords of an HDM decoder: base, size, control with the low skip word, high skip word (CXL; notes/assumptions/34.md). -/
def hdmWord (d : HdmDecoder) (word : Nat) : Nat :=
  match word with
  | 0 => d.base.toNat
  | 1 => d.size.toNat
  | 2 => d.skip.toNat % 2 ^ 32 * 2 ^ 32 + b2n d.errNotCommitted * 2048 + b2n d.committed * 1024 + b2n d.commit * 512 +
      b2n d.lockOnCommit * 256 + d.iw.toNat * 16 + d.ig.toNat
  | _ => d.skip.toNat / 2 ^ 32

/-- MSI-X table entry and pending bits (PCIe). -/
def msixWord (e : MsixEntry) (word : Nat) : Nat := if word = 0 then e.addr.toNat else b2n e.masked * 2 ^ 32 + e.data.toNat
def msixPba (s : State) (k : Nat) : Nat :=
  ((List.range 64).map (fun i => b2n (msixGet s (64 * k + i)).pend * 2 ^ i)).foldl (· + ·) 0

/-! ### BAR0 by block (Table 7-5): the value of the quadword at `q`. A register of 32 bits stands in its half. -/

def bar0PaceRead (q : Nat) (s : State) : Nat :=
  match q with
  | 0x20000 => paceReg s
  | 0x20008 => paceTargetReg s + 2 ^ 32 * paceStatusReg s
  | 0x20010 => s.tsNow.toNat
  | 0x20020 => rstStatusReg s
  | 0x20028 => startStatusReg s
  | 0x20030 => railStatusReg s
  | _ => 0

def bar0RegionRead (q : Nat) (s : State) : Nat :=
  if q < 0x30400 then
    let n := (q - 0x30000) / 16
    if q % 16 = 0 then regionBaseReg s n else regionShapeReg s n
  else if 0x38800 ≤ q && q < 0x38C00 then winInWord s ((q - 0x38800) / 16) (q % 16 / 8)
  else if 0x38C00 ≤ q && q < 0x39000 then winOutWord s ((q - 0x38C00) / 16) (q % 16 / 8)
  else match q with
  | 0x30400 => regionCtlReg s
  | 0x38000 => pairStatusReg s
  | 0x38008 => pairCtlReg s
  | 0x38010 => viaductStatusReg s
  | _ => 0

def bar0HostRead (q : Nat) (s : State) : Nat :=
  if 0x40100 ≤ q && q < 0x40200 then fld s.host.intxStatus (8 * (q - 0x40100)) 64
  else match q with
  | 0x40000 => hpStatusReg s
  | 0x40010 => ctxBindReg s
  | 0x40020 => bindResultReg s
  | _ => 0

def bar0GirthRead (q : Nat) (s : State) : Nat :=
  let n := (q - 0x50000) / 0x1000
  let o := q % 0x1000
  if 6 ≤ n then 0
  else if 0x100 ≤ o && o < 0x140 then hwinWord s n ((o - 0x100) / 16) (o % 16 / 8)
  else match o with
  | 0 => gpCtlReg s n
  | 8 => gpStatusReg s n
  | 0x10 => gpPeerReg s n
  | _ => 0

def bar0DeckRead (q : Nat) (s : State) : Nat :=
  if 0x61000 ≤ q && q < 0x61530 then
    let d := (q - 0x61000) / 4
    pdReg s d + 2 ^ 32 * pdReg s (d + 1)
  else match q with
  | 0x60000 => s.deck.guarPeriod.toNat + 2 ^ 32 * s.deck.margin.toNat
  | 0x60008 => deckStatusReg s
  | _ => 0

def bar0CacheRead (q : Nat) (s : State) : Nat :=
  if 0x70200 ≤ q && q < 0x70280 then wayMaskReg s ((q - 0x70200) / 8)
  else if 0x70300 ≤ q && q < 0x70380 then (lfsrGet s ((q - 0x70300) / 8)).toNat
  else match q with
  | 0x70000 => cohCtlReg s
  | 0x70008 => s.coh.serve.toNat
  | 0x70010 => s.coh.homeTimeout.toNat
  | 0x70100 => s.coh.mergeTicks.toNat
  | 0x70400 => b2n s.coh.rangeSpace * 2 ^ 62 + s.coh.rangeBase.toNat * 2 ^ 12
  | 0x70408 => s.coh.rangePages.toNat
  | 0x70410 => rangeStsReg s
  | _ => 0

def bar0XlRead (q : Nat) (s : State) : Nat :=
  if 0x88000 ≤ q then ctxRootReg s ((q - 0x88000) / 8)
  else match q with
  | 0x80000 => xlStatusReg s
  | 0x80100 => s.xl.hotBase.toNat * 4096
  | 0x80108 => hotCtlReg s
  | 0x80110 => hotIdxReg s
  | _ => 0

def bar0SbRead (q : Nat) (s : State) : Nat :=
  if q < 0xB4000 then
    let x := chanGet s ((q - 0xB0000) / 0x100)
    sbWord x (q % 0x100) + 2 ^ 32 * sbWord x (q % 0x100 + 4)
  else if 0xB8000 ≤ q && q < 0xB8200 then
    let x := chanGet s ((q - 0xB8000) / 8)
    x.sender.toNat * 256 + x.receiver.toNat
  else match q with
  | 0xB8200 => b2n s.sb.lock
  | 0xBC000 => s.sb.hostDb.toNat
  | 0xBC008 => s.sb.hostMask.toNat
  | 0xBC010 => s.sb.hostRxpend.toNat
  | 0xBC018 => b2n s.sb.hostIen * 2 ^ 31 + s.sb.hostVector.toNat
  | _ => 0

def bar0TraceRead (q : Nat) (s : State) : Nat :=
  if 0xC8000 ≤ q then (tget (fun _ => (0 : W64)) s.obs.snapBank ((q - 0xC8000) / 8)).toNat
  else if 0xC0020 ≤ q && q < 0xC0040 then fld s.obs.eventEn (8 * (q - 0xC0020)) 64
  else match q with
  | 0xC0000 => traceCtlReg s
  | 0xC0008 => s.obs.bufBase.toNat * 4096
  | 0xC0010 => s.obs.bufSize.toNat
  | 0xC0018 => traceStatusReg s
  | _ => 0

def bar0CollectorRead (q : Nat) (s : State) : Nat :=
  let n := (q - 0x400000) / 32
  if n < 2944 then
    match q % 32 with
    | 0 => fsStsReg s n
    | 8 => (srcGet s n).firstTs.toNat
    | 16 => fsCfgReg s n
    | _ => 0
  else if 0x5F0100 ≤ q && q < 0x5F0280 then fcPendReg s ((q - 0x5F0100) / 8)
  else match q with
  | 0x5F0000 => fcStatusReg s
  | 0x5F0008 => b2n s.faults.lock * 2 ^ 31
  | _ => 0

/-- BAR0 as it reads: an offset that no register occupies reads 0 (R20), and so does a write-only field (R12). -/
def bar0Read (q : Nat) (s : State) : Nat :=
  if q < 0x10000 then
    (if 0x1210 ≤ q && q < 0x1290 then hdmWord (hdmGet s ((q - 0x1210) / 32)) ((q - 0x1210) % 32 / 8) else 0)
  else if q < 0x18000 then msixWord (msixGet s ((q - 0x10000) / 16)) (q % 16 / 8)
  else if q < 0x18100 then msixPba s ((q - 0x18000) / 8)
  else if q < 0x20000 then 0
  else if q < 0x30000 then bar0PaceRead q s
  else if q < 0x40000 then bar0RegionRead q s
  else if q < 0x50000 then bar0HostRead q s
  else if q < 0x60000 then bar0GirthRead q s
  else if q < 0x70000 then bar0DeckRead q s
  else if q < 0x80000 then bar0CacheRead q s
  else if q < 0x90000 then bar0XlRead q s
  else if q < 0x98000 then (if q = 0x90000 then secStatusReg s else 0)
  else if q < 0xA0000 then ctxAdmitReg s ((q - 0x98000) / 8)
  else if q < 0xA1000 then dwWord (dwGet s ((q - 0xA0000) / 0x100)) (q % 0x100)
  else if q < 0xB0000 then 0
  else if q < 0xC0000 then bar0SbRead q s
  else if q < 0xD0000 then bar0TraceRead q s
  else if 0x100000 ≤ q && q < 0x200000 then qpWord (qpGet s ((q - 0x100000) / 32)) (q % 32 / 8)
  else if 0x400000 ≤ q && q < 0x600000 then bar0CollectorRead q s
  else if 0x600000 ≤ q && q < 0x608000 then (tget (fun _ => (0 : W64)) s.obs.counters ((q - 0x600000) / 8)).toNat
  else 0

/-! ### BAR2: the doorbell page of a queue pair (Table 7-10) -/

def bar2Read (q : Nat) (s : State) : Nat :=
  let n := q / 4096
  let o := q % 4096
  let x := qpGet s n
  if 0xC00 ≤ o && o < 0xD00 then dwWord (dwGet s (16 + n)) (o - 0xC00)
  else match o with
  | 0x008 => x.sqHead + 2 ^ 32 * (2 * b2n (fetchHeld s) + b2n x.armed)
  | 0x800 => paceReg s
  | 0x808 => paceStatusReg s
  | 0x810 => s.tsNow.toNat
  | 0x818 => pairStatusReg s
  | _ => 0

/-! ### A read of the host -/

/-- The collector and the counters, which the safe state still serves (R328). -/
def safeReadable (q : Nat) : Bool := 0x400000 ≤ q && q < 0x608000

/-- `size` bytes at `off` of a quadword's value. -/
def bytesOf (v off size : Nat) : List Byte := slice (leBytes 8 v) (off % 8) size

/-- How Idern completes a host read of `size` bytes (R210, R225, R328, R358). -/
def hostRegRead (space : RegSpace) (off size : Nat) (s : State) : Cpl :=
  let q := off - off % 8
  if s.power.phase ≠ .served then (if space = .config then .retryStatus else .ur)
  else match space with
  | .config => .data (bytesOf (configRead q s) off size)
  | _ =>
    if !s.host.mse || s.host.d3hot || 8 < off % 8 + size then .ur
    else if space = .bar0 then .data (bytesOf (if s.faults.safe && !safeReadable q then 0 else bar0Read q s) off size)
    else .data (bytesOf (if s.faults.safe || (resetBusy s && q % 4096 < 0x800) then 0 else bar2Read q s) off size)

end Sys2Proof.Machine
end

