-- ==== Sys2Proof/Safety.lean ====
section
/-!
DEFINITION. Safety.lean: what counts as a sound state and a sound run.
-/
namespace Sys2Proof.Machine

/-- Device memory and the piers' scratch are in their canonical form (notes/assumptions/3.md). -/
def MemoryCanonical (s : State) : Prop := Memory.wf s.store.cells = true ∧ Memory.wf s.store.scratch = true

/-- The trace store holds at most its 2,048 records, and each destination's place lies in it (R406). -/
def TraceStoreSound (s : State) : Prop :=
  s.obs.store.length ≤ 2048 ∧ s.obs.portPos ≤ s.obs.store.length ∧ s.obs.ringPos ≤ s.obs.store.length

/-- Order of the lifecycle states (Table 13-1): a part only moves forward. -/
def Lifecycle.rank : Lifecycle → Nat
  | .blank => 0 | .provisioned => 1 | .deployed => 2 | .retired => 3

/-- A run of at most `n` steps from `s`; a stop ends it. -/
def runFrom : Nat → State → Host.Outcome State Fault Refusal
  | 0, s => .next s
  | n + 1, s =>
    match step s with
    | .next t => runFrom n t
    | o => o

/-- A safe run: none of its steps ends in a fault or a refusal. -/
def SafeRun (n : Nat) (s : State) : Prop := ∃ t, runFrom n s = .next t

/-- Reading the operands delivers no poison, no skive stream of theirs stops and their codebooks are in place: the stitch goes
on from the state `s1` that the reads leave (R63, R87, R108, R128, R130). -/
def OperandsClean (e : Env) (ds : List TDesc) (s s1 : State) : Prop := ∀ k, gate e ds s k = k s1

/-- Stitch `i` of run `id` may run here and now (R85): it is startable, it has not been without progress for
STITCH_TIMEOUT, every pier of its set is up, and no operand of it
lies behind a partner window. -/
def StitchReady (id i opcode : Nat) (e : Env) (st : Stitch) (s : State) : Prop :=
  startable id i opcode s = some (e, st) ∧ overran e.run i s = false ∧ (∀ q ∈ st.roles e.prog, memUp s (e.actual q) = true) ∧
    (∀ d ∈ st.reads e.prog ++ st.writes e.prog, d.kind ≠ kindWindow)

/-- The run with stitch `i` complete on every pier of its set. -/
def stitchDone (id i : Nat) (lanes noCand : W16) (s : State) : State :=
  runMod id (fun r => { r with winData := [] }) (finish id i lanes noCand s)

end Sys2Proof.Machine
end

