-- ==== Sys2Proof/Certificates/Slice0/Obligations.lean ====
section
/-!
DEFINITION. Certificates/Slice0/Obligations.lean: the statements for the provers.
-/
open Sys2Proof Sys2Proof.Machine

/-- A step runs the command at the front of the queue. -/
def Obligations.StepRunsFrontCommand : Prop :=
  ∀ (c : Instr) (q : List Instr) (s : State), step { s with pending := c :: q } = exec c { s with pending := q }

/-- An empty queue lets one TS edge pass (model choice, assumption 4). -/
def Obligations.EmptyQueuePassesOneEdge : Prop :=
  ∀ s : State, s.pending = [] →
    step s = .next { s with
      ticks := s.ticks + 1
      tsNow := if s.pair.tsSkip = true ∨ s.power.phase = .inReset then s.tsNow else s.tsNow + 1
      pair := { s.pair with tsSkip := false } }

/-- Every command answers a next state in every state. -/
def Obligations.EveryCommandAnswersNext : Prop :=
  ∀ (c : Instr) (s : State), ∃ t, exec c s = .next t

/-- Every run of any length is safe. -/
def Obligations.EveryRunIsSafe : Prop := ∀ (n : Nat) (s : State), SafeRun n s

/-- Reset leaves the values the spec gives. -/
def Obligations.ResetLeavesTheResetValues : Prop :=
  let s := State.reset
  s.power.phase = .starting ∧ s.power.step = 1 ∧ s.power.cold = true ∧
  (∀ n, srcGet s n = srcReset n) ∧ (∀ n c, (srcGet s n).status c = false) ∧
  s.faults.firstFt = 0xFFF ∧ s.faults.safe = false ∧ s.faults.lock = false ∧
  s.pace.stagePs = 480 ∧ s.pace.targetPs = 360 ∧ s.pace.trimEn = false ∧ s.pace.vcoreMv = 750 ∧
  s.piers.runs = [] ∧ (∀ r, (tget (fun _ => ({} : Stream)) s.service.streams r).st = .free) ∧
  (∀ q, (tget (fun _ => ({} : QpEntry)) s.host.qps q).armed = false) ∧
  s.pair.st = .solo ∧ (∀ a, mget s.store.cells a = 0) ∧ MemoryCanonical s ∧ TraceStoreSound s ∧
  s.out = [] ∧ s.pending = []

/-- A pace update records the slowest chain, and the trim loop follows its rules. -/
def Obligations.PaceAndTrim : Prop :=
  (∀ (counts : List W16) (m : W16) (s : State), m ∈ counts → (∀ c ∈ counts, m.toNat ≤ c.toNat) → 16 ≤ m.toNat →
    alive s = true → s.pace.nextUpdate ≤ s.ticks →
    exec (.paceUpdate counts) s = .next { s with
      freeCtr := s.freeCtr + 1
      pace := { s.pace with stagePs := BitVec.ofNat 16 ((1000000 + m.toNat - 1) / m.toNat), valid := true
                            updSeq := s.pace.updSeq + 1, nextUpdate := s.pace.nextUpdate + 100 } }) ∧
  ((∀ (value : W32) (s : State), alive s = true → s.faults.safe = false →
    exec (.paceTargetWrite value) s = .next { s with pace := { s.pace with
      targetPs := BitVec.ofNat 16 (max 300 (min 480 (value.toNat % 65536))), trimEn := value.getLsbD 31
      nextTrim := if value.getLsbD 31 = true ∧ s.pace.trimEn = false then s.ticks + 1 else s.pace.nextTrim } }) ∧
  (∀ s : State, alive s = true → s.faults.safe = false → s.pace.trimEn = true → s.pace.nextTrim ≤ s.ticks →
    let p := { s.pace with nextTrim := s.pace.nextTrim + 10000 }
    let ask := fun (mv : BitVec 10) => { s with pace := { p with request := some (mv, after 20000 s) }, out := s.out ++ [.pmWrite mv] }
    let slow := s.pace.targetPs.toNat + 4 < s.pace.stagePs.toNat
    let fast := s.pace.stagePs.toNat + 4 < s.pace.targetPs.toNat
    (s.pace.request ≠ none → exec .trimInterval s = .next { s with pace := p }) ∧
    (s.pace.request = none →
      (slow → s.pace.vcoreMv.toNat < 800 → exec .trimInterval s = .next (ask (s.pace.vcoreMv + 5))) ∧
      (fast → 700 < s.pace.vcoreMv.toNat → exec .trimInterval s = .next (ask (s.pace.vcoreMv - 5))) ∧
      (¬ (slow ∧ s.pace.vcoreMv.toNat < 800) → ¬ (fast ∧ 700 < s.pace.vcoreMv.toNat) →
        exec .trimInterval s = .next { s with pace := p }))) ∧
  (∀ (mv : BitVec 10) (d : Nat) (s : State), s.pace.request = some (mv, d) →
    (s.ticks < d →
      exec .trimAck s = .next { s with pace := { s.pace with vcoreMv := mv, request := none, pmRefused := false } } ∧
      exec .trimRefused s = .next { s with pace := { s.pace with request := none, pmRefused := true } } ∧
      exec .trimTimeout s = .next s) ∧
    (d ≤ s.ticks → ∀ c, c = Instr.trimAck ∨ c = .trimRefused ∨ c = .trimTimeout → exec c s =
      .next (raise 2936 .uc s.pace.vcoreMv.toNat { s with pace := { s.pace with request := none } }))))

/-- An event reaches the trace store, or is lost where the store is full. -/
def Obligations.TraceRecordIsKeptOrLost : Prop :=
  ∀ (event : Byte) (unit : BitVec 9) (a b : W64) (s : State), alive s = true → event.toNat ∈ traceEvents →
    s.obs.eventEn.getLsbD event.toNat = true → TraceStoreSound s →
    ∃ t, exec (.traceRecord event unit a b) s = .next t ∧ t = { s with obs := t.obs } ∧ TraceStoreSound t ∧
      (s.obs.store.length < 2048 → s.obs.portEn = true ∨ s.obs.bufEn = false ∨ ringStalled s = false →
        t.obs.store.getLast? = some ⟨event, unit, s.obs.nextSeq, s.tsNow, a, b⟩ ∧ t.obs.nextSeq = s.obs.nextSeq + 1) ∧
      (s.obs.store.length = 2048 →
        t.obs.store = s.obs.store ∧ t.obs.portLost = true ∧ t.obs.ringLost = true ∧
        tget (fun _ => 0) t.obs.counters 2765 = satAdd (tget (fun _ => 0) s.obs.counters 2765) 1)

/-- The trace port and the host ring each take the next record. -/
def Obligations.TraceDestinationsTakeRecords : Prop :=
  (∀ (r : TraceRec) (s : State), TraceStoreSound s → alive s = true → s.obs.portEn = true →
    s.obs.store[s.obs.portPos]? = some r →
    ∃ t, exec .tracePortSend s = .next t ∧ t = { s with obs := t.obs, out := t.out } ∧ TraceStoreSound t ∧
      t.out = s.out ++ [.traceRecord r s.obs.portLost] ∧ t.obs.portLost = false) ∧
  (∀ (r : TraceRec) (s : State), TraceStoreSound s → s.obs.bufEn = true → ringStalled s = false →
    s.obs.store[s.obs.ringPos]? = some r →
    ∃ t a b, exec .traceRingWrite s = .next t ∧ t = { s with obs := t.obs, out := t.out } ∧ TraceStoreSound t ∧
      a = s.obs.bufBase.toNat * 4096 + 32 * (s.obs.ringW % (128 * 2 ^ s.obs.bufSize.toNat)) ∧
      b = r.bytes (BitVec.ofNat 8 (1 - s.obs.ringW / (128 * 2 ^ s.obs.bufSize.toNat) % 2 + 2 * b2n s.obs.ringLost)) ∧
      t.out = s.out ++ [.hostWrite (BitVec.ofNat 64 (a + 2)) none (b.drop 2), .hostWrite (BitVec.ofNat 64 a) none (b.take 2)] ∧
      t.obs.ringW = s.obs.ringW + 1 ∧ t.obs.ringLost = false)

/-- The ring restarts at its enable, and a snapshot copies the counters at its cut. -/
def Obligations.RingEnableAndSnapshots : Prop :=
  (∀ s : State, alive s = true → s.faults.safe = false → s.obs.bufEn = false →
    exec .traceBufEnable s = .next { s with obs := { s.obs with bufEn := true, ringW := 0 } }) ∧
  (∀ s : State, alive s = true → s.faults.safe = false → s.obs.snapBusy = false →
    exec .snapGo s = .next { s with obs := { s.obs with snapBusy := true, snapCut := s.obs.counters } }) ∧
  (∀ s : State, alive s = true → s.faults.safe = false → s.obs.snapBusy = true → exec .snapGo s = .next (count 2770 s)) ∧
  (∀ s : State, s.obs.snapBusy = true →
    ∃ t, exec .snapshotEnd s = .next t ∧ t = { s with obs := t.obs } ∧ t.obs.snapBusy = false ∧
      t.obs.snapSeq = s.obs.snapSeq + 1 ∧ t.obs.snapBank = s.obs.snapCut)

/-- A saddlebag message goes to its receiver and is acknowledged. -/
def Obligations.SaddlebagMessagesAreSentAndAcknowledged : Prop :=
  (∀ (c : Channel) (a : SbActor) (len : BitVec 5) (s : State), sbAlive a s = true → (chanGet s c.val).bound = true →
    sbActs a (chanGet s c.val).sender = true → (chanGet s c.val).busy = false → 8 ≤ len.toNat → len.toNat ≤ 16 →
    ∃ t, exec (.sbGo c a len) s = .next t ∧
      chanGet t c.val = { chanGet s c.val with len := len, busy := true, goSeq := (chanGet s c.val).goSeq + 1 } ∧
      (∀ n, n ≠ c.val → chanGet t n = chanGet s n) ∧
      t = { s with trestle := t.trestle, sb := t.sb, host := t.host, out := t.out } ∧
      ((chanGet s c.val).receiver = sbCore 1 →
        (trestleGet t 1).rxpend = withBit (trestleGet s 1).rxpend c.val ∧
        (trestleGet t 1).doorbell = withBit (trestleGet s 1).doorbell (32 + c.val % 32) ∧ t.host = s.host ∧ t.out = s.out)) ∧
  (∀ (c : Channel) (a : SbActor) (len : BitVec 5) (s : State), sbAlive a s = true → (chanGet s c.val).bound = true →
    sbActs a (chanGet s c.val).sender = true → (chanGet s c.val).busy = false → len.toNat < 8 ∨ 16 < len.toNat →
    exec (.sbGo c a len) s = .next (chanSet c.val { chanGet s c.val with
      len := len, goSeq := (chanGet s c.val).goSeq + 1, ackSeq := (chanGet s c.val).goSeq + 1
      status := 0x11, detail := 0 } s)) ∧
  (∀ (c : Channel) (a : SbActor) (len : BitVec 5) (s : State), sbAlive a s = true →
    (chanGet s c.val).bound = false ∨ sbActs a (chanGet s c.val).sender = false ∨ (chanGet s c.val).busy = true →
    exec (.sbGo c a len) s = .next (count (2700 + c.val) s)) ∧
  (∀ (c : Channel) (a : SbActor) (status detail : Byte) (s : State), sbAlive a s = true →
    (chanGet s c.val).bound = true → sbActs a (chanGet s c.val).receiver = true → (chanGet s c.val).busy = true →
    ∃ t, exec (.sbAck c a status detail) s = .next t ∧
      chanGet t c.val = { chanGet s c.val with ackSeq := (chanGet s c.val).goSeq, busy := false
                                               status := status, detail := detail } ∧
      (∀ n, n ≠ c.val → chanGet t n = chanGet s n) ∧ t = { s with trestle := t.trestle, sb := t.sb } ∧
      ((chanGet s c.val).receiver = sbHost → t.sb.hostRxpend = dropBit s.sb.hostRxpend c.val) ∧
      ((chanGet s c.val).receiver = sbCore 1 → (trestleGet t 1).rxpend = dropBit (trestleGet s 1).rxpend c.val))

/-- A saddlebag pair is written only before the lock, and unmasking a set bit notifies the host. -/
def Obligations.SaddlebagBindingAndMask : Prop :=
  (∀ (c : Channel) (code : Byte) (s : State), alive s = true → s.faults.safe = false → s.sb.lock = false →
    (chanGet s c.val).busy = false → sbCodeOk code = true →
    ((chanGet s c.val).sender ≠ code → exec (.sbBind c false code) s =
      .next (chanSet c.val { sender := code, receiver := (chanGet s c.val).receiver } s)) ∧
    ((chanGet s c.val).receiver ≠ code → exec (.sbBind c true code) s =
      .next (chanSet c.val { sender := (chanGet s c.val).sender, receiver := code } s)) ∧
    ((chanGet s c.val).sender = code → exec (.sbBind c false code) s = .next s)) ∧
  (∀ (c : Channel) (r : Bool) (code : Byte) (s t : State),
    s.sb.lock = true ∨ (chanGet s c.val).busy = true ∨ sbCodeOk code = false →
    exec (.sbBind c r code) s = .next t → t = { s with obs := t.obs }) ∧
  (∀ s : State, alive s = true → s.faults.safe = false →
    exec .sbLock s = .next { s with sb := { s.sb with lock := true } }) ∧
  (∀ (v : W32) (s : State), barOpen s = true →
    exec (.sbHostMaskWrite v) s = .next (
      if s.sb.hostDb &&& s.sb.hostMask &&& ~~~v ≠ 0 ∧ s.sb.hostIen = true then
        interrupt s.sb.hostVector { s with sb := { s.sb with hostMask := v } }
      else { s with sb := { s.sb with hostMask := v } }))

/-- A latched event is recorded in its source and nowhere else. -/
def Obligations.FaultLatchRecordsTheEvent : Prop :=
  (∀ (n : Fin 2944) (cls c : FaultClass) (what : PairEvent) (detail : W32) (s : State), what ≠ .idle →
    c = (if what = .wireFault then (srcInfo n).highest else cls) → alive s = true →
    (srcInfo n).level = false ∨ what = .wireFault →
    sampled s n = true → (srcInfo n).can c = true → (srcGet s n).react c &&& rChiprst = 0 →
    ∃ t, exec (.faultLatch n cls what detail) s = .next t ∧
      (srcGet t n).status c = true ∧ (∀ c', c' ≠ c → (srcGet t n).status c' = (srcGet s n).status c') ∧
      (srcGet t n).detail = detail ∧ (srcGet t n).count = satAdd (srcGet s n).count 1 ∧
      (srcGet t n).wire = ((srcGet s n).wire || decide (what = .wireFault)) ∧
      (srcGet t n).firstTs = (if (srcGet s n).any then (srcGet s n).firstTs else s.tsNow) ∧
      (∀ m, m ≠ n.val → srcGet t m = srcGet s m) ∧
      t.faults.firstFt = (if c = .ft ∧ s.faults.firstFt = 0xFFF then BitVec.ofNat 12 n.val else s.faults.firstFt) ∧
      t.faults.traps = (if (srcGet s n).status c = false ∧ (srcGet s n).react c &&& rTrap ≠ 0 ∧ s.faults.safe = false ∧
          reactsNow s = true then s.faults.traps ++ [(c, n.val)] else s.faults.traps) ∧
      t = { s with faults := t.faults, obs := t.obs, milell := t.milell, host := t.host, out := t.out, coh := t.coh,
                     sec := t.sec } ∧
      (¬ (1280 ≤ n.val ∧ n.val < 1344 ∧ cls = .uc ∧ what = .event) → t.coh = s.coh) ∧
      t.sec = (if n.val = 2940 ∧ cls = .ft ∧ what = .event then
        { s.sec with slots := tset (fun _ => {}) s.sec.slots detail.toNat {} } else s.sec)) ∧
  (∀ (n : Fin 2944) (cls : FaultClass) (detail : W32) (s : State), alive s = true → (srcInfo n).level = true →
    (srcGet s n).asserted.getLsbD (clsCode cls - 1) = false →
    exec (.faultLatch n cls .event detail) s = .next (latch n cls false detail.toNat
      (srcSet n { srcGet s n with asserted := withBit (srcGet s n).asserted (clsCode cls - 1) } s))) ∧
  (∀ (n : Fin 2944) (cls : FaultClass) (detail : W32) (s : State), alive s = true →
    exec (.faultLatch n cls .idle detail) s =
      .next (srcSet n { srcGet s n with asserted := dropBit (srcGet s n).asserted (clsCode cls - 1) } s))

/-- An event whose set holds CHIPRST resets the chip with cause 3. -/
def Obligations.ChipResetReactionResetsTheChip : Prop :=
  ∀ (n : Fin 2944) (cls c : FaultClass) (what : PairEvent) (detail : W32) (s : State), what ≠ .idle →
    c = (if what = .wireFault then (srcInfo n).highest else cls) → n.val ≠ 2941 → alive s = true →
    (srcInfo n).level = false ∨ what = .wireFault → sampled s n = true → (srcInfo n).can c = true →
    (srcGet s n).status c = false → (srcGet s n).react c &&& rChiprst ≠ 0 → s.faults.safe = false →
    reactsNow s = true → s.faults.handover = none → s.pair.st ≠ .mirrored → s.pair.st ≠ .rejoining →
    ∃ t, exec (.faultLatch n cls what detail) s = .next t ∧ t.power.retained.cause = 3 ∧
      t.power.retained.prevFirstFt = (if c = .ft ∧ s.faults.firstFt = 0xFFF then BitVec.ofNat 12 n.val else s.faults.firstFt) ∧
      t.power.retained.prevPairState = BitVec.ofNat 3 s.pair.st.code ∧
      t.power.retained.chipResets = satAdd s.power.retained.chipResets 1 ∧ t.power.retained.resetTs = s.tsNow ∧
      t.power.cold = false ∧ t.power.phase = (if s.power.modRstN then .starting else .inReset) ∧
      (∀ m, srcGet t m = srcReset m) ∧ t.piers = {} ∧ t.service = {} ∧ t.host = {} ∧ t.deck = {} ∧ t.sb = {} ∧
      t.store.cells = s.store.cells ∧ t.store.side = s.store.side ∧ t.store.selfRefresh = allSelfRefresh ∧
      t.sec.lifecycle = s.sec.lifecycle ∧ t.sec.minSvn = s.sec.minSvn ∧ t.ticks = s.ticks ∧
      t.pending = s.pending

/-- Core 0 takes the first trap and sends what its reaction set asks. -/
def Obligations.TrapsAndDispatch : Prop :=
  (∀ (c : FaultClass) (n : Nat) (s : State), coreRuns 0 s = true → repliesOpen s = false → (c, n) ∈ s.faults.traps →
    (∀ u ∈ s.faults.traps, u ≠ (c, n) → trapBefore (c, n) u = true) →
    (∀ b, (srcInfo n).block = some b → lastQuarter b s = false) → s.faults.handover = none →
    ∃ t, exec .trap s = .next t ∧ t.faults.traps = dropFirst (· == (c, n)) s.faults.traps ∧
      (trestleGet t 0).last = some (.trap c n) ∧ t = { s with faults := t.faults, trestle := t.trestle, deck := t.deck, obs := t.obs } ∧
      ((srcInfo n).block = none → t.faults.messages = s.faults.messages) ∧
      (∀ b, (srcInfo n).block = some b → (srcGet s n).react c &&& rChiprst = 0 → blockFenced b s = false →
        ((srcGet s n).react c &&& rFence ≠ 0 → t.faults.messages =
          s.faults.messages.filter (fun m => m.block ≠ b || m.isFence) ++ [⟨b, true, n⟩]) ∧
        ((srcGet s n).react c &&& rFence = 0 → (srcGet s n).react c &&& rBlkrst ≠ 0 →
          (∀ m ∈ s.faults.messages, m.block = b → m.isFence = false) →
          t.faults.messages = s.faults.messages ++ [⟨b, false, n⟩]))) ∧
  (∀ s : State, repliesOpen s = true ∨ s.faults.traps ≠ [] → exec (.trestleDispatch 0) s = exec .trap s) ∧
  (∀ s : State, repliesOpen s = true → exec .trap s = .next s) ∧
  (∀ (core : Core) (b : Nat) (s : State), coreRuns core.val s = true → core.val ≠ 0 ∨ s.faults.traps = [] →
    b < 64 → (trestleGet s core.val).doorbell.getLsbD b = true →
    (∀ j, j < b → (trestleGet s core.val).doorbell.getLsbD j = false) → s.host.bindReq = none →
    (handlerRuns core.val s = false → exec (.trestleDispatch core) s = .next (dispatchBit core.val b s)) ∧
    (handlerRuns core.val s = true → exec (.trestleDispatch core) s = .next s)) ∧
  (∀ (r : BlockReply) (rest : List BlockReply) (s : State), coreRuns 0 s = true → s.faults.replies = r :: rest →
    repliesOpen s = true ∨ s.faults.traps = [] →
    ∃ t, exec .fenceReply s = .next t ∧ t.faults = { s.faults with replies := rest } ∧
      t = { dispatchBit 0 0 s with faults := t.faults, freeCtr := t.freeCtr, obs := t.obs, sb := t.sb, host := t.host, out := t.out })

/-- Reaction sets are written only before the lock. -/
def Obligations.ReactionSetsAndLock : Prop :=
  (∀ (n : Fin 2944) (v : W64) (s : State), alive s = true → s.faults.safe = false → s.faults.lock = false →
    ∃ t, exec (.fsCfgWrite n v) s = .next t ∧
      srcGet t n = { srcGet s n with
        vector := (v >>> 18).truncate 11
        reactCe := normReact (srcInfo n) .ce (v.truncate 6), reactUc := normReact (srcInfo n) .uc ((v >>> 6).truncate 6)
        reactFt := normReact (srcInfo n) .ft ((v >>> 12).truncate 6) } ∧
      (∀ m, m ≠ n.val → srcGet t m = srcGet s m) ∧ t = { s with faults := t.faults, obs := t.obs, sec := t.sec }) ∧
  (∀ (n : Fin 2944) (v : W64) (s : State), alive s = true → s.faults.safe = false → s.faults.lock = true →
    exec (.fsCfgWrite n v) s = .next (count 2688 s)) ∧
  (∀ s : State, alive s = true → s.faults.safe = false →
    ∃ t, exec .fcLock s = .next t ∧ t.faults = { s.faults with lock := true } ∧
      t = { s with faults := t.faults, sec := t.sec })

/-- The safe state is entered once, with its cause, and takes the block's parts with it. -/
def Obligations.SafeStateAndFieldErrors : Prop :=
  (∀ (cause : BitVec 2) (s : State), alive s = true → s.faults.safe = true → exec (.safeEnter cause) s = .next s) ∧
  (∀ (cause : BitVec 2) (s : State), alive s = true → s.faults.safe = false →
    tblWf (fun _ => ({} : GirthPort)) s.girth.ports = true →
    ∃ t, exec (.safeEnter cause) s = .next t ∧ t.faults.safe = true ∧ t.faults.safeCause = cause ∧
      t.service = { s.service with quiesced := true } ∧ t.store = { s.store with selfRefresh := allSelfRefresh } ∧
      (∀ n, (portGet t n).pwren = false ∧ (portGet t n).st = .off) ∧ t.piers = s.piers ∧ t.sec = s.sec ∧
      (s.faults.handover = none → s.pair.st = .mirrored ∨ s.pair.st = .rejoining →
        t.faults.handover = some none ∧ (∃ b, t.viaduct.health = [.beat b] ∧ b.failing = true) ∧ t.viaduct.journal = []) ∧
      (s.pair.st ≠ .mirrored → s.pair.st ≠ .rejoining → t.faults.handover = s.faults.handover ∧ t.viaduct = s.viaduct)) ∧
  (∀ (s : State), alive s = true → s.faults.nextSweep ≤ s.ticks →
    exec (.fsCfgSweep false) s = .next { s with faults := { s.faults with nextSweep := s.faults.nextSweep + 1000 } }) ∧
  (∀ (s : State), alive s = true → s.faults.nextSweep ≤ s.ticks → s.faults.safe = false →
    ∃ t, exec (.fsCfgSweep true) s = .next t ∧ t.faults.safe = true ∧ t.faults.safeCause = 1 ∧
      t.faults.nextSweep = s.faults.nextSweep + 1000) ∧
  (∀ (next : Option (BitVec 4)) (s : State), s.faults.handover = some next →
    ∃ t, exec .failingBeatSent s = .next t ∧
      t.out = s.out ++ [.viaFrame s.viaduct.txNum s.viaduct.rxAck s.viaduct.nak s.viaduct.health (viaKey s s.viaduct.txNum)] ∧
      t.faults.handover = none ∧ (∀ cause, next = some cause → t.power.retained.cause = cause ∧ t.piers = {}) ∧
      (next = none → t.viaduct = { s.viaduct with health := [], txNum := s.viaduct.txNum + 1 } ∧ t.power = s.power)) ∧
  (∀ (e : CanErr) (tec rxec : Byte) (s : State), alive s = true →
    (srcGet s 2942).reactCe &&& rChiprst = 0 → (srcGet s 2942).reactUc &&& rChiprst = 0 →
    ∃ t, exec (.canErrorState e tec rxec) s = .next t ∧ t.milell.tec = tec ∧ t.milell.rxec = rxec ∧
      t.milell.canState = (match e with | .active => 0 | .passive => 1 | .busOff => 2) ∧
      (srcGet t 2942).asserted.getLsbD 0 = decide (e = .passive) ∧ (srcGet t 2942).asserted.getLsbD 1 = decide (e = .busOff))

/-- A stitch that may run completes on its whole pier set, or ends its run. -/
def Obligations.StitchesCompleteOrEndTheirRun : Prop :=
  ∀ (run idx : Nat) (e : Env) (st : Stitch) (s : State),
    let ends := fun (opcode : Nat) (c : Instr) (r : Ev) => StitchReady run idx opcode e st s →
      (∀ l n s1, r = .done l n s1 → exec c s = .next (stitchDone run idx l n s1)) ∧
      (∀ code p s1, r = .fault code p s1 → exec c s =
        .next (haltRun run idx code p (if code = 1 then raise (320 + p) .uc idx s1 else s1))) ∧
      (∀ s1, r = .wait s1 → exec c s = .next s1)
    ends 1 (.matvec run idx) (evalMatmul e st s) ∧ ends 2 (.matmul run idx) (evalMatmul e st s) ∧
    ends 3 (.attend run idx) (evalAttend e st s) ∧ ends 4 (.norm run idx) (evalNorm e st s) ∧
    ends 5 (.elem run idx) (evalElem e st s) ∧
    (∀ arrival, ends 6 (.reduce run idx arrival) (evalReduce e st arrival s)) ∧
    ends 7 (.route run idx) (evalRoute e st s) ∧ ends 8 (.sample run idx) (evalSample e st s) ∧
    ends 9 (.gather run idx) (evalGather e st s) ∧ ends 10 (.scatter run idx) (evalScatter e st s) ∧
    (∀ joined, ends 12 (.barrier run ⟨idx, joined⟩) (evalBarrier e st joined s)) ∧
    (∀ joined, st.variant = 1 → ends 12 (.waitReread run ⟨idx, joined⟩) (evalBarrier e st joined s))

/-- On operands that read clean, each tensor stitch completes. -/
def Obligations.StitchesRunOnCleanOperands : Prop :=
  (∀ (run idx : Nat) (e : Env) (st : Stitch) (joined : Bool) (s : State),
    st.op 128 1 = 0 ∨ coupled e.run joined s = true → StitchReady run idx 12 e st s →
    (st.variant = 0 → exec (.barrier run ⟨idx, joined⟩) s = .next (stitchDone run idx 0 0 s)) ∧
    (∀ a s1, st.variant = 1 → e.prog.desc st.src0 = some a → OperandsClean e [a] s s1 →
      (∀ w ∈ signalWords e a s1, BitVec.ofNat 64 (st.op 192 64) ≤ w) →
      exec (.barrier run ⟨idx, joined⟩) s = .next (stitchDone run idx 0 0 s1) ∧
      exec (.waitReread run ⟨idx, joined⟩) s = .next (stitchDone run idx 0 0 s1))) ∧
  ∀ (run idx : Nat) (e : Env) (st : Stitch) (s s1 : State) (a dst : TDesc), e.prog.desc st.src0 = some a →
    e.prog.desc st.dst = some dst →
    let opt := fun (n : Nat) => (e.prog.desc n).toList
    (∀ x s0, e.prog.desc st.src1 = some x →
      OperandsClean e (opt (st.op 128 12)) s s0 → OperandsClean e ([a, x] ++ opt st.src2) s0 s1 →
      (StitchReady run idx 1 e st s → ∃ t, exec (.matvec run idx) s = .next (stitchDone run idx 0 0 t)) ∧
      (StitchReady run idx 2 e st s → ∃ t, exec (.matmul run idx) s = .next (stitchDone run idx 0 0 t))) ∧
    (∀ g, e.prog.desc st.src1 = some g → OperandsClean e ([a, g] ++ (if st.variant = 1 then opt st.src2 else [])) s s1 →
      StitchReady run idx 4 e st s → ∃ t, exec (.norm run idx) s = .next (stitchDone run idx 0 0 t)) ∧
    (OperandsClean e ([a] ++ opt st.src1 ++ opt st.src2) s s1 → StitchReady run idx 5 e st s →
      ∃ t, exec (.elem run idx) s = .next (stitchDone run idx (ropeRange e st dst s1) 0 t)) ∧
    (∀ arrival, OperandsClean e ([a] ++ (if st.variant = 2 then opt st.src1 else [])) s s1 → StitchReady run idx 6 e st s →
      ∃ t, exec (.reduce run idx arrival) s = .next (stitchDone run idx 0 0 t)) ∧
    (∀ m, e.prog.desc (st.op 144 12) = some m → OperandsClean e [a] s s1 → StitchReady run idx 7 e st s →
      ∃ l t, exec (.route run idx) s = .next (stitchDone run idx l l t)) ∧
    (∀ r, e.prog.desc st.src1 = some r → OperandsClean e ([a, r] ++ opt st.src2) s s1 → StitchReady run idx 8 e st s →
      ∃ l n t, exec (.sample run idx) s = .next (stitchDone run idx l n t)) ∧
    (st.variant = 1 → OperandsClean e [a] s s1 → StitchReady run idx 9 e st s →
      exec (.gather run idx) s = .next (stitchDone run idx 0 0 (collect e a dst st.acc s1))) ∧
    (∀ ix, st.variant ≠ 1 → e.prog.desc st.src1 = some ix → OperandsClean e [a, ix] s s1 → StitchReady run idx 9 e st s →
      ∃ l t, exec (.gather run idx) s = .next (stitchDone run idx l 0 t)) ∧
    (st.variant = 1 → OperandsClean e [a] s s1 → StitchReady run idx 10 e st s →
      ∃ t, exec (.scatter run idx) s = .next (stitchDone run idx 0 0 t)) ∧
    (∀ ix, st.variant = 0 → e.prog.desc st.src1 = some ix → OperandsClean e [a, ix] s s1 → StitchReady run idx 10 e st s →
      ∃ l t, exec (.scatter run idx) s = .next (stitchDone run idx l 0 t))

/-- SIGNAL writes its word, and OFFLOAD hands its item to the port. -/
def Obligations.SignalAndOffload : Prop :=
  (∀ (run idx : Nat) (e : Env) (st : Stitch) (d : TDesc) (joined : Bool) (s : State), startable run idx 13 s = some (e, st) → overran e.run idx s = false →
    st.op 128 1 = 0 ∨ coupled e.run joined s = true → e.prog.desc st.dst = some d →
    unaccepted e.run.ctx ((st.roles e.prog).map e.actual) s = false →
    (∀ j o, j < idx → e.run.openAt e.prog j = true → e.prog.stitch j = some o →
      ∀ q ∈ o.roles e.prog, q ∉ st.roles e.prog) →
    (∀ w ∈ s.pair.winReqs, w.2 ≠ .write run ∧ w.2 ≠ .signal run idx) →
    (d.kind ≠ kindWindow → exec (.signal run ⟨idx, joined⟩) s = .next (finish run idx 0 0
      (foldS (if d.replicated || d.isPartial then d.piers else [d.pierFirst])
        (fun q s => writeBytes e d q 0 (leBytes 8 (st.op 192 64)) s) s))) ∧
    (∀ w off, d.kind = kindWindow → windowOf s e.run.ctx d.base = some (w, off) → s.viaduct.up = true →
      exec (.signal run ⟨idx, joined⟩) s =
        .next (sendWindowWrite (.signal run idx) w e.run.ctx off (leBytes 8 (st.op 192 64)) s))) ∧
  (∀ (run idx : Nat) (e : Env) (st : Stitch) (s : State), startable run idx 11 s = some (e, st) →
    let mask := (laneMask e (st.op 184 12) (st.op 196 10) s).toNat % 65536
    let port := st.op 128 3
    ((e.prog.desc (st.op 184 12)).isSome = true → mask = 0 → exec (.offload run idx) s = .next (finish run idx 0 0 s)) ∧
    ((e.prog.desc (st.op 184 12)).isNone = true ∨ mask ≠ 0 → (portGet s port).st = .up →
      (portGet s port).items.length < 2 ^ 32 →
      ∃ it t, exec (.offload run idx) s = .next t ∧ (portGet t port).items = (portGet s port).items ++ [it] ∧
        (∀ i ∈ (portGet s port).items, i.tag ≠ it.tag) ∧ it.run = run ∧ it.stitch = idx ∧ it.ctx = e.run.ctx ∧
        it.deadline = after s.piers.offloadTimeout.toNat s ∧ it.sent = false ∧ it.bytes.length = 128 ∧
        (portGet t port).nextTag = it.tag + 1 ∧
        t.piers = (runMod run (fun r => { r with items := r.items ++ [(idx, port, it.tag.toNat)] }) s).piers ∧
        t = { s with girth := t.girth, piers := t.piers }) ∧
    ((e.prog.desc (st.op 184 12)).isNone = true ∨ mask ≠ 0 → (portGet s port).st ≠ .up → (portGet s port).st ≠ .quiescing →
      exec (.offload run idx) s = .next (haltRun run idx 6 ((st.roles e.prog).headD 0) s)))

/-- Runs end as their exception says; array steps accumulate and skive frames check. -/
def Obligations.RunsArrayAndSkive : Prop :=
  ((∀ (run : Nat) (stitch : W16) (code : Byte) (pier : Pier) (s : State), alive s = true → 1 ≤ code.toNat → code.toNat ≤ 8 →
    exec (.halt run stitch code pier) s = .next (haltRun run stitch.toNat code.toNat pier.val s)) ∧
  (∀ (run idx : Nat) (pier : Pier) (r : Run) (e : Env) (st : Stitch) (s : State), alive s = true →
    runGet s run = some r → envOf s r = some e → e.prog.stitch idx = some st → r.openAt e.prog idx = true →
    pier.val ∈ (st.roles e.prog).map e.actual →
    (∃ t, r.stalled.find? (fun w => w.1 = idx) = some (idx, t) ∧ t + 1 + s.piers.stitchTimeout.toNat ≤ s.ticks) →
    exec (.stitchTimeout run idx pier) s = .next (haltRun run idx 8 pier.val s)) ∧
  (∀ (port : Port) (tag : W32) (t : Item) (s : State), alive s = true →
    (portGet s port.val).items.find? (fun t => t.tag = tag) = some t → t.aborted = none → t.deadline ≤ s.ticks →
    exec (.offloadTimeout port tag) s = .next (haltRun t.run t.stitch 5 t.pier s)) ∧
  (∀ (run stitch code pier b : Nat) (r : Run) (s : State), runGet s run = some r → r.kind = .batch b →
    s.service.batches = [] → envOf (abortItems run { s with piers := { s.piers with excs := s.piers.excs ++ [(run, stitch, code, pier)] } }) r = none →
    ∃ t, haltRun run stitch code pier s = t ∧ t.piers.excs = s.piers.excs ++ [(run, stitch, code, pier)] ∧
      (∀ r ∈ t.piers.runs, r.id ≠ run) ∧ t = { s with piers := t.piers, girth := t.girth, store := t.store, trestle := t.trestle } ∧
      (trestleGet t (schedCore r.ctx)).doorbell = withBit (trestleGet s (schedCore r.ctx)).doorbell 1) ∧
  (∀ (run i : Nat) (r : Run) (e : Env) (s : State), alive s = true → runGet s run = some r → r.kind = .raw i →
    envOf s r = some e → r.items = [] → unaccepted r.ctx (List.range 320) s = false → (∀ w ∈ s.pair.winReqs, w.2 ≠ .write run ∧ ∀ k, w.2 ≠ .signal run k) → (∀ j < e.prog.stitches.length, r.openAt e.prog j = false) →
    let late := (streamGet s i).deadlineTs ≠ 0 ∧ (streamGet s i).deadlineTs ≤ s.tsNow
    (late → exec (.rawRunEnd run) s = .next (applyCmds r.cmds (endStream i .limited 3 r.laneExc (dropRun run (clashRun e s))))) ∧
    (¬ late → exec (.rawRunEnd run) s = .next (applyCmds r.cmds (endStream i .done 6 r.laneExc (dropRun run (clashRun e s))))))) ∧
  (∀ (pier : Pier) (s : State), alive s = true → memUp s pier.val = true →
    let p := pier.val
    let x := pierGet s p
    let toScratch := fun (at_ : Nat) (b : List Byte) (t : State) =>
      { t with store := { t.store with scratch := msetN t.store.scratch (p * 524288 + at_) b } }
    (∀ (w : WeightStep) (o : OperandRead), x.codebookWait = none → x.held = none →
      exec (.arrayStep pier (some w) (some o) none) s =
        .next (pierSet p { x with acc := stepLanes s p x.acc w o } (count (4 * p) s)) ∧
      ∀ d : BitVec 19, exec (.arrayStep pier (some w) (some o) (some d)) s =
        .next (pierSet p { x with acc := List.replicate 16 0 }
          (toScratch d.toNat ((stepLanes s p x.acc w o).flatMap (fun v => leBytes 4 v.toNat)) (count (4 * p) s)))) ∧
    (∀ (w : WeightStep) (next : Option WeightStep) (o : OperandRead), x.codebookWait = none → x.held = some w →
      exec (.arrayStep pier next (some o) none) s =
        .next (pierSet p { x with acc := stepLanes s p x.acc w o, held := (presented x next).1
                                  released := (presented x next).2 } (count (4 * p) s))) ∧
    (∀ (w : WeightStep) (rest : List WeightStep) (o : OperandRead), x.codebookWait = none → x.held = none →
      x.released = w :: rest → exec (.arrayStep pier none (some o) none) s =
        .next (pierSet p { x with acc := stepLanes s p x.acc w o, released := rest } (count (4 * p) s))) ∧
    (∀ w : WeightStep, x.held = none → exec (.arrayStep pier (some w) none none) s = .next (pierSet p { x with held := some w } s)) ∧
    (∀ entries : List W32,
      ((∀ w, x.held = some w → w.fmt ≠ .lc12) → exec (.codebookLoad pier entries) s =
        .next (toScratch 0x7C000 (entries.flatMap (fun w => leBytes 4 w.toNat)) (pierSet p { x with codebook := none } s))) ∧
      (∀ w, x.held = some w → w.fmt = .lc12 → exec (.codebookLoad pier entries) s =
        .next (pierSet p { x with codebookWait := some entries } s))) ∧
    (∀ (slot : Fin 16) (stitch : W16) (c : SkiveStream) (header : W32) (scales payload : List Byte)
        (syms : List Nat),
      let q := (rowOfStitch s p stitch.toNat).getD (0, .e2m1, 0)
      let n := c.steps + frameSteps header
      x.stream = some c → c.run = q.1 → c.slot = slot.val → c.stitch = stitch → c.stopped = false →
      skiveFrame (tget (fun _ => 0) x.slots slot.val) c.expected.toNat header payload = some syms →
      scales.length = 2 * frameSteps header →
      exec (.skiveFrameDecode pier slot stitch header scales payload) s =
        .next (pierSet p { x with
          stream := some (if q.2.2 ≤ n ∧ q.2.2 ≠ 0 then ⟨q.1, slot.val, stitch, 0, 0, false⟩
            else { c with expected := c.expected + 1, steps := n })
          released := x.released ++ frameToSteps q.2.1 syms scales } s)))

/-- A line is read, and a line written lands at its places and nowhere else. -/
def Obligations.LinesAreReadAndWritten : Prop :=
  (∀ (dpa : Dpa) (req : MemRequester) (h : Hit) (k : Nat) (s : State), alive s = true →
    mapDpa s.store.regions (dpa.toNat / 64 * 64) = some h → h.region.mirror = false →
    let c := primaryPlace h
    memUp s c.pier = true → (∀ x, reqTagged req = some x → h.region.owner = 1 → (sideGet s c.pier c.addr).ctxTag.toNat = x) →
    readKey s h.region (sideGet s c.pier c.addr) = some k → (sideGet s c.pier c.addr).poison = false →
    exec (.memoryRead dpa req []) s = .next (touch c.pier c.addr s) ∧
    (memRead (dpa.toNat / 64 * 64) req [] s).1 = ⟨decrypt s c.pier c.addr k (dpa.toNat / 64), false⟩) ∧
  (∀ (dpa : Dpa) (req : MemRequester) (d : LineData) (poison : Bool) (h : Hit) (s : State), alive s = true →
    MemoryCanonical s → mapDpa s.store.regions (dpa.toNat / 64 * 64) = some h → h.region.mirror = false →
    let c := primaryPlace h
    let x := writeSide s h.region ((reqCtx req).getD 0)
    memUp s c.pier = true → x.key ≠ 0 →
    exec (.memoryWrite dpa req d (BitVec.allOnes 64) poison) s =
      .next (putLine c.pier c.addr d { x with poison := poison } (touch c.pier c.addr s)) ∧
    mgetN (putLine c.pier c.addr d { x with poison := poison } (touch c.pier c.addr s)).store.cells
      (byteKey c.pier (c.addr / 64 * 64)) 64 = lineBytes d) ∧
  (∀ (dpa : Dpa) (req : MemRequester) (d : LineData) (mask : W64) (poison : Bool) (s : State), alive s = true →
    ∃ t, exec (.memoryWrite dpa req d mask poison) s = .next t ∧ (MemoryCanonical s → MemoryCanonical t) ∧
      ∀ b : Nat, (∀ h, mapDpa s.store.regions (dpa.toNat / 64 * 64) = some h → ∀ c ∈ writePlaces s h,
          b < byteKey c.pier (c.addr / 64 * 64) ∨ byteKey c.pier (c.addr / 64 * 64) + 64 ≤ b) →
        mget t.store.cells b = mget s.store.cells b)

/-- Regions are checked and locked; rebuild, scrub and refresh do their work. -/
def Obligations.RegionsRebuildAndScrub : Prop :=
  ((∀ (n : Fin 64) (base : W64) (s : State), writable s = true → s.store.lock = false →
    (regionGet s.store.regions n).valid = false →
    let r := withBase (regionGet s.store.regions n) base
    let code := regionCheck s.store.regions n r
    ∃ t, exec (.regionValidSet n base) s = .next t ∧ t = { s with store := t.store, sec := t.sec } ∧
      t.store.regions = tset (fun _ => {}) s.store.regions n { r with valid := code = 0 } ∧
      t.store.errCode = BitVec.ofNat 8 code ∧ t.store.errEntry = BitVec.ofNat 6 n) ∧
  (∀ (n : Fin 64) (base : W64) (s : State), writable s = true →
    s.store.lock = true ∨ (regionGet s.store.regions n).valid = true →
    exec (.regionValidSet n base) s = .next (countIgnored (0x30000 + 16 * n) s)) ∧
  (∀ (n : Fin 64) (s : State), writable s = true →
    (s.store.lock = true → exec (.regionValidClear n) s = .next (countIgnored (0x30000 + 16 * n) s)) ∧
    (s.store.lock = false → ∃ t, exec (.regionValidClear n) s = .next t ∧ t = { s with store := t.store, sec := t.sec } ∧
      t.store.regions = tset (fun _ => {}) s.store.regions n { regionGet s.store.regions n with valid := false })) ∧
  (∀ s : State, writable s = true →
    (s.store.lock = true → exec .regionLock s = .next s) ∧
    (s.store.lock = false → lockable s.store.regions = true →
      ∃ t, exec .regionLock s = .next t ∧ t = { s with store := t.store, sec := t.sec, power := t.power } ∧
        t.store = { s.store with lock := true, errCode := 0, errEntry := 0 } ∧
        t.power.retained.regions = some s.store.regions ∧ t.power.retained.spares = s.store.spares) ∧
    (s.store.lock = false → lockable s.store.regions = false →
      exec .regionLock s = .next { s with store := { s.store with errCode := 8, errEntry := 0 } }))) ∧
  ((∀ (b : Rebuild) (s : State),
    s.store.rebuilds.find? (fun b => memUp s b.src.pier && memUp s b.dst.pier) = some b →
    let r := regionGet s.store.regions b.entry
    let s1 := { s with store := { s.store with rebuilds := s.store.rebuilds.erase b } }
    let base := fun (x : Seat) => r.localB + (if x.inSpare then 2 * r.share else 0)
    let copied := if b.src.inSpare || b.dst.inSpare then copyLines b.src.pier (base b.src) b.dst.pier (base b.dst) (2 * r.share) s1
      else copyLines b.src.pier (r.localB + r.share) b.dst.pier r.localB r.share
        (copyLines b.src.pier r.localB b.dst.pier (r.localB + r.share) r.share s1)
    (b.back = true → exec .mirrorRebuildEnd s = .next copied) ∧
    (b.back = false → ∃ t, exec .mirrorRebuildEnd s = .next t ∧ t = { copied with store := t.store, power := t.power } ∧
      t.store = { copied.store with spares := t.store.spares } ∧
      (∀ x : Spare, x ∈ t.store.spares ↔ (x ∈ copied.store.spares ∧ ¬ (x.entry = b.entry ∧ x.pair = b.pair)) ∨
        x = ⟨b.entry, b.pair, b.src, b.dst, b.layout⟩) ∧
      ⟨b.entry, b.pair, b.src, b.dst, b.layout⟩ ∈ t.power.retained.spares)) ∧
  (∀ (pier : Pier) (s : State),
    let p := pier.val
    let n := tget (fun _ => 0) s.store.scrubPos p
    let u := touch p (n * 64) s
    alive s = true → memUp s p = true → tget (fun _ => false) s.store.selfRefresh (refreshUnitOf p (n * 64)) = false →
    (sideGet s p (n * 64)).poison = false →
    exec (.patrolScrub pier []) s = .next { u with store :=
      { u.store with scrubPos := tset (fun _ => 0) s.store.scrubPos p ((n + 1) % pierLines p) } }) ∧
  (∀ (target : RefreshTarget) (reading : Option Byte) (s : State), alive s = true → unitAsleep (targetUnit target) s = false →
    exec (.refresh ⟨target, reading⟩) s = .next (stackReading (targetUnit target) reading { s with store := { s.store with
      openRow := s.store.openRow.filter (fun e => !bankInTarget target e.1)
      lastRefresh := tset (fun _ => 0) s.store.lastRefresh (targetIdx target) s.ticks } }) ∧
    (∀ n v, targetUnit target = .sixteenth n → reading = some v → ∃ t, exec (.refresh ⟨target, reading⟩) s = .next t ∧
      t.store.stackTemp = tset (fun _ => 0) s.store.stackTemp (n.val / 16) v)) ∧
  (∀ (unit : RefreshUnit) (s : State), alive s = true →
    let u := unitIdx unit
    let closed := s.store.openRow.filter (fun e => !bankInUnit unit e.1)
    (s.store.srIdle ≠ 0 → tget (fun _ => 0) s.store.lastAccess u + 1 + s.store.srIdle.toNat ≤ s.ticks → unitAsleep unit s = false →
      exec (.selfRefreshEntry unit) s = .next { s with store := { s.store with
        selfRefresh := tset (fun _ => false) s.store.selfRefresh u true, openRow := closed } }) ∧
    (s.faults.safe = false → unitAsleep unit s = true → memUp s (unitPier unit) = true →
      exec (.selfRefreshExit unit) s = .next { s with store := { s.store with
        selfRefresh := tset (fun _ => false) s.store.selfRefresh u false
        lastAccess := tset (fun _ => 0) s.store.lastAccess u s.ticks } })))

/-- Commands are fetched from the queues, and long operations advance to their ends. -/
def Obligations.CommandsAreFetchedAndAdvanced : Prop :=
  ((∀ (qp : Qp) (be : BitVec 2) (value : W16) (s : State), barOpen s = true →
    let q := qpGet s qp
    (q.armed = true ∧ be = 3 ∧ value.toNat < ringSize q.sqSize.toNat → exec (.sqTailWrite qp be value) s =
      .next (ringDoorbell (schedCore q.ctx.toNat) 0 (qpSet qp { q with sqTail := value.toNat, pendingBit := true } s))) ∧
    (q.armed = false ∨ be ≠ 3 ∨ ringSize q.sqSize.toNat ≤ value.toNat → exec (.sqTailWrite qp be value) s = .next (count 2550 s))) ∧
  (∀ (qp : Qp) (s : State), s.service.quiesced = false → fetchHeld s = false →
    let q := qpGet s qp
    coreRuns (schedCore q.ctx.toNat) s = true → q.fetchable = true → lowestPending s qp q = true →
    let e : BitVec 512 := BitVec.ofNat 512 (leNat (winBytes s (q.sqPages.1 * 4096 + 64 * q.sqHead) 64))
    let u := winTouch (q.sqPages.1 * 4096 + 64 * q.sqHead) 64 s
    exec (.sqFetch qp) s = .next (qpSet qp { q with
        sqHead := (q.sqHead + 1) % ringSize q.sqSize.toNat, reserved := q.reserved + 1
        fetched := q.fetched ++ [(u.host.nextFetch, e)]
        pendingBit := (q.sqHead + 1) % ringSize q.sqSize.toNat ≠ q.sqTail }
      (dispatchBit (schedCore q.ctx.toNat) 0 { u with host := { u.host with nextFetch := u.host.nextFetch + 1 } })))) ∧
  (∀ (slot : Fin 1024) (chunk : List Byte) (tagOk : Bool) (s : State), alive s = true → s.faults.safe = false →
    s.service.quiesced = false →
    let j := slot.val
    let x := opGet s j
    x.st = .running → x.binding = false →
    (x.opcode = 0x10 → exec (.longopUnit slot chunk tagOk) s = .next (loadUnit j chunk tagOk s)) ∧
    (∀ m, x.opcode = 0x10 → canRequest s = true → x.doneUnits.toNat ≠ 0 → x.doneUnits.toNat < m.tagChunk →
      modelOf s x.target.toNat = some m → tagOk = false →
      exec (.longopUnit slot chunk tagOk) s = .next (endOp j .failed 0x11 0 0 (undoLoad x.target.toNat s))) ∧
    (x.opcode = 0x12 → x.todo = [] → exec (.longopUnit slot chunk tagOk) s = .next (burnishEnd j s)) ∧
    (∀ base rest s1, x.opcode = 0x12 →
      (∀ p, p ≠ 1024 → x.todo = (p, base) :: rest → rest ≠ [] →
        scrubPage x.target.toNat p base ((((ctxGet s x.target.toNat).withheld.find? (fun w => w.1 = p && w.2.1 = base)).map (·.2.2)).getD 0) s = some s1 →
        exec (.longopUnit slot chunk tagOk) s = .next (opMod j (fun x => { x with todo := rest }) (unitDone j s1)))) ∧
    (x.opcode = 0x13 → exec (.longopUnit slot chunk tagOk) s = .next (rotateUnit j s)) ∧
    (x.opcode = 0x13 → x.todo = [] → exec (.longopUnit slot chunk tagOk) s = .next (rotateEnd j s)) ∧
    (x.opcode = 0x14 → x.xferDone ≠ 0 →
      let s1 := unitDone j (opMod j (fun x => { x with xferDone := x.xferDone - 1 }) s)
      exec (.longopUnit slot chunk tagOk) s = .next
        (if (opGet s1 j).totalUnits ≤ (opGet s1 j).doneUnits then endOp j .done 0x20 0 0 s1 else s1)))

/-- A fetched SUBMIT is rejected by its first failing check, or admitted. -/
def Obligations.SubmitIsCheckedOrAdmitted : Prop :=
  ∀ (qp : Qp) (e : BitVec 512) (s s1 : State), takeCmd qp 1 s = some (e, s1) →
    (∀ status detail, submitFails qp e s1 = some (status, detail) → 0x10 ≤ status → status < 0x20 →
      let c : Completion := ⟨2, BitVec.ofNat 8 status, BitVec.ofNat 8 detail, cmdCid e, BitVec.ofNat 16 qp, 0, 0, []⟩
      ∃ t, exec (.submit qp) s = .next t ∧ (qpGet t qp).waiting = (qpGet s1 qp).waiting ++ [c] ∧
        t = { s with host := t.host, obs := t.obs }) ∧
    let r := reqOf e
    let u := winTouch (r.page * 4096) r.blockBytes s1
    let block := winBytes u (r.page * 4096) r.blockBytes
    let inputs := if r.raw then inputsOf (qpGet u qp).ctx.toNat (streamOf qp e block (qpGet u qp).ctx).slots u else []
    (submitFails qp e s1 = none → exec (.submit qp) s = .next (takeSubmit qp e u)) ∧
    (∀ i at_, submitFails qp e s1 = none → waits u = false → freeRecord u u.freeCtr = some i →
      freeExtent u u.freeCtr (extentLinesOf r ((reqBytesOf e block inputs).length / 64)) = some at_ →
      ∃ s4, exec (.submit qp) s = .next (cinch i s4))

/-- Commands that name a stream take their effect, and a long operation answers them. -/
def Obligations.HandleCommandsTakeEffect : Prop :=
  ∀ (qp : Qp) (op : Nat) (c : Instr) (e : BitVec 512) (s s1 : State),
    (c, op) ∈ [(.suspend qp, 2), (.resume qp, 3), (.cancel qp, 4), (.query qp, 5), (.setPriority qp, 6)] →
    takeCmd qp op s = some (e, s1) → cmdByte e 0 = op →
    (cmdFormat e = false → exec c s = .next (answer qp e 0x11 0 0 [] s1)) ∧
    (∀ st, cmdFormat e = true → targetOf s1 (some (qpGet s1 qp).ctx) (cmdField e 8 8) = .rejected st →
      exec c s = .next (answer qp e st 0 0 [] s1)) ∧
    (∀ i, cmdFormat e = true → targetOf s1 (some (qpGet s1 qp).ctx) (cmdField e 8 8) = .stream i →
      let x := streamGet s1 i
      let h := x.handle i
      x.holds = false →
      (op = 5 → exec c s = .next (answer qp e 0 0 h (queryStream x) s1)) ∧
      (op = 2 → x.live = true → x.st ≠ .submitted → x.st ≠ .suspended →
        exec c s = .next (answerAfter s1 qp e 0 h (suspend i suspCmd s1))) ∧
      (op = 3 → x.st = .suspended → cmdByte e 1 = 0 → x.susp &&& suspCmd ≠ 0 →
        exec c s = .next (answerAfter s1 qp e 0 h (unsuspend i suspCmd s1))) ∧
      (op = 4 → x.live = true → x.st ≠ .submitted → exec c s = .next (answer qp e 0 0 h [] (endStream i .cancelled 4 0 s1))) ∧
      (op = 6 → x.live = true → x.st ≠ .submitted → exec c s = .next (answerAfter s1 qp e 0 h
        (putIndex i .other (streamSet i { x with priority := BitVec.ofNat 3 (cmdByte e 0x10) } s1))))) ∧
    (∀ j st s2, cmdFormat e = true → targetOf s1 (some (qpGet s1 qp).ctx) (cmdField e 8 8) = .longOp j →
      opCmd j op s1 = some (st, s2) → cmdByte e 1 = 0 →
      exec c s = .next (answer qp e st 0 ((opGet s1 j).handle j) (if op = 5 then queryOp (opGet s1 j) else []) s2))

/-- Context commands: accepted as long operations, or rejected; UNLOAD completes at once. -/
def Obligations.ContextCommandsAreAccepted : Prop :=
  ∀ (qp : Qp) (e : BitVec 512) (s s1 : State),
    let ctx := (qpGet s1 qp).ctx
    (∀ s2, takeCmd qp 0x10 s = some (e, s1) → loadFails qp e s1 = none → (freeSlot s1).isSome = true → tryLock s1 = some s2 → exec (.loadModel qp) s =
      .next (acceptOp qp e (opOf qp e ctx (cmdField e 0x10 8 / 65536) s1) (fun _ s => s) s2)) ∧
    (takeCmd qp 0x10 s = some (e, s1) → loadFails qp e s1 = none → freeSlot s1 = none →
      exec (.loadModel qp) s = .next (answer qp e 0x13 0 0 [] s1)) ∧
    (takeCmd qp 0x10 s = some (e, s1) → loadFails qp e s1 = none → (freeSlot s1).isSome = true → tryLock s1 = none →
      exec (.loadModel qp) s = .next (answer qp e 0x10 0 0 [] { s1 with store := { s1.store with errCode := 8, errEntry := 0 } })) ∧
    (∀ m, takeCmd qp 0x11 s = some (e, s1) → cmdFormat e = true → (ctxGet s1 ctx.toNat).st = .bound →
      modelOf s1 ctx.toNat = some m → liveOf s1 ctx.toNat = [] → anyOpOpen s1 ctx.toNat = false →
      ∃ s2, exec (.unload qp) s = .next (answerAfter s1 qp e 0 0 (putContext ctx.toNat s2)) ∧ modelOf s2 ctx.toNat = none ∧
        (ctxGet s2 ctx.toNat).st = .keyed ∧ (∀ p ∈ s2.piers.pool, p.1 ≠ ctx.toNat)) ∧
    (takeCmd qp 0x12 s = some (e, s1) → cmdFormat e = true →
      let t := cmdField e 4 2
      ((qpGet s1 qp).priv = true → hasModel s1 t = false → liveOf s1 t = [] → anyOpOpen s1 t = false →
        exec (.burnish qp) s = .next (acceptOp qp e (opOf qp e (BitVec.ofNat 12 t) 0 s1) (fun j => burnishStart j t) s1)) ∧
      ((qpGet s1 qp).priv = false → exec (.burnish qp) s = .next (answer qp e 0x12 0 0 [] s1))) ∧
    (takeCmd qp 0x13 s = some (e, s1) → cmdFormat e = true → hasModel s1 ctx.toNat = true →
      opOpen s1 ctx.toNat [0x10, 0x12, 0x13] = false → exec (.rotateKey qp) s =
        .next (acceptOp qp e (opOf qp e ctx 0 s1) (fun j => rotateStart j ctx.toNat) s1)) ∧
    (takeCmd qp 0x14 s = some (e, s1) → cmdFormat e = true → (bindingGet s1 ctx.toNat).bound = true →
      cmdField e 0x10 8 + 4096 * cmdField e 0x18 4 ≤ Config.arenaSize ctx.toNat → opOpen s1 ctx.toNat [0x12, 0x14] = false →
      exec (.migrate qp) s = .next (acceptOp qp e (opOf qp e ctx (cmdField e 0x18 4) s1) (fun _ s => s) s1)) ∧
    (∀ (x : LongOp) (f : Nat → State → State),
      (startOp x s1 = none → acceptOp qp e x f s1 = answer qp e 0x13 0 0 [] s1) ∧
      (∀ j s2, startOp x s1 = some (j, s2) → (opGet s1 j).st = .free ∧
        acceptOp qp e x f s1 = f j (answerAfter s1 qp e 0 ((opGet s2 j).handle j) s2)))

/-- Batch boundaries and prefill ends carry the streams on. -/
def Obligations.BoundariesCarryStreamsOn : Prop :=
  (∀ (b : Fin 1024) (s : State), alive s = true → s.service.quiesced = false →
    let u := queueCinched s
    (batchGet u b = none → exec (.batchBoundary b) s = .next (newWork b u)) ∧
    (∀ B, batchGet u b = some B → B.run = none → exec (.batchBoundary b) s = .next (nextRun b (boundary b B none u))) ∧
    (∀ B r e, batchGet u b = some B → B.run.bind (runGet u) = some r → envOf u r = some e →
      ((∀ j < e.prog.stitches.length, r.openAt e.prog j = false) →
        exec (.batchBoundary b) s = .next (nextRun b (boundary b B (some r) u))) ∧
      ((∃ j < e.prog.stitches.length, r.openAt e.prog j = true) → exec (.batchBoundary b) s = .next u))) ∧
  (∀ (rec : Fin 262144) (r : Run) (e : Env) (s : State), alive s = true → s.service.quiesced = false →
    s.piers.runs.find? (fun r => r.kind = .prefill rec) = some r → envOf s r = some e →
    (∀ j < e.prog.stitches.length, r.openAt e.prog j = false) →
    let s1 := processed rec r.count 0 r (dropRun r.id s)
    let b := ((streamGet s rec).place.map (·.1)).getD 1024
    let mine := cmdsFor s1 rec (((batchGet s1 b).map (·.cmds)).getD [])
    let s3 := boundaryOf rec (applyCmds mine (batchMod b (fun B => { B with cmds := B.cmds.filter (fun c => !mine.contains c) }) s1))
    ((streamGet s3 rec).st = .prefill → exec (.prefillRunEnd rec) s = .next (startPrefill rec s3)) ∧
    ((streamGet s3 rec).st ≠ .prefill → exec (.prefillRunEnd rec) s = .next s3))

/-- Flush, deadline, and the pages of a stream that leave and return. -/
def Obligations.FlushDeadlineAndPages : Prop :=
  (∀ (rec : Fin 262144) (s : State), alive s = true →
    let x := streamGet s rec
    x.live = true → x.flushTicks ≠ 0 → x.opened ≠ [] → x.openSince + 1 + x.flushTicks.toNat ≤ s.ticks →
    exec (.recordFlush rec) s = .next (sealRec rec false 0 0 0 s)) ∧
  (∀ (core : Core) (s : State), coreRuns core s = true →
    let late := fun (i : Nat) => (streamGet s i).live = true ∧ (streamGet s i).holds = false ∧ (streamGet s i).st ≠ .submitted ∧
      schedCore (streamGet s i).ctx.toNat = core ∧ (streamGet s i).deadlineTs ≠ 0 ∧ (streamGet s i).deadlineTs ≤ s.tsNow
    ((∀ i ∈ streamIds s, ¬ late i) → exec (.deadlineCheck core) s = .next s) ∧
    (∀ i, streamIds s = [i] → late i → exec (.deadlineCheck core) s = .next (endStream i .limited 3 0 s))) ∧
  (∀ (rec : Fin 262144) (n slot : Nat) (k : KvPage) (s : State), alive s = true → canRequest s = true →
    let x := streamGet s rec
    let c := ctxGet s x.ctx.toNat
    let lines := (List.range ((k.bytes + 63) / 64)).map (fun j => engineLine s k.pier (k.frame * 256 + 64 * j) x.ctx.toNat)
    x.kv[n]? = some k → k.resident = true → k.moving = true → k.bytes ≤ k.moved → (∀ l ∈ lines, l.poison = false) →
    findBelow c.spillSlots.toNat (fun m => !c.spillUsed.contains m) = some slot →
    ∃ t, exec (.kvSpillDone rec n) s = .next t ∧ t = { s with service := t.service, sec := t.sec, obs := t.obs } ∧
      (streamGet t rec).kv[n]? = some { k with resident := false, frame := slot, moving := false,
                                               data := (lines.flatMap (fun l => lineBytes l.data)).take k.bytes } ∧
      (ctxGet t x.ctx.toNat).spillUsed = c.spillUsed ++ [slot] ∧ (ctxGet t x.ctx.toNat).spillCtr = c.spillCtr + 1) ∧
  (∀ (rec : Fin 262144) (n : Nat) (k : KvPage) (s : State), alive s = true →
    let x := streamGet s rec
    x.kv[n]? = some k → k.resident = false → k.moving = true → k.bytes ≤ k.moved → canRequest s = true →
    exec (.kvReadbackDone rec n false) s = .next (restart rec 0xFF (count 2610 s)) ∧
    (∀ a, poolPlace s.freeCtr k.pier k.bytes (drawFree s).2 = some a →
      ∃ t, exec (.kvReadbackDone rec n true) s = .next t ∧
        (streamGet t rec).kv[n]? = some { k with resident := true, frame := a / 256, moving := false, data := [] } ∧
        t.store = (engineWrite k.pier a x.ctx.toNat k.data
          (ctxSet x.ctx.toNat { ctxGet s x.ctx.toNat with spillUsed := (ctxGet s x.ctx.toNat).spillUsed.filter (· ≠ k.frame) }
            (drawFree s).2)).store)) ∧
  (∀ (i : Nat) (tok : W32) (s : State), tok ≠ 0xFFFFFFFF → tok ∈ (streamGet s i).stopIds →
    takeToken i tok s = endStream i .done 1 0 s)

/-- A context is bound with its credential, and unbound when no queue pair needs it. -/
def Obligations.ContextsAreBoundAndUnbound : Prop :=
  (∀ (v : W64) (s : State), bar0Open s = true → s.host.bindReq = none →
    let c := fld v 48 12
    let pasid := BitVec.ofNat 20 (fld v 0 20)
    let s0 := { s with host := { s.host with ctxBindCtx := BitVec.ofNat 12 c, ctxBindPasid := pasid } }
    let u0 := dispatchBit 7 0 { s0 with host := { s0.host with bindReq := none } }
    let b := bindingGet s c
    let x := ctxGet s c
    let res := fun (n : Byte) (u : State) => { u with host := { u.host with bindStatus := n } }
    (v.getLsbD 62 = true → exec (.ctxBind v) s = .next (res 0x11 s0)) ∧
    (v.getLsbD 62 = false → coreFree 7 s = false → exec (.ctxBind v) s =
      .next (ringDoorbell 7 0 { s0 with host := { s0.host with bindReq := some ⟨c, some (pasid, s.host.bindCred)⟩ } })) ∧
    (v.getLsbD 62 = false → coreFree 7 s = true →
      (s.ticks < b.lockout → exec (.ctxBind v) s = .next (res 0x12 u0)) ∧
      (b.lockout = 0 → (x.st = .free ∨ x.owner = 0 ∨ b.bound = true) → exec (.ctxBind v) s = .next (res 0x10 u0)) ∧
      (b.lockout = 0 → x.st ≠ .free → x.owner ≠ 0 → b.bound = false → x.cred ≠ s.host.bindCred →
        ∃ t, exec (.ctxBind v) s = .next t ∧ t = { u0 with host := t.host, obs := t.obs } ∧ t.host.bindStatus = 0x12 ∧
          (bindingGet t c).mismatches = b.mismatches + 1 ∧
          (bindingGet t c).lockout = (if 16 ≤ b.mismatches + 1 then after s.host.bindLockout.toNat s else 0)) ∧
      (b.lockout = 0 → x.st ≠ .free → x.owner ≠ 0 → b.bound = false → x.cred = s.host.bindCred →
        exec (.ctxBind v) s = .next (resumeEngines (trace 0x28 (uCore 7) (c + 65536 * 3) pasid.toNat
          (putContext c (bindingSet c { bound := true, pasid := pasid } (res 0 u0)))))))) ∧
  (∀ (v : W64) (r : BindReq) (s : State), bar0Open s = true → s.host.bindReq = some r →
    exec (.ctxBind v) s = .next (countIgnored 0x40010 s) ∧ exec (.ctxUnbind v) s = .next (countIgnored 0x40010 s)) ∧
  (∀ (r : BindReq) (s : State), coreRuns 7 s = true → s.host.bindReq = some r → (trestleGet s 7).doorbell.getLsbD 0 = true →
    exec (.trestleDispatch 7) s = .next (serveBind r (dispatchBit 7 0 s))) ∧
  (∀ (v : W64) (s : State), bar0Open s = true → s.host.bindReq = none → coreFree 7 s = true →
    let c := fld v 48 12
    let s0 := { s with host := { s.host with ctxBindCtx := BitVec.ofNat 12 c, ctxBindPasid := BitVec.ofNat 20 (fld v 0 20) } }
    let u0 := dispatchBit 7 0 { s0 with host := { s0.host with bindReq := none } }
    let res := fun (n : Byte) (u : State) => { u with host := { u.host with bindStatus := n } }
    (v.getLsbD 63 = true → exec (.ctxUnbind v) s = .next (res 0x11 s0)) ∧
    (v.getLsbD 63 = false →
      ((∃ q ∈ s.host.qps, q.2.armed = true ∧ q.2.ctx.toNat = c) → exec (.ctxUnbind v) s = .next (res 0x10 u0)) ∧
      ((∀ q ∈ s.host.qps, q.2.armed = true → q.2.ctx.toNat ≠ c) →
        ((bindingGet s c).bound = false → exec (.ctxUnbind v) s = .next (res 0 u0)) ∧
        ((bindingGet s c).bound = true → exec (.ctxUnbind v) s =
          .next (unbindCtx c (res 0 u0)) ∧ ∃ u, unbindCtx c (res 0 u0) =
            trace 0x28 (uCore 7) (c + 65536 * 4) 0 (putContext c (bindingSet c { bindingGet s c with bound := false, pasid := 0 } u)))))) ∧
  (∀ (c : Ctx) (s : State), alive s = true → (bindingGet s c).lockout ≠ 0 → (bindingGet s c).lockout ≤ s.ticks →
    exec (.bindLockoutExpiry c) s = .next (bindingSet c { bindingGet s c with lockout := 0, mismatches := 0 } s))

/-- Queue pairs are armed by their checks and disarmed in steps. -/
def Obligations.QueuePairsArmAndDisarm : Prop :=
  (∀ (qp : Qp) (v : W64) (s : State), bar0Open s = true → s.host.flr = none → (qpGet s qp).armed = false →
    let q := withWord3 (qpGet s qp) v
    let q1 := { q with armed := true, armErr := 0, sqHead := 0, sqTail := 0, pendingBit := false, fetched := [], reserved := 0
                       waiting := [], produced := 0, head := 0, ring := [], unsignalled := 0 }
    (armCheck qp q s ≠ 0 → exec (.qpArm qp v) s = .next (qpSet qp { q with armErr := BitVec.ofNat 8 (armCheck qp q s) } s)) ∧
    (armCheck qp q s = 0 → exec (.qpArm qp v) s = .next (foldS (deliverers s qp q.ctx.toNat)
      (fun i s => unsuspend i suspHost (streamMod i (fun x => { x with writeSeq := x.ackedSeq }) s))
      (putTwin qp q1 (qpSet qp q1 s))))) ∧
  (∀ (qp : Qp) (s : State), bar0Open s = true → s.host.flr = none → exec (.qpDisarm qp) s =
    .next (qpSet qp { qpGet s qp with arm := false, disarming := (qpGet s qp).disarming || (qpGet s qp).armed } s)) ∧
  (∀ (qp : Qp) (s : State), alive s = true →
    let q := qpGet s qp
    q.armed = true → q.disarming = true → q.fetched = [] → q.waiting = [] → q.reserved = 0 →
    let q1 := { q with armed := false, disarming := false, ring := [] }
    exec (.qpDisarmComplete qp) s = .next (foldS ((deliverers s qp q.ctx.toNat).filter
      (fun i => (streamGet s i).live && !(streamGet s i).sealed.isEmpty)) (fun i => suspendSoon i suspHeld)
      (putTwin qp q1 (qpSet qp q1 s))))

/-- Completions and records are written to their ring, and delivered by the head. -/
def Obligations.RingsAreWrittenAndRead : Prop :=
  (∀ (qp : Qp) (c : Completion) (rest : List Completion) (s : State), canRequest s = true →
    let q := qpGet s qp
    q.armed = true → q.waiting = c :: rest → q.ien = false →
    let size := ringSize q.cqSize.toNat
    let at_ := q.cqAddr.toNat * 4096 + 128 * (q.produced % size)
    ∃ t, exec (.completionWrite qp) s = .next t ∧ t = { s with host := t.host, obs := t.obs, out := t.out } ∧
      t.out = s.out ++ [.hostWrite (BitVec.ofNat 64 (at_ + 2)) none (slice c.bytes 2 126),
        .hostWrite (BitVec.ofNat 64 at_) none [c.kind, BitVec.ofNat 8 (phaseOf q.produced size)]] ∧
      qpGet t qp = { q with waiting := rest, reserved := q.reserved - 1, produced := q.produced + 1,
                            ring := q.ring ++ [.completion] }) ∧
  (∀ (rec : Fin 262144) (r : OutRec) (q : QpEntry) (s : State), canRequest s = true → nextRecord s rec = some (r, q) →
    q.room = true → (q.vis = true → ∀ l ∈ referenced s (streamGet s rec) r, unflushed s l = false) →
    let x := streamGet s rec
    let x1 := fun (w : W32) => { x with writeSeq := x.writeSeq + 1, writtenTo := w }
    (x.writeSeq.toNat < x.writtenTo.toNat → exec (.recordWrite rec) s = .next (ringWrite x.deliverCq.toNat
      (recordBytes (x1 x.writtenTo) rec r false) (.record rec (x.handle rec) r.seq r.final)
      (count 2604 (streamSet rec (x1 x.writtenTo) s)))) ∧
    (x.writtenTo.toNat ≤ x.writeSeq.toNat → exec (.recordWrite rec) s = .next (ringWrite x.deliverCq.toNat
      (recordBytes (x1 (x.writeSeq + 1)) rec r false) (.record rec (x.handle rec) r.seq r.final)
      (count 2603 (streamSet rec (x1 (x.writeSeq + 1)) s))))) ∧
  (∀ (qp : Qp) (value : W16) (s : State), barOpen s = true →
    let q := qpGet s qp
    let size := ringSize q.cqSize.toNat
    let back := (q.produced + size - value.toNat % size) % size
    q.armed = true →
    (q.head + back ≤ q.produced → exec (.cqHeadWrite qp 3 value) s = .next (foldS (q.ring.take (q.produced - back - q.head)) slotDelivered
      (qpSet qp { q with head := q.produced - back, ring := q.ring.drop (q.produced - back - q.head) } s))) ∧
    (q.produced < q.head + back → exec (.cqHeadWrite qp 3 value) s = .next (raise 2921 .ce qp (count 2551 s)))) ∧
  (∀ (qp : Qp) (s : State), alive s = true →
    let q := qpGet s qp
    q.armed = true → q.ien = true → q.coalTicks ≠ 0 → q.unsignalled ≠ 0 → q.firstFlag + 1 + q.coalTicks.toNat ≤ s.ticks →
    exec (.coalTimeout qp) s = .next (interrupt q.vector (qpSet qp { q with unsignalled := 0 } s)))

/-- Interrupts are unmasked, cleared and coalesced; host reads complete, fail or time out. -/
def Obligations.InterruptsAndHostReads : Prop :=
  ((∀ (v : Fin 2048) (s : State), bar0Open s = true → s.host.flr = none →
    ((msixGet s v).pend = true → s.host.msixEn = true → s.host.msixMask = false → canRequest s = true →
      ∃ t, exec (.msixUnmask (some v)) s = .next t ∧ t.out = s.out ++ [.msix (BitVec.ofNat 11 v)] ∧
        msixGet t v = { msixGet s v with masked := false, pend := false } ∧ t = { s with host := t.host, out := t.out }) ∧
    ((msixGet s v).pend = false → ∃ t, exec (.msixUnmask (some v)) s = .next t ∧ t.out = s.out ∧
        msixGet t v = { msixGet s v with masked := false } ∧ t = { s with host := t.host })) ∧
  (∀ s : State, cfgOpen s = true → (∀ v, (msixGet s v).pend = false) →
    exec (.msixUnmask none) s = .next { s with host := { s.host with msixMask := false } }) ∧
  (∀ (w : Fin 32) (ones : W64) (s : State), bar0Open s = true → s.host.flr = none →
    ∃ t, exec (.intxClear w ones) s = .next t ∧ t = { s with host := t.host, out := t.out } ∧
      (∀ n < 2048, t.host.intxStatus.getLsbD n =
        (s.host.intxStatus.getLsbD n && !(decide (64 * w.val ≤ n) && ones.getLsbD (n - 64 * w.val)))) ∧
      t.host.intxAsserted = (s.host.intxAsserted && decide (t.host.intxStatus ≠ 0)) ∧
      t.out = s.out ++ (if s.host.intxAsserted = true ∧ t.host.intxStatus = 0 ∧ s.host.msixEn = false ∧
        s.host.intxDisable = false ∧ resetBusy s = false then [.intx false] else []))) ∧
  ((∀ (tag : BitVec 14) (data : List Byte) (r : HostRead) (s : State), alive s = true → s.host.dlUp = true →
    s.host.reads.find? (fun r => r.tag = tag.toNat) = some r → s.ticks < r.deadline →
    let s1 := dropRead r.tag (countN 2544 data.length s)
    ((∀ e, r.use ≠ .walker e) → exec (.hostReadCompletion tag .ok data) s = .next (pumpReads s1)) ∧
    (∀ e, r.use = .walker e → exec (.hostReadCompletion tag .ok data) s = .next (pumpReads (walkData e (le64 data) s1))) ∧
    exec (.hostReadCompletion tag .ep data) s = .next (pumpReads (readFailed r 7 (raise 2919 .uc r.tag s1))) ∧
    exec (.hostReadCompletion tag .ur data) s = .next (pumpReads (readFailed r 6 (raise 2919 .uc r.tag s1))) ∧
    exec (.hostReadCompletion tag .ca data) s = .next (pumpReads (readFailed r 6 (raise 2919 .uc r.tag s1)))) ∧
  (∀ (tag : BitVec 14) (r : HostRead) (s : State), alive s = true →
    s.host.reads.find? (fun r => r.tag = tag.toNat) = some r → r.deadline ≤ s.ticks →
    let s1 := quarantine r.tag (raise 2917 .uc r.tag (aerLog 14 (count 2547 (dropRead r.tag s))))
    (r.retries < s.host.readRetries.toNat → r.use = .orphan → exec (.completionTimeout tag) s = .next (pumpReads s1)) ∧
    (∀ e x, r.retries < s.host.readRetries.toNat → r.use = .engine e → xferGet s1 e = some x →
      exec (.completionTimeout tag) s = .next (pumpReads
        (xferSet e (some { x with toRead := (r.addr.toNat, r.bytes, r.retries + 1) :: x.toRead }) s1))) ∧
    (∀ e x, r.retries < s.host.readRetries.toNat → r.use = .walker e → xferGet s1 e = some x →
      exec (.completionTimeout tag) s = .next (pumpReads (xferSet e (some { x with
        walk := x.walk.map (fun w => { w with retries := r.retries + 1, toIssue := true }) }) s1))) ∧
    (s.host.readRetries.toNat ≤ r.retries → exec (.completionTimeout tag) s =
      .next (pumpReads (readFailed r (Config.freeWord s1.freeCtr).toNat { s1 with freeCtr := s1.freeCtr + 1 })))) ∧
  (∀ (tag : BitVec 14) (s : State), alive s = true → s.host.dlUp = true → (∃ q ∈ s.host.tagsQuar, q.1 = tag.toNat) →
    exec (.lateCompletion tag) s = .next (pumpReads (raise 2918 .ce tag.toNat (count 2548
      { s with host := { s.host with tagsQuar := dropFirst (fun q => q.1 = tag.toNat) s.host.tagsQuar } })))) ∧
  (∀ (tag : BitVec 14) (s : State), alive s = true → (∃ q ∈ s.host.tagsQuar, q.1 = tag.toNat ∧ q.2 ≤ s.ticks) →
    exec (.tagQuarantineExpiry tag) s = .next (pumpReads
      { s with host := { s.host with tagsQuar := dropFirst (fun q => q.1 = tag.toNat && due q.2 s) s.host.tagsQuar } })))

/-- Viaduct frames are sent, accepted in order, and lost links retrained. -/
def Obligations.ViaductFramesFlow : Prop :=
  (∀ s : State, alive s = true → s.faults.handover = none → framesFlow s = true →
    let v := s.viaduct
    (∀ n rest h, v.replay = n :: rest → v.held.find? (fun h => h.num = n) = some h → exec .viaductFrameSend s =
      .next (count 2578 { s with viaduct := { v with replay := rest }, out := s.out ++ [.viaFrame h.num h.ack h.nak h.msgs h.key] })) ∧
    (v.replay = [] → 64 < (v.txNum - v.peerAck).toNat → exec .viaductFrameSend s = .next { s with out := s.out ++ [.viaFill] }) ∧
    (v.replay = [] → (v.txNum - v.peerAck).toNat ≤ 64 → s.sec.kxStep ≠ 5 →
      let f := frameMsgs s
      let key := viaKey s v.txNum
      exec .viaductFrameSend s = .next (count 2576 { s with
        viaduct := { f.1 with txNum := v.txNum + 1, nak := false, held := v.held ++ [⟨v.txNum, v.rxAck, v.nak, f.2, key, 0⟩] }
        out := s.out ++ [.viaFrame v.txNum v.rxAck v.nak f.2 key] }))) ∧
  (∀ (f : ViaFrame) (s : State), alive s = true → framesFlow s = true →
    let bad := (f.syncs.filter (fun v => v ≠ 0x7A5C && v ≠ 0x7A5D)).length
    let eight := (f.syncs.filter (· = 0x7A5C)).length = 8
    (f.decodes = false ∨ f.tagOk = false ∨ ¬ eight → exec (.viaductFrame f) s =
      .next { countN 2581 bad s with viaduct := { s.viaduct with nak := true } }) ∧
    (eight → f.decodes = true → f.tagOk = true → f.nak = false → f.reservedMsgs = 0 → f.frameNum = s.viaduct.rxAck + 1 →
      ∃ t, exec (.viaductFrame f) s = .next t ∧ t = { s with viaduct := t.viaduct, obs := t.obs } ∧ t.viaduct.rxAck = f.frameNum ∧
        t.viaduct.nak = s.viaduct.nak ∧
        ((s.viaduct.peerAck + 1).toNat ≤ (f.ackNum + 1).toNat → (f.ackNum + 1).toNat ≤ s.viaduct.txNum.toNat →
          t.viaduct.peerAck = f.ackNum ∧ ∀ h ∈ t.viaduct.held, (f.ackNum + 1).toNat ≤ h.num.toNat))) ∧
  (∀ (d : Nat) (s : State), alive s = true → s.viaduct.fastRetrain = some d → d ≤ s.ticks →
    let v := { s.viaduct with fastRetrain := none, retrains := satAdd s.viaduct.retrains 1 }
    let s1 := raiseLevel 2923 .ce false v.retrains.toNat { s with viaduct := v }
    (s.viaduct.up = true → exec .fastRetrainTimeout s = .next (linkDown s1)) ∧
    (s.viaduct.up = false → exec .fastRetrainTimeout s =
      .next (abortTraining { s1 with viaduct := { s1.viaduct with retrains := s.viaduct.retrains } })))

/-- The viaduct trains and agrees its key; time is synced and slewed. -/
def Obligations.TrainingAndTime : Prop :=
  ((∀ (rev : Bool) (s : State), alive s = true → s.faults.safe = false → s.viaduct.fastRetrain = none →
    s.ticks < s.viaduct.stepDeadline →
    (s.viaduct.step = 1 → exec (.trainStepDone rev) s = .next (stepTo 2 s)) ∧
    (s.viaduct.step = 2 → exec (.trainStepDone rev) s = .next (newNumbers 0 (stepTo 3 s))) ∧
    (s.viaduct.step = 3 → exec (.trainStepDone rev) s =
      .next (sendEcho { stepTo 4 s with viaduct := { (stepTo 4 s).viaduct with reversed := rev, samples := [] } }))) ∧
  (∀ s : State, alive s = true → s.viaduct.step ≠ 0 → s.viaduct.stepDeadline ≤ s.ticks →
    exec .trainStepTimeout s = .next (abortTraining s)) ∧
  (∀ (d : Nat) (s : State), alive s = true → s.viaduct.restartAt = some d → d ≤ s.ticks →
    exec .trainRestart s = .next (startTraining { s with viaduct := { s.viaduct with restartAt := none } })) ∧
  (∀ (tag : W32) (ts : W64) (rt : Nat) (s : State), alive s = true → s.viaduct.step = 4 →
    s.ticks < s.viaduct.stepDeadline →
    let l := s.viaduct.samples ++ [rt]
    let u := ringDoorbell 6 0 s
    (l.length < 64 → exec (.timeEchoReply tag ts rt) s = .next (sendEcho { u with viaduct := { s.viaduct with samples := l } })) ∧
    (64 ≤ l.length → exec (.timeEchoReply tag ts rt) s = .next (startExchange (stepTo 5
      { u with viaduct := { s.viaduct with samples := l, flightPs := BitVec.ofNat 16 (medianHalf l) } })))) ∧
  (∀ (r : PairKx) (s : State), alive s = true → s.faults.safe = false → s.viaduct.step = 5 →
    s.ticks < s.viaduct.stepDeadline →
    let k := s.sec.kxStep
    let send := fun (l : List PairKx) (n : Nat) =>
      { s with viaduct := { s.viaduct with kx := s.viaduct.kx ++ l }, sec := { s.sec with kxStep := n } }
    (∀ n p, r = .share n p → k = 1 → exec (.pairKxRecord r) s = .next (send [ownCert s] 2)) ∧
    (∀ root dep svn, r = .cert root dep svn → k = 2 →
      (root = true ∧ dep = true ∧ s.sec.minSvn.toNat ≤ svn.toNat → exec (.pairKxRecord r) s = .next (send [.sig true] 3)) ∧
      (root = false ∨ dep = false ∨ svn.toNat < s.sec.minSvn.toNat → exec (.pairKxRecord r) s =
        .next (abortTraining (raise 2926 .uc s.viaduct.retrains.toNat s)))) ∧
    (r = .sig true → k = 3 → exec (.pairKxRecord r) s = .next (send (ownBundles s) 4)) ∧
    (r = .sig false → k = 3 → exec (.pairKxRecord r) s = .next (abortTraining s)) ∧
    (∀ c st id mk cr ow hm, r = .bundle c st id mk cr ow hm true → k = 4 → ∃ t, exec (.pairKxRecord r) s = .next t ∧
      t = { s with sec := { s.sec with bundles := t.sec.bundles } } ∧ ⟨c.val, id, mk, cr, ow, hm, st⟩ ∈ t.sec.bundles) ∧
    (r = .done → k = 4 → exec (.pairKxRecord r) s = .next (endExchange { s with sec := { s.sec with kxStep := 5 } })))) ∧
  (∀ s : State, alive s = true → s.faults.safe = false →
    (s.pair.nextSync ≤ s.ticks → s.viaduct.up = true → sends s = true → s.pair.roleB = false →
      let v := { s.viaduct with time := s.viaduct.time ++ [.sync s.tsNow], nextTag := s.viaduct.nextTag + 1 }
      exec .timeSyncInterval s = .next { s with pair := { s.pair with nextSync := s.pair.nextSync + 1000 }, viaduct := v }) ∧
    (∀ ts : W64, s.viaduct.up = true → s.pair.roleB = true →
      let e := 7 * (((ts.toNat : Int) - s.tsNow.toNat) * 10000 + 5 * s.pace.stagePs.toNat + s.viaduct.flightPs.toNat) + 760000
      exec (.timeSync ts) s = .next (ringDoorbell 6 0 { s with pair := { s.pair with timeErr := e } })) ∧
    (s.pair.roleB = true → s.pair.nextSlew ≤ s.ticks →
      let p := { s.pair with nextSlew := s.ticks + 100 }
      (70000 < s.pair.timeErr → exec .tsSlew s =
        .next { s with tsNow := s.tsNow + 1, pair := { p with timeErr := s.pair.timeErr - 70000 } }) ∧
      (s.pair.timeErr < -70000 → exec .tsSlew s =
        .next { s with pair := { p with timeErr := s.pair.timeErr + 70000, tsSkip := true } })) ∧
    (∀ (tag : W32) (ts : W64), framesFlow s = true → exec (.timeEcho tag ts) s =
      .next (ringDoorbell 6 0 { s with viaduct := { s.viaduct with time := s.viaduct.time ++ [.echoReply tag ts] } })))

/-- Journal messages are taken and acknowledged; remote windows are served. -/
def Obligations.JournalAndWindows : Prop :=
  (∀ s : State, linked s = true → sends s = true →
    (∀ (tag : W32) (joff : W64) (lines : List LineData),
      (joff.toNat % 64 = 0 ∧ 1 ≤ lines.length ∧ lines.length ≤ 64 ∧ joff.toNat + 64 * lines.length ≤ regionLines s * 64 →
        (∀ j, (opGet s j).shadow = false) →
        ∃ t, exec (.journalWrite tag joff lines) s = .next t ∧ t.viaduct.journal.getLast? = some (.jAck tag 0)) ∧
      (joff.toNat % 64 ≠ 0 ∨ lines = [] ∨ 64 < lines.length ∨ regionLines s * 64 < joff.toNat + 64 * lines.length →
        exec (.journalWrite tag joff lines) s = .next (count 2579 s))) ∧
    (∀ (tag : W32) (status : Byte) (w : AckWait), s.pair.acks.find? (fun a => a.1 = tag) = some (tag, w) →
      exec (.journalAck tag status) s = .next (createDone tag (ackDone w status
        (ringDoorbell 6 0 { s with pair := { s.pair with acks := s.pair.acks.filter (fun a => a.1 ≠ tag) } })))) ∧
    (∀ (tag : W32) (ctx : Ctx) (chunk : W32) (part : Fin 16) (units : List LineData),
      (units.length ≠ 64 → exec (.journalImage tag ctx chunk part units) s = .next (count 2579 s)) ∧
      (units.length = 64 → s.pair.imageParts = [] → exec (.journalImage tag ctx chunk part units) s =
        .next { s with pair := { s.pair with imageParts := [(ctx.val, chunk.toNat, part.val, units)] }
                       viaduct := { s.viaduct with journal := s.viaduct.journal ++ [.jAck tag 0] } })) ∧
    (∀ entries : List CursorEntry, exec (.cursorUpdate entries) s = .next (foldS entries cursorEntry (ringDoorbell 6 0 s))) ∧
    (s.pair.nextCursor ≤ s.ticks →
      let es := s.pair.cursorDirty.map (·.2)
      let p := { s.pair with nextCursor := s.ticks + s.pair.cursorTicks.toNat, cursorDirty := [] }
      (es = [] → exec .cursorInterval s = .next { s with pair := p }) ∧
      (es ≠ [] → es.length ≤ 256 → exec .cursorInterval s = .next
        { s with pair := p, viaduct := { s.viaduct with cursor := s.viaduct.cursor ++ [.cursor es] } }))) ∧
  (∀ s : State, linked s = true →
    let reply := fun (m : ViaMsg) (t : State) => { t with viaduct := { t.viaduct with window := t.viaduct.window ++ [m] } }
    (∀ (tag : W32) (win : Byte) (ctx : Ctx) (off : W64) (n : W16),
      (windowIn win ctx off n.toNat false s = none → exec (.windowRead tag win ctx off n) s =
        .next (reply (.wReadData tag 1 (List.replicate n.toNat 0)) (count 2580 (raise 2929 .uc win.toNat s)))) ∧
      (∀ w, windowIn win ctx off n.toNat false s = some w →
        let r := windowLines ctx ((w.base.toNat * 2097152 + off.toNat) / 64 * 64) n.toNat s
        r.1.length = n.toNat ∧
        exec (.windowRead tag win ctx off n) s = .next (reply (.wReadData tag (if r.2.1 then 2 else 0) r.1) r.2.2))) ∧
    (∀ (tag : W32) (win : Byte) (ctx : Ctx) (off be1 be2 : W64) (lines : List LineData),
      (windowIn win ctx off lines.length true s = none → exec (.windowWrite tag win ctx off be1 be2 lines) s =
        .next (reply (.wWriteAck tag 1) (count 2580 (raise 2929 .uc win.toNat s)))) ∧
      (∀ w d, windowIn win ctx off lines.length true s = some w → lines = [d] →
        let t := storeFor ctx.val ((w.base.toNat * 2097152 + off.toNat) / 64 * 64) (.window ctx) d (be1 &&& be2) false s
        (t.coh.posted.length = s.coh.posted.length →
          exec (.windowWrite tag win ctx off be1 be2 lines) s = .next (reply (.wWriteAck tag 0) t)) ∧
        (t.coh.posted.length ≠ s.coh.posted.length → ∃ u, exec (.windowWrite tag win ctx off be1 be2 lines) s = .next u ∧
          u = { t with coh := { t.coh with posted := u.coh.posted } } ∧
          ∀ p ∈ u.coh.posted.drop s.coh.posted.length, p.ack = some tag))) ∧
    (∀ (tag : W32) (status : Byte) (lines : List LineData) (u : WinUser),
      s.pair.winReqs.find? (fun w => w.1 = tag) = some (tag, u) →
      let s1 := { s with pair := { s.pair with winReqs := s.pair.winReqs.filter (fun w => w.1 ≠ tag) } }
      (∀ r i d p, u = .read r i d p →
        (status = 0 → exec (.windowReadData tag status lines) s =
          .next (runMod r (fun x => { x with winData := x.winData ++ [(d, p, lines.flatMap lineBytes)] }) s1)) ∧
        (status ≠ 0 → exec (.windowReadData tag status lines) s = .next (haltAt r i 2 s1))) ∧
      (∀ e x, u = .engine e → xferGet s1 e = some x → exec (.windowReadData tag status lines) s =
        .next (xferSet e (some { x with poison := x.poison || status ≠ 0 }) s1)) ∧
      (∀ r i, u = .signal r i → exec (.windowWriteAck tag status) s = .next (finish r i 0 0 s1)) ∧
      (∀ r, u = .write r → exec (.windowWriteAck tag status) s = .next s1)))

/-- Pair states follow their events; the partner bay is watched and powered. -/
def Obligations.PairStatesAndPartnerBay : Prop :=
  (∀ s : State, alive s = true → s.faults.safe = false →
    (s.pair.nextBeat ≤ s.ticks →
      let p := { s.pair with nextBeat := s.pair.nextBeat + 100 }
      let u := ringDoorbell 6 1 s
      (s.viaduct.up = false → exec .heartbeatInterval s = .next { u with pair := p }) ∧
      (s.viaduct.up = true → s.pair.leaving = false → (s.pair.st = .mirrored ∨ s.pair.st = .rejoining) →
        let s2 := sendBeat false { u with pair := p }
        (s.pair.beatSeen = true → exec .heartbeatInterval s =
          .next { s2 with pair := { s2.pair with missed := 0, beatSeen := false } }) ∧
        (s.pair.beatSeen = false → s.pair.missed.toNat < 7 → exec .heartbeatInterval s =
          .next { s2 with pair := { s2.pair with missed := s.pair.missed + 1, beatSeen := false } }) ∧
        (s.pair.beatSeen = false → s.pair.missed.toNat = 7 → exec .heartbeatInterval s =
          .next (partnerLost 1 { s2 with pair := { s2.pair with missed := 8, beatSeen := false } })))) ∧
    (∀ (b : Beat) (m : Bool) (ser ts : W64),
      (s.viaduct.step = 6 → s.ticks < s.viaduct.stepDeadline → exec (.healthBeat b m ser ts) s = .next (handshake b m ser (linkUpPair ts (ringDoorbell 6 0 s)))) ∧
      (s.viaduct.step ≠ 6 → s.viaduct.up = true → s.pair.st = .mirrored →
        let s1 := ringDoorbell 6 0 { s with pair := { s.pair with partner := some b, beatSeen := true, missed := 0 } }
        (b.failing = true → exec (.healthBeat b m ser ts) s = .next (partnerLost 4 s1)) ∧
        (b.failing = false → b.leaving = true → exec (.healthBeat b m ser ts) s = .next (orderlyTakeover s1)) ∧
        (b.failing = false → b.leaving = false → exec (.healthBeat b m ser ts) s = .next s1))) ∧
    (s.pair.present = false → s.pair.absentSince + 1 + 100 ≤ s.ticks →
      exec .presenceLossTimeout s = .next (partnerLost 3 (adapterIdle (setUp false s)))) ∧
    (∀ d, s.pair.take = .holdoff d → d ≤ s.ticks → exec .bHoldoffExpiry s = .next { partnerOff s with pair :=
      { (partnerOff s).pair with take := .fenceWait (after (partnerOff s).pair.fenceWait.toNat (partnerOff s)) } }) ∧
    (∀ d, s.pair.take = .fenceWait d → d ≤ s.ticks → exec .fenceWaitExpiry s = .next (startTaking false s)) ∧
    (∀ (rec : Fin 262144) rest orderly, s.pair.take = .taking (rec.val :: rest) orderly → rec.val ∉ rest →
      let go := fun (t : State) => if rest = [] then takeEnd t else { t with pair := { t.pair with take := .taking rest orderly } }
      (∀ x recs, extentAt s rec = .held x recs →
        (extentWhole s x = true → exec (.streamTakeover rec) s = .next (go (takeStream rec x recs orderly s))) ∧
        (extentWhole s x = false → exec (.streamTakeover rec) s = .next (go (freeIndex rec s)))) ∧
      (extentAt s rec = .bad → exec (.streamTakeover rec) s = .next (go (count 2611 (freeIndex rec s)))) ∧
      (extentAt s rec = .free → exec (.streamTakeover rec) s = .next (go s))) ∧
    (s.pair.st = .pairing → s.pair.pairWaitBy ≤ s.ticks → s.pair.journalKept = false →
      exec .pairWaitExpiry s = .next (enterPair (if s.pair.prev = .degraded then .degraded else .solo) s)) ∧
    (s.pair.st = .rejoining → s.pair.source = true → s.pair.slowAt ≤ s.ticks → exec .remirrorSlow s =
      .next (raise 2927 .ce s.viaduct.retrains.toNat { s with pair := { s.pair with slowAt := s.pair.slowAt + s.pair.pairWait.toNat } })) ∧
    (s.pair.st = .mirrored → exec .pairRelease s = .next
      (foldS ((streamIds s).filter (fun i => (streamGet s i).live && !(streamGet s i).holds)) (fun i => suspend i 0)
        { s with pair := { s.pair with leaving := true } })) ∧
    (s.pair.st ≠ .mirrored → exec .pairRelease s = .next (countIgnored 0x38008 s)) ∧
    (s.pair.conflict = true → (dropJournal s).viaduct.up = true → exec .pairDiscard s = .next (sendBeat false (dropJournal s))) ∧
    (s.pair.conflict = true → (dropJournal s).viaduct.up = false → exec .pairDiscard s = .next (startTraining (dropJournal s))) ∧
    (s.pair.conflict = false → exec .pairDiscard s = .next (countIgnored 0x38008 s))) ∧
  (∀ s : State, alive s = true →
    let event := fun (on : Bool) (t : State) => if on = true ∧ t.pair.hpIntEn = true then interrupt t.host.hpVector t else t
    (∀ v : W16, s.faults.safe = false → fenceForced s = false →
      let ind := fun (old : BitVec 2) (n : Nat) => if n = 0 then old else BitVec.ofNat 2 n
      let p := { s.pair with pwrOff := v.getLsbD 10, pwrInd := ind s.pair.pwrInd (fld v 8 2), atnInd := ind s.pair.atnInd (fld v 6 2) }
      let s1 := { s with pair := { p with hpIntEn := v.getLsbD 5, presEn := v.getLsbD 3, atnEn := v.getLsbD 0 } }
      (v.getLsbD 10 = s.pair.pwrOff → exec (.pbCtlWrite v) s = .next s1) ∧
      (v.getLsbD 10 = true → s.pair.pwrOff = false → exec (.pbCtlWrite v) s = .next (partnerLost 2 (partnerOff s1))) ∧
      (v.getLsbD 10 = false → s.pair.pwrOff = true → exec (.pbCtlWrite v) s = .next (startTraining s1))) ∧
    (s.pair.present = false → exec (.prtPrsntN false) s = .next (startTraining (event s.pair.presEn
      { s with pair := { s.pair with present := true, absentSince := s.ticks, presChg := true } }))) ∧
    (s.pair.present = true → exec (.prtPrsntN true) s = .next (event s.pair.presEn
      { s with pair := { s.pair with present := false, absentSince := s.ticks, presChg := true } })) ∧
    exec (.prtPrsntN (!s.pair.present)) s = .next s ∧
    exec .prtAtnbtnN s = .next (event s.pair.atnEn { s with pair := { s.pair with atnPressed := true } }))

/-- The host link comes and goes, and host-side resets run to their end. -/
def Obligations.HostLinkAndResets : Prop :=
  ∀ s : State, alive s = true →
    (∀ (w sp : BitVec 4) (f : Bool), s.power.phase = .served → s.host.phyUp = false → exec (.linkUp w sp f) s =
      .next (trace 0x20 uHost (1 + 16 * sp.toNat + 256 * w.toNat) 0 (raiseLevel 2916 .uc false 0 { s with
        power := { s.power with perstN := true }
        host := { s.host with phyUp := true, dlUp := s.host.ideFailed.isNone, width := w, speed := sp, flit256 := f } }))) ∧
    (s.host.phyUp = true → exec .linkDrop s = .next (linkFalls 5 s) ∧ exec (.linkRetrain false) s = .next (linkFalls 5 s) ∧
      exec (.linkRetrain true) s = .next s ∧ exec .hotReset s = .next (linkFalls 3 s)) ∧
    exec .perst s = .next (linkFalls 4 { s with power := { s.power with perstN := false } }) ∧
    (∀ st : IdeStream, s.host.dlUp = true → ideOn s st = true → exec (.ideFailure st) s = .next (dropEffects 5
      (raise 2922 .uc (ideNum st) { s with host := { s.host with dlUp := false, ideFailed := some st } }))) ∧
    (cfgOpen s = true → resetBusy s = false →
      exec .flr s = .next (resetBegins 1 { s with host := { s.host with flr := some ⟨after 9000000 s⟩ } }) ∧
      exec .cxlReset s = .next (resetBegins 2 { s with host := { s.host with cxlReset := some ⟨after 9000000 s⟩ } })) ∧
    (∀ w, s.host.flr = some w → s.host.reads = [] ∨ w.deadline ≤ s.ticks →
      ∃ u, u = configReset true (zeroWindow (unbindAll (clearQueues (abandonReads s)))) ∧
        exec .flrComplete s = .next { u with host := { u.host with flr := none } }) ∧
    (∀ w, s.host.cxlReset = some w → s.host.reads = [] ∨ w.deadline ≤ s.ticks →
      ∃ u, u = cxlStateReset (zeroWindow (unbindAll (clearQueues (abandonReads s)))) ∧
        exec .cxlResetComplete s = .next { u with host := { u.host with cxlReset := none } }) ∧
    (∀ c ∈ (zeroWindow s).store.cells,
      (regionOfLocal s.store.regions (c.1 / 4294967296) (c.1 % 4294967296)).any (fun e => e.2.isWindow) = false)

/-- Bus mastering, D3hot and the HDM decoders. -/
def Obligations.MasteringAndDecoders : Prop :=
  (∀ s : State, cfgOpen s = true →
    (s.host.bme = true → exec .bmeClear s = .next (bmeStops (trace 0x22 uHost 0 0 { s with host := { s.host with bme := false } }))) ∧
    (s.host.bme = false → s.host.d3hot = false →
      exec .bmeSet s = .next (bmeStarts (trace 0x22 uHost 1 0 { s with host := { s.host with bme := true } }))) ∧
    (s.host.bme = false → s.host.d3hot = true →
      exec .bmeSet s = .next (trace 0x22 uHost 1 0 { s with host := { s.host with bme := true } })) ∧
    (s.host.d3hot = false → s.host.bme = false → exec .d3hotEntry s = .next { s with host := { s.host with d3hot := true } }) ∧
    (s.host.d3hot = false → s.host.bme = true →
      exec .d3hotEntry s = .next (bmeStops { s with host := { s.host with d3hot := true } }))) ∧
  (∀ (n : Fin 4) (s : State), bar0Open s = true →
    let d := hdmGet s n
    let lower := (s.host.hdm.filter (fun e => e.1 < n.val && e.2.committed)).map (·.2)
    let base := lower.foldl (fun m e => max m (e.dpa + e.span)) 0 + d.skip.toNat
    let sound := s.host.flit256 = true ∧ d.iw.toNat ≤ 3 ∧ d.ig.toNat ≤ 6 ∧ spanMapped s.store.regions 65 base d.span = true
    d.committed = false →
      (∀ s1, sound → tryLock s = some s1 → exec (.hdmCommit n) s =
        .next (hdmSet n { d with commit := true, committed := true, errNotCommitted := false, dpa := base } s1)) ∧
      (¬ sound → exec (.hdmCommit n) s = .next (count 2554 (hdmSet n { d with commit := true, errNotCommitted := true } s))) ∧
      (sound → tryLock s = none → exec (.hdmCommit n) s =
        .next (count 2554 (hdmSet n { d with commit := true, errNotCommitted := true } (regionErr 8 0 s)))))

/-- The host's own accesses are carried out or refused. -/
def Obligations.HostAccessesAreServed : Prop :=
  (∀ (hpa : W64) (req : HostMemReq) (s : State), hostServes s = true → s.host.flit256 = true → s.faults.safe = false →
    (∀ a, hpaToDpa s (hpa.toNat / 64 * 64) = some a →
      let line : LineAddr := BitVec.ofNat 32 (a / 64)
      let tag := ((lineTag s a).map (·.2)).getD 0
      (hostMay s a = true →
        (req = .rd .s → exec (.hostMemAccess hpa req) s = .next (cohRequest (.slot 0) tag line .rdS 0 0 s)) ∧
        (req = .rd .a → exec (.hostMemAccess hpa req) s = .next (cohRequest (.slot 0) tag line .rdX 0 0 s)) ∧
        (req = .rd .i ∨ req = .rd .noState → exec (.hostMemAccess hpa req) s = .next (cohRequest (.slot 0) tag line .rdCur 0 0 s)) ∧
        (∀ d m p, req = .wr d m p → exec (.hostMemAccess hpa req) s = .next (cohRequest (.slot 0) tag line (.wrInv d m p) 0 0 s)) ∧
        (∀ d p, req = .wrFromM d p → exec (.hostMemAccess hpa req) s = .next (wbArrives 0 line d p s)) ∧
        (req = .clnEvct → exec (.hostMemAccess hpa req) s = .next (evictArrives 0 line s))) ∧
      (hostMay s a = false → exec (.hostMemAccess hpa req) s = .next (raise 2920 .uc tag (count 2553 (hostRefused line req s))))) ∧
    (hpaToDpa s (hpa.toNat / 64 * 64) = none →
      exec (.hostMemAccess hpa req) s = .next (raise 2920 .uc 0 (count 2553 (hostRefused 0 req s))))) ∧
  (∀ (off : BitVec 31) (s : State),
    let o := off.toNat / 64 * 64
    (∀ b, barOpen s = true → windowBase s = some b →
      let l : LineAddr := BitVec.ofNat 32 ((b + o) / 64)
      let before := (∃ p ∈ s.coh.posted, p.requester = .hostIo ∧ p.line = l) ∨ l ∈ s.coh.ioReads
      let rd := { s with coh := { s.coh with ioReads := s.coh.ioReads ++ [l] } }
      let wr := fun (d : LineData) (m : W64) =>
        { s with coh := { s.coh with posted := s.coh.posted ++ [⟨.hostIo, 0, l, d, m, false, none⟩] } }
      (before ∨ ioMayAsk s l = false → exec (.bar4Access off none) s = .next rd ∧
        ∀ d m, exec (.bar4Access off (some (d, m))) s = .next (wr d m)) ∧
      (¬ before → ioMayAsk s l = true → exec (.bar4Access off none) s = .next (cohRequest .hostIo 0 l .rdCur 0 4 rd) ∧
        ∀ d m, exec (.bar4Access off (some (d, m))) s = .next (cohRequest .hostIo 0 l (.wrInv d m false) 0 4 (wr d m)))) ∧
    (barOpen s = true → windowBase s = none →
      exec (.bar4Access off none) s = .next (emit (.cpl (.poisoned (List.replicate 64 0))) (unmapped .hostIo s)) ∧
      ∀ w, exec (.bar4Access off (some w)) s = .next (unmapped .hostIo s)) ∧
    (hostServes s = true → s.host.mse = false ∨ s.host.d3hot = true → ∀ w, exec (.bar4Access off w) s = .next (answerUr s)) ∧
    (bar0Open s = true → resetBusy s = true → ∀ w, exec (.bar4Access off (some w)) s = .next (count 2555 (aerLog 20 s)) ∧
      exec (.bar4Access off none) s = .next (emit (.cpl (.data (List.replicate 64 0))) (count 2555 (aerLog 20 s)))) ∧
    (hostServes s = true → s.faults.safe = true → s.host.mse = true → s.host.d3hot = false → ∀ w, exec (.bar4Access off (some w)) s = .next s ∧
      exec (.bar4Access off none) s = .next (emit (.cpl (.data (List.replicate 64 0))) s))) ∧
  (∀ s : State, alive s = true → s.host.dlUp = true →
    (∀ r ∈ [BadRequest.outsideBars, .mseClear, .tooLong, .atomicOp, .pasidPrefix, .translated, .romWrite, .vdm0],
      exec (.unsupportedRequest r) s = .next (emit (.cpl .ur) (count 2549 (aerLog 20 s)))) ∧
    exec (.unsupportedRequest .vdm1) s = .next (count 2555 (aerLog 20 s)) ∧
    exec (.unsupportedRequest (.duringReset true)) s = .next (emit (.cpl (.data (List.replicate 8 0))) (count 2555 (aerLog 20 s)))) ∧
  (∀ (off : BitVec 24) (w : W32) (s : State), hostServes s = true →
    (s.host.romEnable = true → s.host.mse = true → s.host.d3hot = false →
      (off.toNat < 0xE00000 → s.faults.safe = false → exec (.expansionRomRead off w) s = .next (emit (.cpl (.data (leBytes 4 w.toNat))) s)) ∧
      (0xE00000 ≤ off.toNat → exec (.expansionRomRead off w) s = .next (emit (.cpl (.data [0, 0, 0, 0])) s)) ∧
      exec .flashReadTimeout s = .next (emit (.cpl .ca) (raise 2937 .uc 0 (count 2549 (aerLog 15 s))))) ∧
    (s.host.romEnable = false → exec (.expansionRomRead off w) s = .next (emit (.cpl .ur) (count 2549 (aerLog 20 s)))))

/-- Requests are accepted at their home, wait their turn, and are refused and recalled. -/
def Obligations.RequestsReachTheirHome : Prop :=
  ∀ (s : State) (line : LineAddr), alive s = true → homeAway s line = false →
    let open_ := s.coh.retried = [] ∧ busy s line = false ∧ (s.coh.txns.filter (fun t => homeOf s t.line = homeOf s line)).length < 128
    (∀ (i : Fin 9) (ctx : Ctx) (txn : BitVec 12), open_ →
      (portOf i.val = none → i.val ≠ 7 → (i.val = 8 → storeRoom s line = true) →
        exec (.rdS i ctx line txn) s = .next (accept (.slot i) ctx.val line .rdS txn s) ∧
        exec (.rdX i ctx line txn) s = .next (accept (.slot i) ctx.val line .rdX txn s) ∧
        exec (.upg i ctx line txn) s = .next (accept (.slot i) ctx.val line .upg txn s) ∧
        exec (.rdCur (.slot i) ctx line txn) s = .next (accept (.slot i) ctx.val line .rdCur txn s)) ∧
      (∀ n, portOf i.val = some n → (portGet s n).st = .up → (∀ t ∈ (portGet s n).txns, t.txn ≠ txn) → girthNack s n ctx.val line = none →
        let out := fun (op : Byte) => portSet n { portGet s n with txns := (portGet s n).txns ++ [⟨txn, line, op⟩] } s
        exec (.rdS i ctx line txn) s = .next (accept (.slot i) ctx.val line .rdS txn (out 1)) ∧
        exec (.rdX i ctx line txn) s = .next (accept (.slot i) ctx.val line .rdX txn (out 2)) ∧
        exec (.upg i ctx line txn) s = .next (accept (.slot i) ctx.val line .upg txn (out 3)))) ∧
    (∀ (r : Requester) (ctx : Ctx) (d : LineData) (m : W64) (p : Bool) (txn : BitVec 12), open_ → reqAgent r = none →
      ((r = .hostIo → line ∈ s.coh.ioReads) → exec (.rdCur r ctx line txn) s = .next (accept r ctx.val line .rdCur txn s)) ∧
      ((∀ q ∈ s.coh.posted, q.requester = r → q.line ≠ line ∧ r ≠ .window) →
        exec (.wrInv r ctx line d m p txn) s = .next (accept r ctx.val line (.wrInv d m p) txn s)) ∧
      (∀ q, s.coh.posted.find? (fun q => q.requester = r && (q.line = line || r = .window)) = some q → q.line = line →
        exec (.wrInv r ctx line d m p txn) s = .next (accept r q.ctx line (.wrInv q.data q.mask q.poison) txn s))) ∧
    (open_ → exec (.flush line) s = .next (accept .hostIo 0 line .flush 0 s)) ∧
    (busy s line = true → s.coh.retried = [] →
      exec (.flush line) s = .next { s with coh := { s.coh with retried := [{ line := line, requester := .hostIo, isWb := false }] } }) ∧
    (∀ (r : Requester) x rest, s.coh.retried = x :: rest → x.requester = r → x.line = line → x.told = false → reqAgent r = none →
      exec (.retry r line) s = .next (count (1280 + 4 * homeOf s line + 1)
        { s with coh := { s.coh with retried := { x with told := true } :: rest } })) ∧
    (∀ x, s.coh.retried = [x] → x.line = line → x.told = true → x.go = false → x.isWb = false → reqAgent x.requester = none →
      busy s line = false → (s.coh.txns.filter (fun t => homeOf s t.line = homeOf s line)).length < 128 →
      exec (.goRetry line) s = .next { s with coh := { s.coh with retried := [{ x with go := true }] } }) ∧
    (∀ k e, s.coh.retried = [] → busy s line = false → (s.coh.txns.filter (fun t => homeOf s t.line = homeOf s line)).length < 128 →
      dirFind s line = some (k, e) → e.has 0 = true →
      let s1 := count (1280 + 4 * homeOf s line) s
      exec (.cevict 0 line) s = .next (wakeWaiting (if (e.without 0).presence = 0 then untrack line (dirUpdate line (e.without 0) s1)
        else dirUpdate line (e.without 0) s1))) ∧
    (∀ (tag : W16) t, busyTxn s line = some t → (∃ x ∈ t.awaiting, x.slot = 0 ∧ x.sent = true) →
      exec (.biconflict line tag) s = .next (emit (.biConflictAck line tag) s)) ∧
    (∀ v : Bool, s.faults.safe = false →
      (s.coh.forcedHw = true → exec (.forcedSwWrite v) s = .next { s with coh := { s.coh with forcedSw := v } }) ∧
      ∃ t, exec (.forcedSwWrite v) s = .next t ∧ t.coh.forcedSw = v ∧ t = { s with coh := t.coh, girth := t.girth, obs := t.obs, out := t.out })

/-- Snoops reach their agents, answers reach the home, silence is timed out. -/
def Obligations.SnoopsAndAnswers : Prop :=
  ∀ (s : State) (line : LineAddr) (t : Txn), alive s = true → busyTxn s line = some t →
    (∀ (op : SnpOp) (c : Fin 9 → LineAddr → Instr),
      (op, c) ∈ [(SnpOp.s, fun a l => Instr.snpS (.agent a) (l.setWidth 46)), (.inv, fun a l => .snpInv (.agent a) (l.setWidth 46)), (.cur, fun a l => .snpCur (.agent a) (l.setWidth 46)), (.clean, Instr.snpClean)] → s.coh.holds = [] →
      (∀ x rest, t.awaiting = x :: rest → x.slot = 0 → x.op = op → x.sent = false → s.host.dlUp = true →
        exec (c 0 line) s = .next (emit (.bisnp op.bi line) (setTxn { t with awaiting :=
          { x with sent := true, deadline := after s.coh.homeTimeout.toNat s } :: rest } s))) ∧
      (∀ x rest, t.awaiting = x :: rest → x.op = op → x.sent = false →
        let s1 := setTxn { t with awaiting := { x with sent := true, deadline := after s.coh.homeTimeout.toNat s } :: rest } s
        (x.slot = 7 → exec (c 7 line) s = .next (respond line 7 (dcSnoop true line.toNat op s1).1 (dcSnoop true line.toNat op s1).2)) ∧
        (x.slot = 8 → exec (c 8 line) s = .next (respond line 8 (storeSnoop line op s1).1 (storeSnoop line op s1).2)))) ∧
    (∀ (a : Fin 9) x rest, t.awaiting = x :: rest → x.slot = a.val → x.sent = true → portTalks s a.val = true →
      let t1 := { t with awaiting := rest }
      (lateSnoop s line a.val = false →
      exec (.rspI a line) s = .next (settle (t1.lose a.val) s) ∧
      (∀ d p, exec (.rspS a line (some d) p) s = .next (settle { t1 with data := some (d, true, p) } s) ∧
        exec (.rspS a line none p) s = .next (settle t1 s)) ∧
      (∀ d dirty p, exec (.rspFwd a line d dirty p) s = .next (settle { t1 with data := some (d, dirty, p), fwdBy := some a.val } s)) ∧
      (s.coh.evict = [] → exec (.rspIWb a line) s = .next (settle { t1.lose a.val with awaitWb := t.awaitWb ++ [a.val] } s))) ∧
      (x.deadline ≤ s.ticks → exec (.homeTimeout a line) s = .next (silentSlot line a.val true s))) ∧
    (∀ (port : Port) (route rtxn : W16) (d : LineData) (p : Bool), portTalks s (port.val + 1) = true →
      (s.coh.txns = [t] → reqOfNum route.toNat = some t.requester → t.txn.setWidth 16 = rtxn → t.phase ≠ .waiting →
        (∀ n, (reqAgent t.requester).bind portOf = some n →
          exec (.fwdData port route rtxn d p) s = .next (girthSend n (.data t.txn false d p) s)) ∧
        ((reqAgent t.requester).bind portOf = none → t.phase ≠ .granted →
          exec (.fwdData port route rtxn d p) s = .next (setTxn { t with fwd := some (d, p) } s))) ∧
      ((∀ u ∈ s.coh.txns, reqOfNum route.toNat ≠ some u.requester) →
        exec (.fwdData port route rtxn d p) s = .next (count (2496 + 8 * port.val + 4) s))) ∧
    (∀ l : BitVec 46, cacheLink s = true → ∃ u, exec (.snpInv .hostLine l) s = .next u ∧
      (.cacheSnpRsp l (dcFind s false l.toNat).isSome false) ∈ u.out ∧
      (∀ k x, dcFind s false l.toNat = some (k, x) → tget (fun _ => dcEmpty) u.coh.dc k = dcEmpty))

/-- A request completes by Table 8-4, and its grant, write-back and counts follow. -/
def Obligations.CompletionsGrantAndCount : Prop :=
  (∀ (line : LineAddr) (t : Txn) (s : State), alive s = true → busyTxn s line = some t → t.phase = .ready →
    fwdArrived s t = true →
    exec (.cmp line) s = .next (if reqAgent t.requester = some 7 then pumpEngines (releaseCmps (completeTxn t s))
      else releaseCmps (completeTxn t s))) ∧
  (∀ (moesi : Bool) (t : Txn) (a : Fin 9), t.requester = .slot a → t.ownerGone = false →
    let o := cohOutcome moesi t
    (t.req = .rdS → t.before.st = .i → o.grant = .e ∧ o.wantsData = true ∧ o.entry.st = .x ∧ o.entry.owner.toNat = a.val ∧
      ∀ b < 9, o.entry.has b = decide (b = a.val)) ∧
    (t.req = .rdS → t.before.st = .s → moesi = true → o.grant = .s ∧ o.entry.st = .s ∧
      ∀ b < 9, o.entry.has b = (t.before.has b || decide (b = a.val))) ∧
    (t.req = .rdX → t.before.st ≠ .fo → o.entry.st = .x ∧ o.entry.owner.toNat = a.val ∧ (∀ b < 9, o.entry.has b = decide (b = a.val)) ∧
      (t.data = none → o.grant = .e) ∧ (∀ d p, t.before.st ≠ .i → t.data = some (d, true, p) → o.grant = .m))) ∧
  (∀ (a : Fin 9) (line : LineAddr) (t : Txn) (s : State), alive s = true → busyTxn s line = some t → t.phase = .granted →
    t.requester = .slot a → portOf a.val = none → exec (.grantAck a line) s = .next (finishTxn line (t.holder t.grant) s)) ∧
  (∀ (line : LineAddr) (s : State), exec (.grantHoldExpiry line) s =
    .next { s with coh := { s.coh with holds := s.coh.holds.filter (fun h => h.1 ≠ line) } }) ∧
  (∀ (a : Fin 9) (line : LineAddr) (d : LineData) (p : Bool) (s : State), alive s = true → homeAway s line = false →
    portTalks s a.val = true → s.coh.late = [] → s.coh.retried = [] → s.coh.victims = [] → s.coh.evict.length < 32 → busy s line = false →
    let t := wbHome a.val line s
    exec (.wb a line d p) s = .next (releaseCmps
      { t with coh := { t.coh with evict := t.coh.evict ++ [⟨line, a.val, d, p, false, false, false⟩] } })) ∧
  (∀ (line : LineAddr) (b : EvictBuf) (s : State), alive s = true → busy s line = false → b.line = line → b.slot = 0 → b.pend = false →
    s.coh.evict.find? (fun b => b.line = line) = some b →
    let u := drainEvicts line s
    exec (.wbAck 0 line) s = .next (emit (.memCmp line 0)
      { u with coh := { u.coh with evict := dropFirst (fun b => b.line = line && b.slot = 0) u.coh.evict } })) ∧
  (∀ (line : LineAddr) (k : Nat) (s : State), alive s = true → trackKey s line = some k →
    (line ∈ s.coh.trackInc → exec (.trackInc line) s = .next { s with coh := { s.coh with
      trackInc := s.coh.trackInc.erase line, track := tset (fun _ => 0) s.coh.track k (trackGet s k + 1) } }) ∧
    (line ∈ s.coh.trackDec → trackGet s k ≠ 0 → (∀ b ∈ s.coh.evict, b.line = line → b.written = true) → exec (.trackDec line) s = .next { s with coh := { s.coh with
      trackDec := s.coh.trackDec.erase line, track := tset (fun _ => 0) s.coh.track k (trackGet s k - 1) } })) ∧
  (∀ (line : LineAddr) (t : Txn) (s : State), alive s = true → busyTxn s line = some t → t.phase = .tracking → line ∉ s.coh.trackInc →
    exec (.trackIncAck line) s = .next (setTxn { t with phase := .ready, counted := true } s))

/-- Quarter moves, and the device cache with its merges, fences and ranges. -/
def Obligations.MovesAndDeviceCache : Prop :=
  ∀ s : State, alive s = true →
    (∀ (a : Fin 9) (q : Fin 4) (m : QMove), s.coh.qmoves = [m] → m.q = q.val → portTalks s a.val = true → 1 ≤ a.val → a.val ≤ 6 →
      a.val ∉ m.answered →
      ((∃ b ∈ moveSlots s, b ∉ m.answered ++ [a.val]) → exec (.homeMoveDone a q) s =
        .next { s with coh := { s.coh with qmoves := [{ m with answered := m.answered ++ [a.val] }] } }) ∧
      ((∀ b ∈ moveSlots s, b ∈ m.answered ++ [a.val]) → s.coh.away = [] →
        let moved := (List.range 4).filter (fun q => serving s q = m.q)
        ∃ t, exec (.homeMoveDone a q) s = .next t ∧ t.coh.qmoves = [] ∧
          t.coh.sweeping = s.coh.sweeping.filter (fun x => x.1 ∉ moved) ++ moved.map (fun q => (q, 0)) ∧
          ∀ i < 4, fld t.coh.serve (2 * i) 2 = if serving s i = m.q then m.dest % 4 else serving s i)) ∧
    (∀ (q : Fin 4) x, s.coh.sweeping.find? (fun x => x.1 = q.val) = some x → sweepLine s x.1 x.2 = none →
      (∀ v ∈ s.coh.victims, v.sweep = true → ownQuarter v.line ≠ q.val) → s.coh.qmoves = [] →
      (s.coh.sweeping.filter (fun x => x.1 ≠ q.val) ≠ [] ∨ s.power.done = false) →
      exec (.qmoveSweepEnd q) s = .next { s with coh := { s.coh with sweeping := s.coh.sweeping.filter (fun x => x.1 ≠ q.val) } }) ∧
    (∀ (q n : Nat) (line : LineAddr), s.coh.sweeping = [(q, n)] → sweepLine s q n = some line.toNat → busy s line = false →
      s.coh.victims = [] → homeAway s line = false → exec (.snpInv (.agent 0) (line.setWidth 46)) s = .next (emit (.bisnp .inv line) { s with coh := { s.coh with
        sweeping := [(q, line.toNat + 1)]
        victims := [{ line := line, waiter := none, sweep := true
                      awaiting := [{ slot := 0, op := .inv, sent := true, deadline := after s.coh.homeTimeout.toNat s }] }] } })) ∧
    (∀ (cls : Fin 16) (space : Bool) (line : BitVec 46) (f : LineData) (p : Bool),
      (∀ k x, dcFind s space line.toNat = some (k, x) → exec (.dcRead cls space line f p) s =
        .next (emit (.interiorData space line.toNat (dcOverlay s space line.toNat x.data) false) (sliceCount (dcSlice line.toNat) 0 s))) ∧
      (dcFind s true line.toNat = none → exec (.dcRead cls true line f p) s = .next (sliceCount (dcSlice line.toNat) 1
        { s with coh := { s.coh with fills := s.coh.fills ++
          [⟨BitVec.ofNat 32 line.toNat, cls.val, (eligibleWays s (dcSlice line.toNat) cls.val).isEmpty, false, none⟩] } })) ∧
      (dcFind s false line.toNat = none → cacheLink s = true → p = true → exec (.dcRead cls false line f p) s =
        .next (emit (.interiorData false line.toNat (dcOverlay s false line.toNat f) true)
          (emit (.cacheRead line (!(eligibleWays s (dcSlice line.toNat) cls.val).isEmpty)) (sliceCount (dcSlice line.toNat) 1 s))))) ∧
    (∀ (cls : Fin 16) (line : BitVec 46) (d : LineData) (mask : W64), sliceUp s (dcSlice line.toNat) = true → s.coh.merges = [] → s.coh.trestleLines = [] →
      mask ≠ BitVec.allOnes 64 → exec (.dcStore cls true line d mask) s = .next (releaseCmps { s with coh := { s.coh with
        merges := [⟨dcSlice line.toNat, true, line, mask, mergeLine 0 d mask, [cls.val], s.ticks, []⟩] } })) ∧
    (∀ cls : Fin 16, exec (.dcFence cls) s = .next (releaseCmps (dcFence cls.val s))) ∧
    (∀ (cls : Fin 16) m, s.coh.merges = [m] → m.space = true → m.classes.contains cls.val = true →
      (dcFence cls.val s).coh.merges = [] ∧ { m with fencedBy := m.fencedBy ++ [s.coh.fenceCtr] } ∈ (dcFence cls.val s).coh.draining ∧
        (s.coh.fenceCtr, cls.val) ∈ (dcFence cls.val s).coh.fences) ∧
    (∀ (sl : Fin 16) (space : Bool) (line : BitVec 46) m, canDrain m s = true → m.born + 1 + s.coh.mergeTicks.toNat ≤ s.ticks →
      s.coh.merges.find? (fun m => m.slice = sl.val && m.isOf space line.toNat) = some m →
      exec (.mergeTimeout sl space line) s = .next (releaseCmps (endFences (drainMerge m s)))) ∧
    (∀ v : W64, s.faults.safe = false → v.getLsbD 63 = true → s.coh.rangeJob = none →
      let j := (v.getLsbD 62, fld v 12 40, s.coh.rangePages.toNat)
      exec (.dcRangeInv v) s = .next (endFences (drainWhere (fun m => inJob j m.space m.line.toNat) { s with coh := { s.coh with
        rangeSpace := v.getLsbD 62, rangeBase := BitVec.ofNat 40 (fld v 12 40), rangeJob := some j, linesInv := 0 } }))) ∧
    (∀ j, s.coh.rangeJob = some j →
      let s1 := releaseCmps (endFences (drainWhere (fun m => inJob j m.space m.line.toNat) s))
      (∀ m ∈ s1.coh.merges ++ s1.coh.draining, inJob j m.space m.line.toNat = false) →
      let r := dcInvalidate (fun x => x.st ≠ .none && inJob j x.space x.line.toNat) s1
      exec .dcRangeInvEnd s = .next { r.2 with coh := { r.2.coh with rangeJob := none, linesInv := BitVec.ofNat 31 r.1 } })

/-- Pages are resolved by walks, ATS answers and page requests, and unresolved by invalidations. -/
def Obligations.TranslationsAreResolved : Prop :=
  ∀ s : State,
    (∀ (e : Engine) (k : Fin 32) (x : Xfer) page, xferGet s e.val = some x → x.nextPage = some page → canRequest s = true → mayWalk s e.val = true →
      (xlMode s = 1 → exec (.walk e k) s = .next (emit (.atsRequest e.val (pasidOf s x.ctx) page x.isWrite)
        (xferSet e.val (some { x with atsPage := some (page, false) }) s))) ∧
      (xlMode s = 2 → walkerBusy k.val s = true → exec (.walk e k) s = .next s) ∧
      (xlMode s = 2 → walkerBusy k.val s = false →
        let root := tget (fun _ => ((0 : BitVec 52), false)) s.xl.roots x.ctx
        (root.2 = false → exec (.walk e k) s = .next (failXfer e.val 3 s)) ∧
        (root.2 = true →
          let w := walkDown s (pasidOf s x.ctx) (page * 4096) x.isWrite (s.xl.levels.toNat - 1) (root.1.toNat * 4096) s.xl.walkCache
          let u := { s with xl := { s.xl with walkCache := w.2 } }
          let s1 := xferSet e.val (some { x with walk := none }) u
          (∀ l a, w.1 = .read l a → exec (.walk e k) s = .next (issueWalkRead e.val (xferSet e.val
            (some { x with walk := some { walker := k.val, page := page, level := l, at_ := a, discarded := false, toIssue := true } }) u))) ∧
          (∀ t, w.1 = .leaf t → exec (.walk e k) s = .next (resolvePage e.val t s1)) ∧
          (∀ c, w.1 = .fault c → exec (.walk e k) s = .next (failXfer e.val c s1)) ∧
          (∀ v, w.1 = .request v → exec (.walk e k) s = .next (needPage e.val page v s1))))) ∧
    (∀ (pasid : BitVec 20) (va tbl : Nat) (write : Bool) (pte : W64) cache,
      walkDown s pasid va write 0 tbl cache =
        (.read 0 (tbl + 8 * (va / 2 ^ (levelAt s 0).idxLo.toNat % 2 ^ (levelAt s 0).idxWidth.toNat)), cache) ∧
      let o := (walkOn s pasid va write 0 pte cache).1
      let bit := fun (f : Byte) => (flagOf f pte).getD true
      let rsv := s.xl.flags.getLsbD 3 = true ∧ pte &&& (levelAt s 0).rsvLeaf ≠ 0
      (rsv → o = .fault 1) ∧
      (¬ rsv → bit s.xl.pBit = false → o = .request write) ∧
      (¬ rsv → bit s.xl.pBit = true → bit s.xl.uBit = false → o = .fault 2) ∧
      (¬ rsv → bit s.xl.pBit = true → bit s.xl.uBit = true → write = true → bit s.xl.wBit = false → o = .request true) ∧
      (¬ rsv → bit s.xl.pBit = true → bit s.xl.uBit = true → (write = true → bit s.xl.wBit = true) → s.xl.flags.getLsbD 2 = false →
        (levelAt s 0).idxLo = 12 →
        o = .leaf { va := va / 4096 * 4096, hpa := BitVec.ofNat 52 (pteBase s pte 12), size := 0, w := bit s.xl.wBit, stale := false })) ∧
    (∀ (e : Engine) (hpa : BitVec 52) (size : BitVec 2) (r w : Bool) (x : Xfer) page, alive s = true → size ≠ 3 →
      xferGet s e.val = some x →
      let s1 := xferSet e.val (some { x with atsPage := none }) s
      let right := if x.op = 2 then w else r
      (x.atsPage = some (page, true) → exec (.atsTranslationCompletion e hpa size r w) s = .next s1) ∧
      (x.atsPage = some (page, false) → right = false →
        exec (.atsTranslationCompletion e hpa size r w) s = .next (needPage e.val page (decide (x.op = 2)) s1)) ∧
      (x.atsPage = some (page, false) → right = true →
        let n := if size = 0 then 4096 else if size = 1 then 2097152 else 1073741824
        exec (.atsTranslationCompletion e hpa size r w) s = .next (resolvePage e.val
          { va := page * 4096 / n * n, hpa := BitVec.ofNat 52 (hpa.toNat / n * n), size := size, w := w, stale := false } s1))) ∧
    (∀ (i : Fin 512) (p : Prg), alive s = true → s.xl.prgs.find? (fun p => p.index = i.val) = some p →
      ((∀ q ∈ s.xl.prgQuar, q.1 ≠ i.val) → s.ticks < p.deadline →
        exec (.prgResponse i 0) s = .next (foldS p.engines
          (fun e u => match xferGet u e with | some x => xferSet e (some { x with waitPrg := none }) u | none => u)
          { s with xl := { s.xl with prgs := s.xl.prgs.filter (fun q => q.index ≠ i.val) } }) ∧
        exec (.prgResponse i 1) s = .next (foldS p.engines (fun e => failXfer e 5)
          { s with xl := { s.xl with prgs := s.xl.prgs.filter (fun q => q.index ≠ i.val) } }) ∧
        exec (.prgResponse i 2) s = .next (foldS p.engines (fun e => failXfer e 5)
          { s with xl := { s.xl with prgs := s.xl.prgs.filter (fun q => q.index ≠ i.val), priStopped := true } })) ∧
      (p.deadline ≤ s.ticks → exec (.priTimeout i) s = .next (foldS p.engines (fun e => failXfer e 5)
        { s with xl := { s.xl with prgs := s.xl.prgs.filter (fun q => q.index ≠ i.val)
                                   prgQuar := s.xl.prgQuar ++ [(i.val, after (4 * s.xl.priTimeout.toNat) s)] } }))) ∧
    (∀ i : Fin 512, ∃ t, exec (.prgQuarantineExpiry i) s = .next t ∧ t = { s with xl := { s.xl with prgQuar := t.xl.prgQuar } } ∧
      ∀ q, q ∈ t.xl.prgQuar ↔ q ∈ s.xl.prgQuar ∧ ¬ (q.1 = i.val ∧ q.2 ≤ s.ticks)) ∧
    (∀ v : Bool, s.host.phyUp = true → s.power.phase = .served → exec (.priEnable v) s = .next
      { s with host := { s.host with priEn := v }, xl := { s.xl with priStopped := s.xl.priStopped && (!v || s.host.priEn) } }) ∧
    (∀ (itag : Fin 32) (pasid : BitVec 20) (va : W64) (n : Nat) (g : Bool), alive s = true → s.host.dlUp = true →
      (32 ≤ s.xl.invs.length ∨ (∃ i ∈ s.xl.invs, i.itag = itag.val) ∨ s.xl.invWait ≠ [] → exec (.atsInvalidate itag pasid va n g) s =
        .next { s with xl := { s.xl with invWait := s.xl.invWait ++ [(itag.val, pasid, va, n, g)] } }) ∧
      (s.xl.invs.length < 32 → (∀ i ∈ s.xl.invs, i.itag ≠ itag.val) → s.xl.invWait = [] → ∃ t es, exec (.atsInvalidate itag pasid va n g) s = .next t ∧ t.xl.invs = s.xl.invs ++ [⟨itag.val, es⟩] ∧
        t.xl.walkCache = s.xl.walkCache.filter (fun w => !((g || w.pasid = pasid) && w.overlaps s va.toNat n)) ∧
        t = { s with xl := { s.xl with engines := t.xl.engines, walkCache := t.xl.walkCache, invs := t.xl.invs } } ∧
        (s.xl.engines = [] → es = []))) ∧
    (∀ (itag : Fin 32) (i : AtsInv), alive s = true → s.xl.invs.find? (fun i => i.itag = itag.val) = some i →
      (∀ e ∈ i.engines, ∀ x, xferGet s e = some x → x.chunk = false) →
      exec (.atsInvalidateCompletion itag) s = .next (takeInvalidate (resumeEngines (emit (.atsInvalidateCpl itag.val)
        { s with xl := { s.xl with invs := s.xl.invs.filter (fun j => j.itag ≠ itag.val) } })))) ∧
    (writable s = true →
      (∀ (c : Ctx) (v : W64), exec (.ctxRootWrite c v) s = .next { s with xl := { s.xl with
        walkCache := [], roots := tset (fun _ => (0, false)) s.xl.roots c.val (v.extractLsb' 12 52, v.getLsbD 0) } }) ∧
      ((∀ b ∈ s.host.bindings, b.2.bound = false) →
        exec .pteFormatValidate s = .next { s with xl := { s.xl with
          walkCache := [], valid := decide (pteCheck s = 0), errCode := BitVec.ofNat 8 (pteCheck s) } } ∧
        (s.xl.levels.toNat < 2 ∨ 5 < s.xl.levels.toNat ∨ s.xl.addrHi.toNat < 32 ∨ 51 < s.xl.addrHi.toNat → pteCheck s = 1)))

/-- Transfer engines take descriptors and move their chunks; heat counters report hot pages. -/
def Obligations.TransfersAndHeat : Prop :=
  ∀ s : State,
    (∀ (e : Engine) (d : BitVec 512), alive s = true → s.faults.safe = false → s.service.quiesced = false → xferGet s e.val = none →
      (∀ r ∈ s.faults.resets, r.block ≠ .engine e) →
      let f := cmdField d
      let bad := f 0 1 = 0 ∨ 4 < f 0 1 ∨ 1 < f 1 1 ∨ 4096 ≤ f 2 2 ∨ ¬ (f 4 1 = 1 ∨ f 4 1 = 2 ∨ (9 ≤ f 4 1 ∧ f 4 1 ≤ 15)) ∨
        f 5 3 ≠ 0 ∨ f 0x18 4 = 0 ∨ 262144 < f 0x18 4 ∨ f 0x20 32 ≠ 0
      (bad → exec (.transferDescriptor e d) s = .next (emit (.xferEnd e.val (BitVec.ofNat 32 (f 0x1C 4)) .reject) s)) ∧
      (¬ bad → (f 0 1 = 1 ∨ f 0 1 = 2) → xlMode s ≠ 0 →
        let x : Xfer := { op := BitVec.ofNat 8 (f 0 1), heat := decide (f 1 1 = 1), ctx := f 2 2, cls := f 4 1
                          va := BitVec.ofNat 64 (f 8 8), dpa := BitVec.ofNat 64 (f 0x10 8), length := f 0x18 4
                          tag := BitVec.ofNat 32 (f 0x1C 4), use := useOf s (f 0 1) (f 2 2) (f 8 8) (f 0x10 8), entries := []
                          moved := 0, asked := [], waitPrg := none, chunk := false, stopped := false }
        let t := xferSet e.val (some x) s
        exec (.transferDescriptor e d) s = .next { t with xl := { t.xl with walkQ := s.xl.walkQ ++ [e.val] } })) ∧
    (∀ (e : Engine) (d : BitVec 512) x, xferGet s e.val = some x → exec (.transferDescriptor e d) s = .next s) ∧
    (∀ (e : Engine) (data : List LineData) (x : Xfer), alive s = true → xferGet s e.val = some x → x.chunk = true → x.toRead = [] →
      (∀ r ∈ s.host.reads, r.use ≠ .engine e.val) → (∀ w ∈ s.pair.winReqs, w.2 ≠ .engine e.val) → fillsOut s e.val = false →
      let n := min 65536 (x.length - x.moved)
      let fin := fun (y : Xfer) (u : State) =>
        if engineStores u e.val = true then xferSet e.val (some { y with written := true }) u else chunkMoved e.val u
      (x.heat = false →
        let v := countN (1600 + 2 * e.val) n
          (xferSet e.val (some { x with moved := x.moved + n, chunk := false, written := false, asked64 := false, got := [] }) s)
        chunkMoved e.val s = if x.length ≤ x.moved + n then doneXfer e.val v else startChunk e.val v) ∧
      (x.written = true → exec (.transferChunkEnd e data) s = .next (if engineStores s e.val = true then s else chunkMoved e.val s)) ∧
      (x.written = false →
        (x.op = 3 → exec (.transferChunkEnd e data) s = .next (fin x s)) ∧
        (x.op = 2 → x.use = .other → canRequest s = true →
          let r := x.hdmLines e.val s
          let u := writeHost x (x.chunkBytes r.1) r.1 r.2
          ∀ y, xferGet u e.val = some y → exec (.transferChunkEnd e data) s = .next (fin y u)) ∧
        ((x.op = 4 ∨ (x.op = 1 ∧ x.bypass = true)) → x.poison = false → x.use = .other →
          let va := x.va.toNat + x.moved
          let lines := (List.range ((va + n + 63) / 64 - va / 64)).map (fun i => data.getD i 0)
          let u := pokeBytes (.transferEngine e (Fin.ofNat 4096 x.ctx)) (x.dpa.toNat + x.moved) (slice (lines.flatMap lineBytes) (va % 64) n) s
          ∀ y, xferGet u e.val = some y → exec (.transferChunkEnd e data) s = .next (fin y u)) ∧
        (x.op = 4 → x.poison = true → xferGet (failXfer e.val 7 s) e.val = none →
          exec (.transferChunkEnd e data) s = .next (failXfer e.val 7 s)))) ∧
    (alive s = true → s.xl.nextDecay ≤ s.ticks → ∃ t, exec .heatDecay s = .next t ∧
      t = { s with xl := { s.xl with heats := t.xl.heats, nextDecay := s.xl.nextDecay + s.xl.decayTicks.toNat } } ∧
      t.xl.heats.map (fun h => (h.slot, h.ctx, h.region, h.count)) = s.xl.heats.map (fun h => (h.slot, h.ctx, h.region, h.count / 2)) ∧
      ∀ h ∈ t.xl.heats, h.reported = true → s.xl.hotThreshold.toNat ≤ 2 * h.count) ∧
    (∀ v : W32, writable s = true → s.xl.hotEn = false → v.getLsbD 31 = true → (v.extractLsb' 0 4).toNat ≤ 10 →
      exec (.hotRingEnable v) s = .next { s with xl := { s.xl with
        hotEn := true, hotIen := v.getLsbD 30,
        hotVector := v.extractLsb' 19 11, hotSize := v.extractLsb' 0 4, hotHead := 0, hotW := 0 } })

/-- Girth ports exchange flits, start by their six steps, stop, are fenced and swept. -/
def Obligations.GirthPortsLinkStartAndStop : Prop :=
  ∀ (s : State) (port : Port), alive s = true →
    let n := port.val
    let p := portGet s n
    (p.linked = true →
      (∀ f : GirthFlit, s.ticks ≤ p.lastFlit + 100 →
        let a := widenAck p f.ackLow
        let p1 := { p with peerAck := a, held := p.held.filter (fun h => decide ((a + 1).toNat ≤ h.num.toNat)) }
        (f.checkOk = false → exec (.girthFlit port f) s = .next (portSet n { p with nak := true } s)) ∧
        (f.checkOk = true → f.nak = false → f.flitNum = p.rxLast + 1 → p.step ≠ 3 → p.outq = [] →
          let use := fun (c : Nat) => if p.st = .up ∨ p.st = .quiescing then f.slots.getD c 0 else 0
          let t := count (2497 + 8 * n) (portSet n { p1 with
            rxLast := f.flitNum, lastFlit := s.ticks
            rxCredits := p.rxCredits.mapIdx (fun c k => k - use c), rxOwed := p.rxOwed.mapIdx (fun c k => k + use c)
            credits := if 1 ≤ f.crClass.toNat ∧ f.crClass.toNat ≤ 5 then
              p.credits.set (f.crClass.toNat - 1) (p.credits.getD (f.crClass.toNat - 1) 0 + f.crCount.toNat) else p.credits } s)
          let held := ∀ c < 5, use c ≤ p.rxCredits.getD c 0
          (f.protoError = false → held → exec (.girthFlit port f) s = .next t) ∧
          (f.protoError = true ∨ ¬ held → exec (.girthFlit port f) s = .next
            (let u := raise (2868 + 8 * n + 2) .uc 0 t; girthPump n ((portGet u n).outq.length + 1) u))) ∧
        (f.checkOk = true → f.nak = true → f.flitNum ≠ p.rxLast + 1 →
          ((∀ h ∈ p1.held, h.replays < 4) → exec (.girthFlit port f) s = .next
            (let u := replayFlits n (portSet n p1 s); portSet n { portGet u n with nak := true } u)) ∧
          ((∃ h ∈ p1.held, 4 ≤ h.replays) → (srcGet s (2868 + 8 * n)).reactCe &&& rChiprst = 0 → exec (.girthFlit port f) s = .next
            (let u := raise (2868 + 8 * n) .ce 0 (portSet n { p1 with retrain := some (after 100000 s) } s)
             portSet n { portGet u n with nak := true } u)))) ∧
      (p.held.length < 512 → p.outq = [] → exec (.girthKeepalive port) s = .next (girthFlitOut n [] s)) ∧
      (p.lastFlit + 101 ≤ s.ticks → exec (.girthLinkIdleTimeout port) s = .next (fencePort n (raise (2868 + 8 * n + 1) .uc 0 s))) ∧
      (∀ b : HelloBody, p.step = 4 → s.ticks < p.stepDeadline →
        let s1 := portSet n { p with vendor := b.vendor, device := b.device, itemsMax := b.itemsMax, txnMax := b.txnMax, helloOk := true } s
        let ok := b.version = 1 ∧ (if s.coh.moesi then b.caps.getLsbD 2 else b.caps.getLsbD 1) = true ∧ (p.encStart = true → b.caps.getLsbD 0 = true)
        (¬ ok → exec (.hello port b) s = .next (startFails n s1)) ∧
        (ok → p.encStart = true → exec (.hello port b) s = .next
          (girthSend n (.kx 0x22) (girthSend n (.kx 0x21) (girthSend n (.kx 0x20) (portStep n 5 2000000 s1))))) ∧
        (ok → p.encStart = false → exec (.hello port b) s = .next (beginCredits n s1))) ∧
      (∀ c : List W16, p.step = 6 → s.ticks < p.stepDeadline → p.creditIn = false → c.length = 5 →
        let enough := ∀ x ∈ List.zip [72, 64, 64, 80, 16] (c.map (·.toNat)), x.1 ≤ x.2
        (enough → exec (.credit port c) s = .next (portUp n (girthSend n .ready (portSet n { p with credits := c.map (·.toNat), creditIn := true } s)))) ∧
        (¬ enough → exec (.credit port c) s = .next (raise (2868 + 8 * n + 2) .uc 0 s))) ∧
      (p.step = 6 → s.ticks < p.stepDeadline →
        (p.creditIn = true → exec (.ready port) s = .next (setGp n .up (portSet n { p with readyIn := true, step := 0 } s))) ∧
        (p.creditIn = false → exec (.ready port) s = .next (portSet n { p with readyIn := true } s))) ∧
      (p.step = 5 → s.ticks < p.stepDeadline →
        (∀ b, p.kxStep = 0 → exec (.girthKeyExchange port (.nonce b)) s = .next (portSet n { p with kxStep := 1 } s)) ∧
        (∀ b, p.kxStep = 1 → exec (.girthKeyExchange port (.share b)) s = .next (portSet n { p with kxStep := 2 } s)) ∧
        (∀ h, p.kxStep = 2 → p.peerHash ≠ 0 →
          exec (.girthKeyExchange port (.ident h)) s = .next (if p.peerHash = h
            then girthSend n (.kx 0x23) (portSet n { p with kxStep := 3 } s) else startFails n s)) ∧
        (p.kxStep = 3 → exec (.girthKeyExchange port (.sig true)) s = .next (girthSend n (.kx 0x24) (portSet n { p with kxStep := 4 } s)) ∧
          exec (.girthKeyExchange port (.sig false)) s = .next (startFails n s)) ∧
        (p.kxStep = 4 → exec (.girthKeyExchange port .done) s = .next (beginCredits n (portSet n { p with encOn := true, kxStep := 0 }
          { s with sec := { s.sec with draw := s.sec.draw + 1, girthKeys := tset (fun _ => 0) s.sec.girthKeys n s.sec.draw } })))) ∧
      (∀ c : Byte, exec (.chipletError port c) s = .next (raise (2868 + 8 * n + 6) .uc c.toNat s))) ∧
    (∀ d, p.retrain = some d → ∀ ok : Bool,
      let s1 := portSet n { p with retrain := none, held := p.held.map (fun h => { h with replays := 0 }), lastFlit := s.ticks } s
      exec (.girthRetrainEnd port ok) s = .next (if ok = true ∧ s.ticks < d then replayFlits n s1 else fencePort n (raise (2868 + 8 * n + 1) .uc 0 s1))) ∧
    (s.faults.safe = false →
      (p.st = .off → p.sweepBusy = true → exec (.gpStart port) s = .next (portSet n { p with startAfterSweep := true } s)) ∧
      (p.st = .off → p.sweepBusy = false → exec (.gpStart port) s = .next (setGp n .training (portSet n { p with
        pwren := true, step := 1, stepDeadline := after 100000 s, replays := 0, encOn := false, encStart := p.enc, peerHash := tget (fun _ => 0) s.sec.girthPeer n, helloOk := false, creditIn := false
        readyIn := false, kxStep := 0, startAfterSweep := false } s))) ∧
      (p.st ≠ .off → exec (.gpStart port) s = .next (countIgnored (0x50000 + 0x1000 * n) s)) ∧
      (p.st = .up → exec (.gpStop port) s = .next (quiesceIfIdle n (setGp n .quiescing (portSet n { p with quiesceBy := none } s)))) ∧
      (p.st ≠ .up → exec (.gpStop port) s = .next (countIgnored (0x50000 + 0x1000 * n) s)) ∧
      (exec (.gpFence port) s = .next (fencePort n s))) ∧
    (p.st ≠ .off → p.st ≠ .fenced → fencePort n s = foldS p.items
      (fun t u => if t.aborted.isSome then u else haltRun t.run t.stitch 6 t.pier u)
      (settleSlot (n + 1) true (setGp n .fenced (portSet n { p.stopped with sweepBusy := true, sweepPoison := true } s)))) ∧
    (p.pwren = true →
      (p.step = 1 → s.ticks < p.stepDeadline → exec (.gpPwrgd port) s = .next (portSet n { p with pwrgd := true, step := 2, stepDeadline := after 1000000 s } s)) ∧
      (p.step ≠ 1 → exec (.gpPwrgd port) s = .next (portSet n { p with pwrgd := true } s))) ∧
    (p.step = 2 → s.ticks < p.stepDeadline → exec (.girthTrainDone port) s = .next (girthFlitOut n [] (setGp n .init (portSet n { p with
      txNum := 0, rxLast := BitVec.allOnes 64, peerAck := BitVec.allOnes 64, nak := false, held := [], outq := [], lastFlit := s.ticks
      credits := [0, 0, 0, 0, 0], rxCredits := [1024, 0, 1024, 4096, 64], rxOwed := [0, 0, 0, 0, 0], txns := [], cmpWait := [], step := 3, stepDeadline := after 1000 s } s)))) ∧
    (p.step ≠ 0 → p.stepDeadline ≤ s.ticks →
      let failed := raise (2868 + 8 * n + 4) .uc 0 (setGp n .off (portSet n p.stopped s))
      exec (.girthStartTimeout port) s = .next failed ∧
      (p.step = 2 → exec (.girthTrainDone port) s = .next failed) ∧
      (p.step = 6 → p.linked = true → exec (.ready port) s = .next failed)) ∧
    (∀ d, p.st = .quiescing → p.quiesceBy = some d → s.ticks < d → exec (.quiesceDone port) s = .next
      (settleSlot (n + 1) false (setGp n .off (portSet n { p.stopped with sweepBusy := true, sweepPoison := false } s)))) ∧
    (∀ level : Bool, p.present = level →
      let s1 := portSet n { p with present := !level } s
      exec (.gpPrsntN port level) s = .next (if p.st = .off then s1 else raise (2868 + 8 * n + 7) .uc 0 s1)) ∧
    (p.sweepBusy = true →
      let s1 := sweepSlot (n + 1) p.sweepPoison (portSet n { p with sweepBusy := false, sweepPoison := false } s)
      let s2 := if p.st = .fenced then setGp n .off s1 else s1
      exec (.girthSweepEnd port) s = .next (if p.startAfterSweep then beginStart n s2 else s2))

/-- Chiplets read and write host memory, run items and confirm aborts. -/
def Obligations.ChipletAccessesAndItems : Prop :=
  ∀ (s : State) (port : Port), alive s = true →
    let n := port.val
    let p := portGet s n
    (p.st = .up ∨ p.st = .quiescing →
      (∀ (txn : BitVec 12) (ctx : Ctx) (line : BitVec 46) (d : LineData) (m : W64) (poison : Bool),
        ((∃ t ∈ p.txns, t.txn = txn) →
          exec (.hRd port txn ctx line d poison) s = .next (raise (2868 + 8 * n + 2) .uc 0 s) ∧
          exec (.hWr port txn ctx line d m) s = .next (raise (2868 + 8 * n + 2) .uc 0 s)) ∧
        ((∀ t ∈ p.txns, t.txn ≠ txn) →
          let known := ∃ i ∈ p.items, i.sent = true ∧ i.ctx = ctx.val
          let inside := bmeOn s = true ∧ ∃ w ∈ p.hwin, w.en = true ∧ w.base.toNat ≤ line.toNat / 64 ∧ line.toNat / 64 ≤ w.last.toNat
          let nack := fun (r : Nat) => raise (2868 + 8 * n + 3) .uc r (count (2496 + 8 * n + 3) (girthSend n (.nack txn (BitVec.ofNat 8 r)) s))
          (¬ known → exec (.hRd port txn ctx line d poison) s = .next (nack 1) ∧ exec (.hWr port txn ctx line d m) s = .next (nack 1)) ∧
          (known → ¬ inside → exec (.hRd port txn ctx line d poison) s = .next (nack 4) ∧ exec (.hWr port txn ctx line d m) s = .next (nack 4)) ∧
          (known → inside →
            (∀ l u, dcHostRead (3 + n) line d poison s = some (l, u) →
              exec (.hRd port txn ctx line d poison) s = .next (girthSend n (.data txn true l.data l.poison) u)) ∧
            (∀ u, dcStoreIn (3 + n) false line d m s = some u →
              exec (.hWr port txn ctx line d m) s = .next (releaseCmps (girthSend n (.cmp txn 0 0 false) u)))))) ∧
      (∀ t, (p.items.filter (·.sent)).length < 1024 → (p.items.filter (·.sent)).length < p.itemsMax.toNat →
        p.items.find? (fun t => !t.sent) = some t →
        exec (.offloadItemSend port) s = .next (count (2496 + 8 * n + 5) (girthSend n (.item t.bytes)
          (portSet n { p with items := modFirst (fun x => !x.sent) (fun x => { x with sent := true }) p.items } s)))) ∧
      (∀ (tag : W32) (st : Byte),
        ((∀ t ∈ p.items, t.tag = tag → s.ticks < t.deadline) → p.items.find? (fun t => t.sent && t.tag = tag) = none → exec (.offloadCmp port tag st) s = .next (count (2496 + 8 * n + 4) s)) ∧
        (∀ t, p.items.find? (fun t => t.sent && t.tag = tag) = some t →
          (t.aborted.isSome = true → (∀ x ∈ p.items, x.tag = tag → x.aborted.isSome = true) → exec (.offloadCmp port tag st) s = .next (releaseCmp n tag st s)) ∧
          (t.aborted = none → (∀ x ∈ p.items, x.tag = tag → s.ticks < x.deadline) → (∀ w ∈ p.cmpWait, w.1 ≠ tag) → exec (.offloadCmp port tag st) s =
            .next (releaseCmps (dcFence (3 + n) (portSet n { p with cmpWait := p.cmpWait ++ [(tag, st, openWrites s n, s.coh.fenceCtr)] } s))))) ∧
        ((∃ t ∈ p.items, t.tag = tag ∧ t.aborted.isSome = true) → (∀ t ∈ p.items, ∀ d, t.aborted = some d → s.ticks < d) → exec (.abortDone port tag) s = .next (dropItem n tag s)) ∧
        ((∀ t ∈ p.items, t.tag = tag → t.aborted = none) → exec (.abortDone port tag) s = .next (count (2496 + 8 * n + 4) s)))) ∧
    (∀ d, p.st = .quiescing → p.quiesceBy = some d → d ≤ s.ticks →
      exec (.abortTicksExpiry port) s = .next (fencePort n (raise (2868 + 8 * n + 5) .uc 0 s)) ∧
      exec (.quiesceDone port) s = .next (fencePort n (raise (2868 + 8 * n + 5) .uc 0 s))) ∧
    (∀ t d, p.st ≠ .quiescing → p.items = [t] → t.aborted = some d → d ≤ s.ticks →
      exec (.abortTicksExpiry port) s = .next (raise (2868 + 8 * n + 5) .uc 0
        (portSet n { p with items := [{ t with aborted := some (after s.girth.abortTicks.toNat s) }] } s)))

/-- Unanswered deck requests take their outcomes; power domains close and wake as asked. -/
def Obligations.DeckRequestsAndPowerDomains : Prop :=
  ∀ s : State, alive s = true →
    (∀ (u dest : BitVec 9) (ttag : W16) (line : LineAddr) (w resent : Bool), validUnit u.toNat = true →
      (validUnit dest.toNat = true → (∀ q ∈ s.deck.quarantine, ¬ (q.1 = u.toNat ∧ q.2.1 = ttag.toNat)) →
        let s1 := raise (2195 + homeNode u.toNat) .uc (u.toNat * 65536 + dest.toNat) s
        exec (.deckTimeout u ttag dest line w resent) s = .next (deckOutcome u.toNat dest.toNat line w resent
          { s1 with deck := { s1.deck with quarantine := s1.deck.quarantine ++ [(u.toNat, ttag.toNat, after (4 * deckTimer s1) s1)] } })) ∧
      (∀ d, unitDomain dest.toNat = some d → (pdGet s d).st ≠ .on →
        exec (.domainOff u ttag dest line w resent) s = .next (deckOutcome u.toNat dest.toNat line w resent s))) ∧
    (∀ (u dest : Nat) (line : LineAddr) (w resent : Bool),
      (320 ≤ dest → dest < 384 → (s.coh.qmoves ≠ [] ∨ resent = false) → deckOutcome u dest line w resent s = s) ∧
      (¬ (320 ≤ dest ∧ dest < 384) →
        (∀ r i, u < 320 → s.piers.runs.find? (fun r => (runOnPier s u r).isSome) = some r → runOnPier s u r = some i →
          deckOutcome u dest line w resent s = haltRun r.id i 3 u s) ∧
        (∀ f, 384 ≤ u → u < 400 → s.coh.fills.find? (fun f => f.line = line) = some f →
          let t := { s with coh := { s.coh with fills := dropFirst (· = f) s.coh.fills } }
          (f.engine = none → deckOutcome u dest line w resent s = emit (.interiorData true line.toNat 0 true) t) ∧
          (∀ e, f.engine = some e → deckOutcome u dest line w resent s = xferGot e line 0 true t)) ∧
        (416 ≤ u → u < 480 → deckOutcome u dest line w resent s = failXfer (u - 416) 7 s) ∧
        deckOutcome 0x1E8 dest line false resent s = emit (.memData line 0 true) s ∧
        deckOutcome 0x1E8 dest line true resent s = count 2555 s)) ∧
    (∀ (u : BitVec 9) (ttag : W16), (∃ t, exec (.ttagQuarantineExpiry u (.timer ttag)) s = .next t ∧
        t = { s with deck := { s.deck with quarantine := t.deck.quarantine } } ∧
        ∀ q, q ∈ t.deck.quarantine ↔ q ∈ s.deck.quarantine ∧ ¬ (q.1 = u.toNat ∧ q.2.1 = ttag.toNat ∧ q.2.2 ≤ s.ticks)) ∧
      ((∃ q ∈ s.deck.quarantine, q.1 = u.toNat ∧ q.2.1 = ttag.toNat) → ∃ t, exec (.ttagQuarantineExpiry u (.late ttag)) s = .next t ∧
        t = count (1728 + 2 * homeNode u.toNat + 1) { s with deck := { s.deck with quarantine := t.deck.quarantine } } ∧
        ∀ q, q ∈ t.deck.quarantine ↔ q ∈ s.deck.quarantine ∧ ¬ (q.1 = u.toNat ∧ q.2.1 = ttag.toNat))) ∧
    (∀ d : Domain, s.faults.safe = false →
      let n := d.val
      let x := pdGet s n
      (x.fence = none → (x.st = .closing ∨ x.st = .waking) → ∀ b : Bool,
        exec (if b then Instr.pdReqOff d else .pdReqOn d) s = .next (pdSet n { x with req := b, waiting := some b } s)) ∧
      (x.fencing = false → n ∉ s.deck.wakeQueue →
        (x.st = .on →
          (offError n s = 0 → exec (.pdReqOff d) s = .next (closeDomain n (pdSet n { x with req := true, errCode := 0 } s))) ∧
          (offError n s ≠ 0 → exec (.pdReqOff d) s =
            .next (countIgnored (0x61000 + 4 * n) (pdSet n { x with errCode := BitVec.ofNat 8 (offError n s) } s)))) ∧
        (x.st = .on → exec (.pdReqOn d) s = .next (pdSet n { x with req := false, errCode := 0 } s)) ∧
        (x.st = .off → ((pdSet n { x with req := false, errCode := 0 } s).deck.pds.filter (fun e => e.2.st = .waking)).length < 24 →
          exec (.pdReqOn d) s = .next (pdSet n { x with req := false, errCode := 0, wakeBy := after 1000 s, st := .waking } s))) ∧
      (x.fencing = false → 320 ≤ n → n < 324 → offError n s = 1) ∧
      (x.fencing = false → n < 320 → pierInUse s n = true → offError n s = 2)) ∧
    (∀ d : Domain,
      let n := d.val
      let x := pdGet s n
      (x.st = .closing → quiet n s = true → (∀ r ∈ s.faults.resets, r.block ≠ .domain d) →
        (∀ src t, x.fence = some (src, t) → exec (.domainPowerDrop d) s = .next (fenceEnd n src s)) ∧
        (x.fence = none → n < 320 → x.waiting = none → ∀ t, stopPier n (pdSet n { x with st := .off } s) = t →
          (pdGet t n).waiting = none → exec (.domainPowerDrop d) s = .next (pdSet n { pdGet t n with waiting := none } t)) ∧
        (x.fence = none → 320 ≤ n → x.waiting = none → exec (.domainPowerDrop d) s = .next (pdSet n { x with st := .off } s))) ∧
      (x.st = .waking → x.waiting = none → (∀ e ∈ s.faults.sources, srcDomain e.1 = some n → e.2.asserted = 0) →
        (s.deck.wakeQueue = [] → exec (.domainWakeEnd d) s = .next (pdSet n { x with st := .on, wakeBy := 0 } s)) ∧
        (∀ m rest, s.deck.wakeQueue = m :: rest → m ≠ n → ∃ t, exec (.domainWakeEnd d) s = .next t ∧
          (pdGet t n).st = .on ∧ (pdGet t m).st = .waking ∧ t.deck.wakeQueue = rest))) ∧
    (s.deck.reconfBusy = true → oldFlitsGone s = true →
      (s.deck.pendingMap = [] → exec .routeRetire s = .next (trace 0x09 uObserve (b2n !s.deck.routeVer) 0
        { s with deck := { s.deck with reconfBusy := false, routeVer := !s.deck.routeVer } })) ∧
      (∀ m rest, s.deck.pendingMap = m :: rest → ∃ o, exec .routeRetire s = .next { s with obs := o, deck :=
        let d := { s.deck with reconfBusy := true, routeVer := !s.deck.routeVer, pendingMap := rest }
        if s.deck.routeVer then { d with bank1 := m } else { d with bank0 := m } }))

/-- Fences and block resets run from their messages to their replies; spandrel operations release their leaves. -/
def Obligations.FencesResetsAndSpandrel : Prop :=
  ∀ s : State, alive s = true →
    (∀ (b : Block) (source : Fin 2944) (f : Bool) (m : BlockMsg),
      s.faults.messages.find? (fun m => m.block = b && m.isFence = f && m.source = source.val) = some m →
      let s1 := dropMsg m s
      (f = true → blockFenced b s1 = true → exec (.fence b source) s = .next s1) ∧
      (f = true → blockFenced b s1 = false → lastQuarter b s1 = true → exec (.fence b source) s = .next (handover (some 3) s1)) ∧
      (f = true → blockFenced b s1 = false → lastQuarter b s1 = false → exec (.fence b source) s = .next (fenceBlock b source.val s1)) ∧
      (f = false → blockFenced b s1 = false → (∀ r ∈ s1.faults.resets, r.block ≠ b) →
        let s2 := { s1 with faults := { s1.faults with resets := s1.faults.resets ++ [⟨b, source.val, after 1000 s⟩] } }
        (∀ d, b = .domain d → (pdGet s1 d.val).st = .off → exec (.blkrst b source) s = .next s1) ∧
        (∀ d, b = .domain d → (pdGet s1 d.val).st ≠ .off →
          exec (.blkrst b source) s = .next (stopPier d.val (pdSet d.val { pdGet s1 d.val with st := .closing } s2))) ∧
        (∀ e, b = .engine e → xferGet s1 e.val = none → exec (.blkrst b source) s = .next s2) ∧
        (∀ e x, b = .engine e → xferGet s1 e.val = some x → exec (.blkrst b source) s = .next (xferLost x.use (dropXfer e.val s2))))) ∧
    (∀ (d : Domain) (src : Nat), d.val < 328 → (pdGet s d.val).fencing = false → d.val ∉ s.deck.wakeQueue →
      (∀ r ∈ s.faults.resets, r.block ≠ .domain d) →
      let x := pdGet s d.val
      (x.st = .off → fenceBlock (.domain d) src s = fenceEnd d.val src s) ∧
      (x.st = .on →
        let s1 := pdSet d.val { x with st := .closing, waiting := none, fence := some (src, after (deckTimer s) s) } s
        (d.val < 320 → fenceBlock (.domain d) src s = losePier d.val (stopPier d.val s1)) ∧
        (320 ≤ d.val → d.val < 324 → fenceBlock (.domain d) src s = startQmove (d.val - 320) s1) ∧
        (324 ≤ d.val → fenceBlock (.domain d) src s = closeCache d.val s1))) ∧
    (∀ (d : Domain) src t, (pdGet s d.val).fence = some (src, t) → t ≤ s.ticks →
      let x := pdGet s d.val
      let s1 := pdSet d.val { x with st := .fenced, fence := none, waiting := none } s
      exec (.fenceDrainTimeout d) s = .next (blockReply (domBlock d.val) true src s1)) ∧
    (∀ (b : Block) r, s.faults.resets.find? (fun r => r.block = b) = some r →
      let s0 := { s with faults := { s.faults with resets := s.faults.resets.filter (· ≠ r) } }
      let s1 := blockReply b false r.source s0
      (∀ d, b = .domain d → s.ticks < r.deadline → exec (.blkrstEnd b) s =
        .next (resample d.val (reloadCodebook d.val (copyBack d.val (pdSet d.val { pdGet s1 d.val with st := .on } s1))))) ∧
      ((∀ d, b ≠ .domain d) → exec (.blkrstEnd b) s = .next s1) ∧
      (∀ d, b = .domain d → r.deadline ≤ s.ticks →
        exec (.blkrstTimeout b) s = .next (losePier d.val (fenceEnd d.val r.source s0)) ∧
        exec (.blkrstEnd b) s = .next (losePier d.val (fenceEnd d.val r.source s0)))) ∧
    (∀ (op : Nat) (first last leaf : Fin 384) (bit : Bool), first.val ≤ leaf.val → leaf.val ≤ last.val → s.deck.ops = [] →
      let o := fun (k : SpKind) (v : W64) => (⟨op, k, first.val, last.val, [leaf.val], v⟩ : SpOp)
      let one := fun (c : Instr) (k : SpKind) (v : W64) =>
        (first.val < last.val → exec c s = .next { s with deck := { s.deck with ops := [o k v] } }) ∧
        (first.val = last.val → exec c s = .next (spRelease (o k v) { s with deck := { s.deck with ops := [o k v] } }))
      one (.join op first last leaf) .join 0 ∧ one (.snap op first last leaf) .snap 0 ∧ one (.resetOp op first last leaf) .reset 0 ∧
      one (.andOp op first last leaf bit) .and (BitVec.ofNat 64 (if bit then 1 else 0))) ∧
    (∀ (op : Nat) (l : Fin 384) (a b : Bool), 0 < l.val → l.val < 2 →
      s.deck.ops = [⟨op, .and, 0, 1, [0], BitVec.ofNat 64 (if a then 1 else 0)⟩] → ∃ t, exec (.andOp op 0 1 l b) s = .next t ∧
      t.deck.ops = [] ∧ t.deck.released = s.deck.released ++ [⟨op, .and, 0, 1, BitVec.ofNat 64 (if a && b then 1 else 0), 20⟩]) ∧
    (∀ (first last : Fin 384) (v : W64), first.val ≤ last.val → s.deck.ops = [] → ∃ t, exec (.bcast first last v) s = .next t ∧
      t = { s with deck := { s.deck with ops := [], released := s.deck.released ++
        [⟨0, .bcast, first.val, last.val, v, 8 + 12 * (spScope first.val last.val).1⟩] } })

/-- The SPDM responder serves its requests in their order, on the mailbox and in secured sessions. -/
def Obligations.SpdmServesItsRequests : Prop :=
  ∀ z : State, z.host.phyUp = true → z.power.phase = .served →
    let s := ringDoorbell 7 0 z
    exec (.getVersion none) z = .next (emit (.spdm none (.version [0x13])) { s with sec := { s.sec with conn := 1 } }) ∧
    (∀ i, exec (.getVersion (some i)) z = .next (spdmError (some i) "UnexpectedRequest" s)) ∧
    (s.sec.lifecycle = .blank ∨ s.sec.lifecycle = .retired → ∀ session,
      exec (.getCapabilities session) z = .next (spdmError session "UnsupportedRequest" s) ∧
      exec (.getDigests session) z = .next (spdmError session "UnsupportedRequest" s)) ∧
    (s.sec.lifecycle = .provisioned ∨ s.sec.lifecycle = .deployed →
      (1 ≤ s.sec.conn → exec (.getCapabilities none) z = .next (emit (.spdm none (.capabilities
        { flags := [.cert, .chal, .measSigned, .keyEx, .mutAuth, .encrypt, .mac, .hbeat, .keyUpd, .encap, .chunk]
          ctExponent := 16, dataTransferSize := 4096, maxMsgSize := 65536 })) { s with sec := { s.sec with conn := 2 } })) ∧
      (2 ≤ s.sec.conn → exec (.negotiateAlgorithms none) z = .next (emit (.spdm none (.algorithms ⟨.ecdsaP384, .ecdsaP384, .sha384, .secp384r1, .aes256Gcm, .spdmKeySchedule, .dmtfMeasurements, .sha384⟩)) { s with sec := { s.sec with conn := 3 } })) ∧
      (s.sec.conn < 2 → exec (.negotiateAlgorithms none) z = .next (spdmError none "UnexpectedRequest" s)) ∧
      (s.sec.conn < 3 → exec (.getDigests none) z = .next (spdmError none "UnexpectedRequest" s)) ∧
      (∀ session : SessionId,
        let carried := match session with
          | none => 3 ≤ s.sec.conn
          | some i => ∃ x, sessGet s i.val = some x ∧ x.secured = true
        carried →
          exec (.getDigests session) z = .next (emit (.spdm session .digests) s) ∧
          (∀ o l, exec (.getCertificate session o l) z = .next (emit (.spdm session (.certificate o.toNat l.toNat)) s)) ∧
          (∀ n, exec (.challenge session n) z = .next (if session.isSome then spdmError session "UnexpectedRequest" s
            else emit (.spdm none (.challengeAuth n)) s)) ∧
          (∀ h q, exec (.chunkGet session h q) z = .next (emit (.spdm session (.chunkResponse q)) s)) ∧
          (selectedCtx s session = none → ∀ signed,
            exec (.getMeasurements session 0 signed) z = .next (emit (.spdm session (.measurements [] signed [11])) s) ∧
            exec (.getMeasurements session 0xFF signed) z =
              .next (emit (.spdm session (.measurements [1, 2, 3, 4, 5, 6, 7, 8, 9, 10, 11] signed [])) s) ∧
            (∀ i : Byte, 0 < i.toNat → i.toNat ≤ 11 →
              exec (.getMeasurements session i signed) z = .next (emit (.spdm session (.measurements [i.toNat] signed [])) s)) ∧
            (∀ i : Byte, 11 < i.toNat → i ≠ 0xFF →
              exec (.getMeasurements session i signed) z = .next (spdmError session "InvalidRequest" s))) ∧
          (∀ (h : Byte) (last : Bool) (b : List Byte), s.sec.chunks = [] → b.length ≤ 4096 →
            exec (.chunkSend session h 0 last b) z = .next (emit (.spdm session (.chunkSendAck 0 last))
              { s with sec := { s.sec with chunks := if last then [] else [⟨session, h, 1, b⟩] } }) ∧
            ∀ q, q ≠ 0 → exec (.chunkSend session h q last b) z = .next (spdmError session "InvalidRequest" s))) ∧
      (3 ≤ s.sec.conn → ∀ mutualAuth : Bool,
        (∀ i, findBelow 16 (fun i => (sessGet s i).isNone) = some i →
          let x : Session := ⟨i, false, mutualAuth, 0, none, none, 0⟩
          let t := emit (.spdm none (.keyExchange i mutualAuth)) { s with sec := { s.sec with sessions := s.sec.sessions ++ [x] } }
          exec (.keyExchange mutualAuth) z = .next (if mutualAuth then emit (.spdm (some (Fin.ofNat 16 i)) (.encapsulated false)) t else t)) ∧
        ((∀ i < 16, (sessGet s i).isSome = true) →
          exec (.keyExchange mutualAuth) z = .next (spdmError none "SessionLimitExceeded" s))) ∧
      (∀ (i : Fin 16) (x : Session), sessGet s i.val = some x → x.secured = true →
        (exec (.heartbeat (some i)) z = .next (emit (.spdm (some i) .heartbeatAck) s)) ∧
        (exec (.keyUpdate (some i)) z = .next (emit (.spdm (some i) .keyUpdateAck) (sessPut { x with keyGen := x.keyGen + 1 } s))) ∧
        (exec (.endSession (some i)) z = .next (sessEnd i.val (emit (.spdm (some i) .endSessionAck) s))) ∧
        (∀ stream, exec (.ideKm (some i) stream false) z = .next (emit (.spdm (some i) .ideKm) s) ∧
          (s.host.ideFailed = none → exec (.ideKm (some i) stream true) z = .next (emit (.spdm (some i) .ideKm) { s with host :=
            match stream with
            | .cxlIo n => { s.host with ideSecure := withBit s.host.ideSecure n.val }
            | .cacheMem => { s.host with ideMemSecure := true } }))) ∧
        (∀ c, x.selected = some c → ∃ t y, exec (.getMeasurements (some i) 0xFF true) z = .next t ∧ sessGet t i.val = some y ∧
          attested t y c = true))) ∧
    (∀ (i : Fin 16) (x : Session), sessGet s i.val = some x → x.secured = false →
      (x.mutualAuth = true → ∀ k,
        exec (.encapsulatedResponse i false k) z = .next (emit (.spdm (some i) (.encapsulated true)) s) ∧
        exec (.encapsulatedResponse i true k) z = .next (sessPut { x with requester := k } s)) ∧
      (∀ k, (x.mutualAuth = false ∨ (x.requester ≠ 0 ∧ k = x.requester)) →
        exec (.finish i true k) z = .next (emit (.spdm (some i) .finish) (sessPut { x with secured := true } s))) ∧
      (∀ k, exec (.finish i false k) z = .next (spdmError (some i) "DecryptError" (sessEnd i.val s))))

/-- Contexts are created, keyed and retired only as their checks allow. -/
def Obligations.ContextsAreCreatedAndKeyed : Prop :=
  (∀ (session : SessionId) (x : Session) (z : State), z.host.phyUp = true → z.power.phase = .served → z.faults.safe = false →
    let s := ringDoorbell 7 0 z
    (s.sec.lifecycle = .provisioned ∨ s.sec.lifecycle = .deployed) → session.bind (fun i => sessGet s i.val) = some x → x.secured = true →
    (∀ n : W16, (n.toNat ≤ 4095 → exec (.ctxSelect session n) z =
        .next (emit (.spdm session (.vendor 1 (BitVec.ofNat 8 stOk))) (sessPut { x with selected := some n.toNat } s))) ∧
      (4095 < n.toNat → exec (.ctxSelect session n) z = .next (vendorRsp session 1 stFormat s))) ∧
    (∀ (n : W16) (host : Bool) (rsv : BitVec 47) (cred : W64),
      let c := ctxGet s n.toNat
      (cred = 0 ∨ rsv ≠ 0 ∨ 4095 < n.toNat → exec (.ctxCreate session n host rsv cred) z = .next (vendorRsp session 2 stFormat s)) ∧
      (cred ≠ 0 → rsv = 0 → n.toNat ≤ 4095 → (x.mutualAuth = false ∨ c.admitted = false) →
        exec (.ctxCreate session n host rsv cred) z = .next (vendorRsp session 2 stPerm s)) ∧
      (cred ≠ 0 → rsv = 0 → n.toNat ≤ 4095 → x.mutualAuth = true → c.admitted = true → c.st = .free → ownContext n.toNat s = true →
        (tryLock s = none → exec (.ctxCreate session n host rsv cred) z = .next (vendorRsp session 2 stState (lockRefused s))) ∧
        ∀ s1, tryLock s = some s1 → ctxGet s1 n.toNat = c →
          let k : KeySlot := ⟨s1.sec.draw, .live⟩
          let s2 := trace 0x28 (uCore 7) (n.toNat + 65536) 0 <| ctxSet n.toNat { c with
            st := .created, owner := x.requester, cred := cred, hostmemOn := c.hostmem && host, epoch := 0, rotOpen := false
            modelKey := 0, keyId := 0, spillCtr := 0 }
            { s1 with sec := { s1.sec with draw := s1.sec.draw + 1, slots := tset (fun _ => {}) s1.sec.slots (2 * n.toNat) k },
                      sb := { s1.sb with lock := true } }
          (waits s1 = false → exec (.ctxCreate session n host rsv cred) z =
            .next (emit (.spdm session (.vendor 2 (BitVec.ofNat 8 stOk))) (putContext n.toNat s2))) ∧
          (waits s1 = true → exec (.ctxCreate session n host rsv cred) z = .next
            (let u := putContext n.toNat s2
             { u with sec := { u.sec with createWait := u.sec.createWait ++ [(s1.viaduct.nextTag, session)] } })) ∧
          (ctxGet s2 n.toNat).st = .created ∧ (ctxGet s2 n.toNat).owner = x.requester ∧ (ctxGet s2 n.toNat).cred = cred)) ∧
    (∀ (n : W16) (keyId : W32) (key : BitVec 256), n.toNat ≤ 4095 → keyId ≠ 0 →
      let c := ctxGet s n.toNat
      (c.st = .free ∨ c.owner = 0 ∨ x.requester ≠ c.owner → exec (.keyRelease session n 0 keyId key) z = .next (vendorRsp session 3 stPerm (keyRefused n.toNat s))) ∧
      (c.st ≠ .free → c.owner ≠ 0 → x.requester = c.owner →
        (s.sec.lifecycle ≠ .deployed ∨ attested s x n.toNat = false → exec (.keyRelease session n 0 keyId key) z = .next (vendorRsp session 3 stKey (keyRefused n.toNat s))) ∧
        (s.sec.lifecycle = .deployed → attested s x n.toNat = true → modelOf s n.toNat = none → loading s n.toNat = false →
          let u := trace 0x28 (uCore 7) (n.toNat + 65536 * 2) 0 <| ctxSet n.toNat { c with modelKey := key.toNat + 1, keyId := keyId, st := .keyed } s
          exec (.keyRelease session n 0 keyId key) z = .next (emit (.spdm session (.vendor 3 (BitVec.ofNat 8 stOk)))
            (if ownContext n.toNat u then putContext n.toNat u else u)) ∧
          (ctxGet u n.toNat).st = .keyed ∧ (ctxGet u n.toNat).modelKey = key.toNat + 1 ∧ (ctxGet u n.toNat).owner = c.owner))) ∧
    (∀ (serial : W64) (ok : Bool),
      ((∃ e ∈ s.sec.contexts, e.2.st ≠ .free) → exec (.retire session serial ok) z = .next (vendorRsp session 4 stState s)) ∧
      ((∀ e ∈ s.sec.contexts, e.2.st = .free) → (ok = false ∨ serial ≠ Config.serial) →
        exec (.retire session serial ok) z = .next (vendorRsp session 4 stPerm s)) ∧
      ((∀ e ∈ s.sec.contexts, e.2.st = .free) → ok = true → serial = Config.serial → ∃ t, exec (.retire session serial ok) z = .next t ∧
        t.sec.lifecycle = .retired ∧ t.sec.slots = [] ∧ t.sec.hostKey = 0 ∧ t.sec.serviceKey = 0))) ∧
  (∀ (z : State) (n : W16), z.host.phyUp = true → z.power.phase = .served → z.faults.safe = false → z.sec.lifecycle = .deployed →
    let s := ringDoorbell 7 0 z
    exec (.ctxSelect none n) z = .next (vendorRsp none 1 stPerm s) ∧
    (∀ h r c, exec (.ctxCreate none n h r c) z = .next (vendorRsp none 2 stPerm s)) ∧
    (∀ r i k, exec (.keyRelease none n r i k) z = .next (vendorRsp none 3 stPerm (keyRefused n.toNat s))) ∧
    (∀ a b, exec (.retire none a b) z = .next (vendorRsp none 4 stPerm s)))

/-- The part powers on, resets by MOD_RST_N, starts in six steps, and senses rails, heat and the test controller. -/
def Obligations.PowerStartUpAndSensing : Prop :=
  (∀ s : State, ∃ t, exec .powerOn s = .next (trace 0x05 uObserve 1 0 t) ∧ t.power.phase = .inReset ∧ t.power.modRstN = false ∧ t.power.cold = true ∧
    t.power.perstN = s.power.perstN ∧ t.power.retained = {} ∧ t.store = {} ∧ t.piers = {} ∧ t.service = {} ∧ t.host = {} ∧ t.coh = {} ∧
    t.milell = {} ∧ t.obs = {} ∧ t.sb = {} ∧ t.deck = {} ∧ t.tsNow = 0 ∧ t.ticks = s.ticks ∧ t.pending = s.pending ∧
    t.sec.lifecycle = s.sec.lifecycle ∧ t.sec.minSvn = s.sec.minSvn ∧ t.sec.hostKey = s.sec.draw ∧ t.sec.serviceKey = s.sec.draw + 1 ∧
    t.sec.contexts = [] ∧ t.sec.slots = [] ∧ t.pair.present = s.pair.present) ∧
  (∀ s : State, s.power.modRstN = true → exec .modRstNFall s =
    .next (chipReset (if s.faults.safe then 4 else 2) { s with power := { s.power with modRstN := false } })) ∧
  (∀ s : State, s.power.modRstN = false → exec .modRstNRise s = .next { s with power := { s.power with
    modRstN := true, phase := .starting, step := 1, stepStart := s.ticks } }) ∧
  (∀ (ok : Bool) (rails : RailRead) (failed : BitVec 4) (late : List (Fin 332)) (s : State), s.power.phase = .starting → s.ticks < stepDue s →
    let run := fun (s : State) => exec (.startStepEnd ok rails failed late) s
    (s.power.step = 1 → run s = .next (nextStep (railsRead rails (emit .pmRead s)))) ∧
    (s.power.step = 2 →
      (ok = true → s.sec.minSvn.toNat ≤ Config.manifestSvn.toNat →
        run s = .next (nextStep { s with sec := { s.sec with fwSvn := Config.manifestSvn } })) ∧
      ((ok = false ∨ Config.manifestSvn.toNat < s.sec.minSvn.toNat) → run s = .next (raise 2941 .ft 0 s))) ∧
    (s.power.step = 3 → late = [] →
      run s = .next (bootUp (let t := nextStep s; { t with milell := { t.milell with booted := true } }))) ∧
    (s.power.step = 4 → run s = .next (nextStep (if s.power.cold then s else wakeUnits 0 1024 s))) ∧
    (s.power.step = 5 → s.power.cold = true → failed = 0 →
      run s = .next (nextStep (let t := wakeUnits 1024 64 s
        { t with power := { t.power with retained := { t.power.retained with trained := 15 } } }))) ∧
    (s.power.step = 6 → run s = .next (endStep6 s))) ∧
  (∀ s : State, s.power.phase = .starting → stepDue s ≤ s.ticks → exec .startStepTimeout s =
    .next (raise 2941 .ft 0 { s with power := { s.power with phase := .failed, failStep := BitVec.ofNat 3 s.power.step } })) ∧
  (∀ s : State, s.power.phase = .served → s.power.done = false → s.pair.st ≠ .pairing → autoEnded s = true → s.coh.qmoves = [] →
    s.coh.sweeping = [] →
    let t := setForcedHw false { s with power := { s.power with done := true } }
    ((Config.commitSvn = false ∨ t.sec.fwSvn.toNat ≤ t.sec.minSvn.toNat) → exec .startupDone s = .next t) ∧
    (Config.commitSvn = true → t.sec.minSvn.toNat < t.sec.fwSvn.toNat →
      exec .startupDone s = .next (restamp 2 { t with sec := { t.sec with minSvn := t.sec.fwSvn } }))) ∧
  (∀ s : State, alive s = true →
    (s.power.pmRead = none →
      exec (.railAlert none) s = .next (let t := emit .pmRead s; { t with power := { t.power with pmRead := some (after 20000 s) } }) ∧
      ∀ r : RailRead, exec (.railAlert (some r)) s =
        .next (trace 0x07 uObserve (r.railOk.toNat + 256 * r.alert.toNat + 65536 * r.code.toNat) 0
          (let t := emit .pmRead s
           { t with power := { t.power with railOk := r.railOk, alert := r.alert, alertCode := r.code, vcoreMeasMv := r.vcoreMv, pmRead := none } }))) ∧
    (∀ d, s.power.pmRead = some d → d ≤ s.ticks →
      exec .pmReadTimeout s = .next (raise 2936 .uc s.pace.vcoreMv.toNat { s with power := { s.power with pmRead := none } })) ∧
    (∀ mv : W16, exec (.vcoreOutOfRange mv) s = .next (raiseLevel 2935 .uc (decide (mv.toNat < 700 ∨ 800 < mv.toNat)) mv.toNat s)) ∧
    (∀ tj : Int, s.power.readings = [] → s.ticks ≤ s.power.lastReading + 1000 →
      let d : Byte := BitVec.ofNat 8 (min 255 tj.toNat)
      exec (.thermalReading tj) s = .next (raiseLevel 2934 .uc (decide (tj < 0 ∨ 105 < tj)) d.toNat (raiseLevel 2934 .ce (decide (95 ≤ tj)) d.toNat
        { s with power := { s.power with readings := [(s.ticks, tj)], lastReading := s.ticks, thermalLost := false }
                 pace := { s.pace with tjC := d } }))) ∧
    (s.power.thermalLost = false → s.power.lastReading + 1001 ≤ s.ticks →
      exec .thermalTimeout s = .next (raise 2938 .uc s.pace.tjC.toNat { s with power := { s.power with thermalLost := true } }))) ∧
  (∀ s : State,
    (∀ i : JtagInstr, i = .bypass ∨ i = .idcode ∨ i = .sample →
      exec (.jtagInstruction i) s = .next { s with power := { s.power with jtag := i } }) ∧
    (∀ c, (s.sec.lifecycle = .deployed ∨ s.sec.lifecycle = .retired) →
      exec (.jtagInstruction (.other c)) s = .next { s with power := { s.power with jtag := .bypass } }) ∧
    (∀ c, (s.sec.lifecycle = .blank ∨ s.sec.lifecycle = .provisioned) →
      exec (.jtagInstruction (.other c)) s = .next { s with power := { s.power with jtag := .other c } }) ∧
    (∀ i : JtagInstr, i = .extest ∨ i = .clamp ∨ i = .highz ∨ i = .extestPulse ∨ i = .extestTrain → s.power.modRstN = true →
      let a := raise 2939 .uc 0 { s with power := { s.power with jtag := i } }
      let b := foldS (List.range 6) fencePort (if a.host.phyUp then linkFalls 5 a else a)
      exec (.jtagInstruction i) s = .next (if b.viaduct.up = true ∨ b.viaduct.step ≠ 0 then linkDown b else b)))

/-- The field network node follows NMT and LSS, sends its heartbeat, and serves USDO transfers. -/
def Obligations.FieldNetworkNode : Prop :=
  (∀ s : State, canUp s = true →
    (exec .nmtStart s = .next (emcySend { s with milell := { s.milell with nmt := .operational } })) ∧
    (exec .nmtStop s = .next (emcySend { s with milell := { s.milell with nmt := .stopped } })) ∧
    (exec .nmtPreOperational s = .next (emcySend { s with milell := { s.milell with nmt := .preOperational } })) ∧
    (exec .nmtResetNode s = .next (if s.faults.safe then count 2699 s else chipReset 5 s)) ∧
    (exec .nmtResetCommunication s = .next (emcySend (bootUp { s with milell := { s.milell with
      nodeInForce := s.milell.nodeId, inhibit := 100, heartbeatMs := 1000, usdo := [], segs := [] } })))) ∧
  (∀ s : State, onNetwork s = true →
    (s.milell.heartbeatMs ≠ 0 → s.milell.nextHeartbeat ≤ s.ticks → exec .canHeartbeat s =
      .next (emit (.can (0x700 + s.milell.nodeInForce.toNat) [match s.milell.nmt with | .stopped => 4 | .operational => 5 | .preOperational => 0x7F])
        { s with milell := { s.milell with nextHeartbeat := s.ticks + s.milell.heartbeatMs.toNat * 100000 } }))) ∧
  (∀ s : State, canUp s = true →
    (∀ id : Byte,
      let ok := (1 ≤ id.toNat ∧ id.toNat ≤ 127) ∨ id = 0xFF
      ((s.faults.safe = true ∨ ¬ ok) → exec (.lssConfigureNodeId id) s = .next (emit (.can 0x7E4 [0x11, 1, 0, 0, 0, 0, 0, 0]) s)) ∧
      (s.faults.safe = false → ok →
        let t := emit (.can 0x7E4 [0x11, 0, 0, 0, 0, 0, 0, 0]) { s with milell := { s.milell with nodeId := id } }
        (s.milell.nodeInForce ≠ 0xFF ∨ id = 0xFF → exec (.lssConfigureNodeId id) s = .next t) ∧
        (s.milell.nodeInForce = 0xFF → id ≠ 0xFF → ∃ u, exec (.lssConfigureNodeId id) s = .next u ∧ u.milell.nodeInForce = id ∧
          u.milell.nmt = .preOperational ∧ u.out = t.out ++ [.can (0x700 + id.toNat) [0]]))) ∧
    (exec .lssStoreConfiguration s = .next (if s.faults.safe then emit (.can 0x7E4 [0x17, 1, 0, 0, 0, 0, 0, 0]) s
      else emit (.can 0x7E4 [0x17, 0, 0, 0, 0, 0, 0, 0]) { s with power := { s.power with retained := { s.power.retained with nodeId := s.milell.nodeId } } })) ∧
    (exec .emcyInhibitExpiry s = .next (emcySend s)) ∧ (exec .classicCanFrame s = .next (count 2696 s)) ∧
    (∀ (client : Fin 128) x, s.milell.segs.find? (fun x => x.client = client.val) = some x → x.deadline ≤ s.ticks →
      exec (.usdoTimeout client) s = .next (usdoAbort client.val 0x05040000 (segDrop client.val s)))) ∧
  (∀ (s : State) (client : Fin 128) (dest : Byte) (index : W16) (sub : Byte) (kind : UsdoKind) (v : List Byte), usdoServed s = true →
    let up := exec (.usdoUploadInitiate client dest index sub kind) s
    let down := exec (.usdoDownloadInitiate client dest index sub kind v) s
    (dest = 0 → up = .next (count 2697 s) ∧ down = .next (count 2697 s)) ∧
    (dest ≠ 0 → dest ≠ s.milell.nodeInForce → up = .next s ∧ down = .next s) ∧
    (dest ≠ 0 → dest = s.milell.nodeInForce → (∀ x ∈ s.milell.segs, x.client ≠ client.val) →
      (kind = .other → up = .next (usdoAbort client.val 0x05040001 (count 2692 s)) ∧ down = .next (usdoAbort client.val 0x05040001 (count 2692 s))) ∧
      (kind ≠ .other → up = .next (usdoQueue ⟨client.val, index, sub, none, decide (kind = .segmented)⟩ s)) ∧
      (kind = .expedited → down = .next (usdoQueue ⟨client.val, index, sub, some v, false⟩ s)) ∧
      (kind = .segmented → down = .next (usdoSend client.val .openDownload
        { s with milell := { s.milell with segs := s.milell.segs ++ [⟨client.val, false, index, sub, v, after 100000000 s⟩] } })))) ∧
  (∀ (s : State) (client : Fin 128) (b : List Byte) (last : Bool) (x : Segmented), usdoServed s = true →
    s.milell.segs.find? (fun x => x.client = client.val) = some x → s.ticks < x.deadline →
    let t := ringDoorbell 1 0 (segDrop client.val s)
    (x.upload = true → x.bytes.length ≤ 56 → exec (.usdoSegment client b last) s = .next (usdoSend client.val (.segment x.bytes true) t)) ∧
    (x.upload = true → 56 < x.bytes.length → exec (.usdoSegment client b last) s =
      .next (segOpen { x with bytes := x.bytes.drop 56, deadline := after 100000000 s } (usdoSend client.val (.segment (x.bytes.take 56) false) t))) ∧
    (x.upload = false → exec (.usdoSegment client b true) s = .next (usdoQueue ⟨client.val, x.index, x.sub, some (x.bytes ++ b), true⟩ t)) ∧
    (x.upload = false → exec (.usdoSegment client b false) s =
      .next (usdoSend client.val .segmentAck (segOpen { x with bytes := x.bytes ++ b, deadline := after 100000000 s } t))))

/-- Registers take writes under their access codes; core 1 serves the dictionary. -/
def Obligations.RegistersAndDictionary : Prop :=
  (∀ (w : RegWrite) (s : State), w.size = 0 ∨ 8 < w.offset.toNat % 8 + w.size →
    (w.space = .config → exec (.registerWrite w) s = .next s) ∧
    (w.space ≠ .config → bar0Open s = true → exec (.registerWrite w) s = .next (answerUr s))) ∧
  (∀ s : State, s.power.phase = .served → s.host.mse = true → s.host.d3hot = false →
    let word := fun (v : Nat) => Cpl.data (slice (leBytes 8 v) 0 8)
    (∀ (space : RegSpace) (off size : Nat), space ≠ .config → 8 < off % 8 + size → hostRegRead space off size s = .ur) ∧
    (s.faults.safe = false →
      (let p := s.pace
       let v := p.updSeq.toNat * 2 ^ 32 + (if p.valid = true then 1 else 0) * 2 ^ 31 + p.tjC.toNat * 2 ^ 16 + p.stagePs.toNat
       hostRegRead .bar0 0x20000 8 s = word v ∧ hostRegRead .bar0 0x20000 4 s = .data (slice (leBytes 8 v) 0 4) ∧
       hostRegRead .bar0 0x20004 4 s = .data (slice (leBytes 8 v) 4 4)) ∧
      hostRegRead .bar0 0x20010 8 s = word s.tsNow.toNat ∧ hostRegRead .bar0 0x90008 8 s = word 0 ∧
      hostRegRead .bar0 0x40020 8 s = word ((if s.host.bindReq.isSome = true then 1 else 0) * 2 ^ 31 + s.host.bindStatus.toNat * 2 ^ 8)) ∧
    (s.faults.safe = true → ∀ k < 0x80000, hostRegRead .bar0 (8 * k) 8 s = word 0)) ∧
  (∀ (s : State) (off size : Nat), s.power.phase ≠ .served → hostRegRead .config off size s = .retryStatus ∧ hostRegRead .bar0 off size s = .ur) ∧
  (∀ s : State, bar0Open s = true →
    (∀ v : W32, exec (.registerWrite ⟨.bar0, 0x20008, 4, v.setWidth 64⟩) s = exec (.paceTargetWrite v) s) ∧
    (∀ (off : BitVec 27) (v : W64), 0x600000 ≤ off.toNat → off.toNat < 0x608000 → off.toNat % 8 = 0 →
      exec (.registerWrite ⟨.bar0, off, 8, v⟩) s = .next (countIgnored off.toNat s)) ∧
    (∀ (off : BitVec 27) (v : W64), 0x90000 ≤ off.toNat → off.toNat < 0x98000 → off.toNat % 8 = 0 →
      exec (.registerWrite ⟨.bar0, off, 8, v⟩) s = .next s) ∧
    (∀ v : W64, exec (.registerWrite ⟨.bar0, 0x40018, 8, v⟩) s = .next { s with host := { s.host with bindCred := v } }) ∧
    (∀ v : W64, exec (.registerWrite ⟨.bar0, 0x40019, 1, v⟩) s = .next { s with host := { s.host with
      bindCred := (s.host.bindCred &&& 0xFFFFFFFFFFFF00FF) ||| ((v &&& 0xFF) <<< 8) } }) ∧
    (∀ v : W32, exec (.registerWrite ⟨.bar0, 0xBC000, 4, v.setWidth 64⟩) s = .next { s with sb := { s.sb with hostDb := s.sb.hostDb &&& ~~~v } }) ∧
    (exec (.registerWrite ⟨.bar0, 0xB8200, 4, 1⟩) s = .next { s with sb := { s.sb with lock := true } }) ∧
    (∀ (p : Fin 16) (v : W64), (dwGet s p.val).busy = true → exec (.registerWrite ⟨.bar0, BitVec.ofNat 27 (0xA0000 + 0x100 * p.val), 8, v⟩) s =
      .next (countIgnored (0xA0000 + 0x100 * p.val) s)) ∧
    (∀ (p : Fin 16) (v : W64), (dwGet s p.val).busy = false → ∃ t, exec (.registerWrite ⟨.bar0, BitVec.ofNat 27 (0xA0000 + 0x100 * p.val), 8, v⟩) s = .next t ∧
      (dwGet t p.val).op = v.extractLsb' 61 2 ∧ (dwGet t p.val).sub = v.extractLsb' 32 8 ∧ (dwGet t p.val).index = v.extractLsb' 16 16 ∧
      (dwGet t p.val).length = v.extractLsb' 0 8 ∧ (dwGet t p.val).busy = v.getLsbD 63 ∧
      (v.getLsbD 63 = true → (trestleGet t 1).doorbell.getLsbD (1 + p.val) = true))) ∧
  (∀ s : State, s.host.phyUp = true → s.power.phase = .served →
    (∀ v : W64, exec (.registerWrite ⟨.config, 0x3C, 1, v⟩) s = .next { s with host := { s.host with intLine := v.setWidth 8 } }) ∧
    (∀ v : W64, exec (.registerWrite ⟨.config, 0x3F2, 2, v⟩) s = .next { s with host := { s.host with hpVector := v.setWidth 11 } })) ∧
  (∀ (s : State) (r : UsdoReq) rest, canUp s = true → s.milell.usdo = r :: rest → (trestleGet s 1).last = none →
    (trestleGet s 1).doorbell.getLsbD 0 = true →
    let t := trestleSet 1 { trestleGet s 1 with doorbell := dropBit (trestleGet s 1).doorbell 0, last := some (.bit 0) } s
    (r.value = none → exec (.dictRead .field) s = .next (core1Done 0 (serveField r t)) ∧ exec (.dictWrite .field) s = .next s) ∧
    (r.value ≠ none → exec (.dictWrite .field) s = .next (core1Done 0 (serveField r t)) ∧ exec (.dictRead .field) s = .next s)) ∧
  (∀ (p : DPath) (op idx sub : Nat) (v : List Byte) (s : State),
    let subs := (dictSubs s idx).filter (fun e => if p.field then e.2.f else e.2.h)
    (subs = [] → dictAccess p op idx sub v s = .error .noEntry) ∧
    (subs ≠ [] → (∀ e ∈ subs, e.1 ≠ sub) → dictAccess p op idx sub v s = .error .noSub) ∧
    (∀ e, subs.find? (fun e => e.1 = sub) = some e →
      (1 < op → dictAccess p op idx sub v s = .error .badOp) ∧
      (p.priv = true →
        (e.2.acc ≠ .wo → dictAccess p 0 idx sub v s = .ok (leBytes e.2.size (dictRead idx sub s), s)) ∧
        (e.2.acc = .wo → dictAccess p 0 idx sub v s = .error .writeOnly) ∧
        (e.2.acc = .const ∨ e.2.acc = .ro → dictAccess p 1 idx sub v s = .error .readOnly) ∧
        (e.2.acc ≠ .const → e.2.acc ≠ .ro →
          (v.length ≠ e.2.size → dictAccess p 1 idx sub v s = .error .length) ∧
          (v.length = e.2.size → e.2.hi < leNat v → dictAccess p 1 idx sub v s = .error .high) ∧
          (v.length = e.2.size → leNat v ≤ e.2.hi → leNat v < e.2.lo → dictAccess p 1 idx sub v s = .error .low) ∧
          (v.length = e.2.size → leNat v ≤ e.2.hi → e.2.lo ≤ leNat v → dictBadValue idx sub (leNat v) = none →
            (s.faults.safe = true → dictAccess p 1 idx sub v s = .error .state) ∧
            (s.faults.safe = false → dictForbidden idx sub (leNat v) s = false →
              dictAccess p 1 idx sub v s = .ok ([], dictApply idx sub (leNat v) s)))))))

/-- R317: only sources of a domain that is ON are sampled. -/
def Obligations.OnlyPoweredSourcesAreSampled : Prop :=
  ∀ (s : State) (n : Fin 2944) (d : Nat), srcDomain n.val = some d →
    ((pdGet s d).st = .on → sampled s n.val = true) ∧
    ((pdGet s d).st ≠ .on →
      sampled s n.val = false ∧ live s n.val = false ∧
      ∀ (c : FaultClass) (what : PairEvent) (detail : W32), ∃ t, exec (.faultLatch n c what detail) s = .next t ∧
        t = { s with faults := { s.faults with sources := t.faults.sources } } ∧ live t n.val = false ∧
        ∀ m, (srcGet t m).ce = (srcGet s m).ce ∧ (srcGet t m).uc = (srcGet s m).uc ∧ (srcGet t m).ft = (srcGet s m).ft ∧
          (srcGet t m).wire = (srcGet s m).wire ∧ (srcGet t m).count = (srcGet s m).count ∧ (srcGet t m).detail = (srcGet s m).detail) ∧
    (∀ x : Pd, x.st ≠ .on → sampled (pdSet d x s) n.val = false ∧ ∀ m, srcGet (pdSet d x s) m = srcGet s m)

/-- R325: status bits clear only while LIVE reads 0, and undo no reaction. -/
def Obligations.StatusBitsClearWhileNotLive : Prop :=
  (∀ (n : Fin 2944) (ones : Byte) (s : State), alive s = true → s.faults.safe = false → live s n = false →
    ∃ t, exec (.faultClear n ones) s = .next t ∧
      srcGet t n = { srcGet s n with
        ce := (srcGet s n).ce && !ones.getLsbD 0, uc := (srcGet s n).uc && !ones.getLsbD 1
        ft := (srcGet s n).ft && !ones.getLsbD 2, wire := (srcGet s n).wire && !ones.getLsbD 7 } ∧
      (∀ m, m ≠ n.val → srcGet t m = srcGet s m) ∧ t.faults = { s.faults with sources := t.faults.sources } ∧
      t = { s with faults := t.faults, milell := t.milell, obs := t.obs, out := t.out }) ∧
  (∀ (n : Fin 2944) (ones : Byte) (s : State), alive s = true → s.faults.safe = false → live s n = true →
    exec (.faultClear n ones) s = .next (count 2688 s) ∧ ∀ m, srcGet (count 2688 s) m = srcGet s m)

/-- R336: a context is admitted before it can be created. -/
def Obligations.ContextsAreAdmittedBeforeCreation : Prop :=
  (∀ (s : State) (c : Ctx) (v : W64), writable s = true →
    ((ctxGet s c.val).st = .free → ∃ t, exec (.ctxAdmitWrite c v) s = .next t ∧
      ctxGet t c.val = { ctxGet s c.val with admitted := v.getLsbD 63, hostmem := v.getLsbD 62 } ∧
      (∀ m, m ≠ c.val → ctxGet t m = ctxGet s m) ∧ t = { s with sec := { s.sec with contexts := t.sec.contexts } }) ∧
    ((ctxGet s c.val).st ≠ .free → exec (.ctxAdmitWrite c v) s = .next (countIgnored (0x98000 + 8 * c.val) s) ∧
      (countIgnored (0x98000 + 8 * c.val) s).sec = s.sec)) ∧
  (∀ (s t : State) (session : SessionId) (n : W16) (host : Bool) (rsv : BitVec 47) (cred : W64), (ctxGet s n.toNat).admitted = false →
    exec (.ctxCreate session n host rsv cred) s = .next t → ctxGet t n.toNat = ctxGet s n.toNat)

/-- Every step keeps memory canonical and leaves the queue to its order. -/
def Obligations.StepsKeepMemoryAndQueue : Prop :=
  ∀ s t : State, step s = .next t →
    (MemoryCanonical s → MemoryCanonical t) ∧ t.pending = s.pending.tail ∧ s.ticks ≤ t.ticks

/-- The lifecycle and the minimum version only move forward. -/
def Obligations.LifecycleOnlyMovesForward : Prop :=
  ∀ s t : State, step s = .next t →
    (t.sec.lifecycle = s.sec.lifecycle ∨ t.sec.lifecycle = .retired) ∧ s.sec.minSvn.toNat ≤ t.sec.minSvn.toNat

/-- Pace, trim, training, time, journal and window commands complete under the conditions their rules give. -/
def Obligations.PaceViaductAndJournalComplete : Prop :=
  (∀ s : State, alive s = true → s.faults.safe = false →
    (∀ counts : List W16, s.pace.nextUpdate ≤ s.ticks → ∃ t, exec (.paceUpdate counts) s = .next t ∧
      t.pace.stagePs = stagePsOf (slowestCount counts) s.freeCtr ∧ t.pace.valid = true ∧ t.pace.updSeq = s.pace.updSeq + 1 ∧
      t.pace.nextUpdate = s.pace.nextUpdate + 100) ∧
    (∀ v : W32, ∃ t, exec (.paceTargetWrite v) s = .next t ∧ t.pace.trimEn = v.getLsbD 31 ∧ t.pace.targetPs = clampTarget (fld v 0 16)) ∧
    (s.pace.trimEn = true → s.pace.nextTrim ≤ s.ticks → s.pace.request = none → s.pace.targetPs.toNat + 4 < s.pace.stagePs.toNat →
      s.pace.vcoreMv.toNat < 800 → ∃ t, exec .trimInterval s = .next t ∧
        t.pace.request = some (s.pace.vcoreMv + 5, after 20000 s) ∧ t.pace.nextTrim = s.pace.nextTrim + 10000 ∧
        t.out = s.out ++ [.pmWrite (s.pace.vcoreMv + 5)]) ∧
    (∀ mv d, s.pace.request = some (mv, d) → s.ticks < d →
      exec .trimAck s = .next { s with pace := { s.pace with vcoreMv := mv, request := none, pmRefused := false } } ∧
      exec .trimRefused s = .next { s with pace := { s.pace with request := none, pmRefused := true } }) ∧
    (∀ mv d, s.pace.request = some (mv, d) → d ≤ s.ticks →
      exec .trimTimeout s = .next (raise 2936 .uc s.pace.vcoreMv.toNat { s with pace := { s.pace with request := none } }))) ∧
  (∀ s : State, alive s = true → s.faults.safe = false →
    (∀ rev : Bool, s.viaduct.fastRetrain = none → s.viaduct.step = 1 → s.ticks < s.viaduct.stepDeadline → exec (.trainStepDone rev) s = .next (stepTo 2 s)) ∧
    (s.viaduct.step ≠ 0 → s.viaduct.stepDeadline ≤ s.ticks → exec .trainStepTimeout s = .next (abortTraining s)) ∧
    (∀ d, s.viaduct.restartAt = some d → d ≤ s.ticks →
      exec .trainRestart s = .next (startTraining { s with viaduct := { s.viaduct with restartAt := none } })) ∧
    (∀ (tag : W32) (ts : W64) (rt : Nat), s.viaduct.step = 4 → s.ticks < s.viaduct.stepDeadline → s.viaduct.samples.length < 63 → ∃ t,
      exec (.timeEchoReply tag ts rt) s = .next t ∧ t.viaduct.samples = s.viaduct.samples ++ [rt] ∧
        t.viaduct.time = s.viaduct.time ++ [.echo s.viaduct.nextTag s.tsNow]) ∧
    (∀ n p, s.viaduct.step = 5 → s.ticks < s.viaduct.stepDeadline → s.sec.kxStep = 1 → exec (.pairKxRecord (.share n p)) s =
      .next { s with viaduct := { s.viaduct with kx := s.viaduct.kx ++ [ownCert s] }, sec := { s.sec with kxStep := 2 } }) ∧
    (s.pair.nextSync ≤ s.ticks → s.viaduct.up = true → sends s = true → s.pair.roleB = false → ∃ t, exec .timeSyncInterval s = .next t ∧
      t.viaduct.time = s.viaduct.time ++ [.sync s.tsNow] ∧ t.pair.nextSync = s.pair.nextSync + 1000) ∧
    (∀ ts : W64, s.viaduct.up = true → s.pair.roleB = true → ∃ t, exec (.timeSync ts) s = .next t ∧
      t.pair = { s.pair with timeErr := timeError ts s }) ∧
    (s.pair.roleB = true → s.pair.nextSlew ≤ s.ticks → 70000 < s.pair.timeErr → exec .tsSlew s = .next { s with
      tsNow := s.tsNow + 1, pair := { s.pair with nextSlew := s.ticks + 100, timeErr := s.pair.timeErr - 70000 } }) ∧
    (∀ (tag : W32) (ts : W64), framesFlow s = true → ∃ t, exec (.timeEcho tag ts) s = .next t ∧
      t.viaduct = { s.viaduct with time := s.viaduct.time ++ [.echoReply tag ts] })) ∧
  (∀ s : State, linked s = true → sends s = true →
    (∀ (tag : W32) (joff : W64) (d : LineData), joff.toNat % 64 = 0 → joff.toNat + 64 ≤ regionLines s * 64 →
      (∀ j, (opGet s j).shadow = false) →
      ∃ t, exec (.journalWrite tag joff [d]) s = .next t ∧ t.viaduct.journal.getLast? = some (.jAck tag 0)) ∧
    (∀ (tag : W32) (st : Byte), s.pair.acks.find? (fun a => a.1 = tag) = some (tag, .other) → ∃ t, exec (.journalAck tag st) s = .next t ∧
      t = createDone tag (ackDone .other st (ringDoorbell 6 0 { s with pair := { s.pair with acks := s.pair.acks.filter (fun a => a.1 ≠ tag) } }))) ∧
    (∀ (tag : W32) (ctx : Ctx) (chunk : W32) (part : Fin 16) (units : List LineData), units.length = 64 → s.pair.imageParts = [] →
      ∃ t, exec (.journalImage tag ctx chunk part units) s = .next t ∧ t.pair.imageParts = [(ctx.val, chunk.toNat, part.val, units)] ∧
        t.viaduct.journal = s.viaduct.journal ++ [.jAck tag 0]) ∧
    (∀ e : CursorEntry, exec (.cursorUpdate [e]) s = .next (cursorEntry e (ringDoorbell 6 0 s))) ∧
    (s.pair.nextCursor ≤ s.ticks → s.pair.cursorDirty = [] → exec .cursorInterval s =
      .next { s with pair := { s.pair with nextCursor := s.ticks + s.pair.cursorTicks.toNat, cursorDirty := [] } }) ∧
    (∀ (tag : W32) (win : Byte) (ctx : Ctx) (off : W64) (n : W16) w, windowIn win ctx off n.toNat false s = some w →
      let r := windowLines ctx ((w.base.toNat * 2097152 + off.toNat) / 64 * 64) n.toNat s
      exec (.windowRead tag win ctx off n) s = .next (replyWindow (.wReadData tag (if r.2.1 then 2 else 0) r.1) r.2.2)) ∧
    (∀ (tag : W32) (win : Byte) (ctx : Ctx) (off be1 be2 : W64) (d : LineData) w, windowIn win ctx off 1 true s = some w →
      let t := storeFor ctx.val ((w.base.toNat * 2097152 + off.toNat) / 64 * 64) (.window ctx) d (be1 &&& be2) false s
      t.coh.posted.length = s.coh.posted.length →
      exec (.windowWrite tag win ctx off be1 be2 [d]) s = .next (replyWindow (.wWriteAck tag 0) t)) ∧
    (∀ (tag : W32) (ls : List LineData) r i d p, s.pair.winReqs = [(tag, .read r i d p)] → exec (.windowReadData tag 0 ls) s =
      .next (runMod r (fun x => { x with winData := x.winData ++ [(d, p, ls.flatMap lineBytes)] }) { s with pair := { s.pair with winReqs := [] } })) ∧
    (∀ (tag : W32) (st : Byte) r, s.pair.winReqs = [(tag, .write r)] →
      exec (.windowWriteAck tag st) s = .next { s with pair := { s.pair with winReqs := [] } }))
end

