-- ==== Sys2Proof/Laws/Table.lean ====
section
/-!
SUPPORT. Laws/Table.lean: a sparse table read after a write, and the canonical form kept (assumption 3).
-/
namespace Sys2Proof.Machine

variable {α : Type}

theorem tget_tput (d : Nat → α) (t : Tbl α) (k : Nat) (v : α) (h : ∀ e ∈ t, e.1 ≠ k) : tget d (tput t k v) k = v := by
  induction t with
  | nil => simp [tput, tget]
  | cons e t ih =>
    have h1 := h e (by simp)
    simp only [tput]
    split
    · simp [tget]
    · simp only [tget, h1, if_false]
      exact ih (fun e he => h e (by simp [he]))

theorem tget_tput_other (d : Nat → α) (t : Tbl α) {k k' : Nat} (v : α) (h : k' ≠ k) :
    tget d (tput t k v) k' = tget d t k' := by
  induction t with
  | nil => simp [tput, tget, Ne.symm h]
  | cons e t ih =>
    simp only [tput]
    split
    · simp [tget, Ne.symm h]
    · simp only [tget, ih]

theorem tget_filter_other (d : Nat → α) (t : Tbl α) {k k' : Nat} (h : k' ≠ k) :
    tget d (t.filter (fun e => e.1 ≠ k)) k' = tget d t k' := by
  induction t with
  | nil => rfl
  | cons e t ih =>
    by_cases he : e.1 = k
    · simp only [List.filter, he, ne_eq, not_true, decide_false, tget, ih]
      simp [Ne.symm h]
    · simp only [List.filter, he, ne_eq, not_false_iff, decide_true, tget, ih]

theorem tget_filter_self (d : Nat → α) (t : Tbl α) (k : Nat) : tget d (t.filter (fun e => e.1 ≠ k)) k = d k := by
  induction t with
  | nil => rfl
  | cons e t ih =>
    by_cases he : e.1 = k
    · simpa only [List.filter, he, ne_eq, not_true, decide_false] using ih
    · simpa only [List.filter, he, ne_eq, not_false_iff, decide_true, tget, if_false] using ih

theorem filter_tput (t : Tbl α) (k : Nat) (v : α) :
    (tput t k v).filter (fun e => e.1 ≠ k) = t.filter (fun e => e.1 ≠ k) := by
  induction t with
  | nil => simp [tput]
  | cons e t ih =>
    simp only [tput]
    split
    · simp [List.filter]
    · simp only [List.filter, ih]

/-- A write leaves every other key alone. -/
theorem tget_tset_other [DecidableEq α] (d : Nat → α) (t : Tbl α) {k k' : Nat} (v : α) (h : k' ≠ k) :
    tget d (tset d t k v) k' = tget d t k' := by
  unfold tset
  split
  · exact tget_filter_other d t h
  · rw [tget_tput_other d _ v h, tget_filter_other d t h]

/-- A value written is read back, whatever the table. -/
@[simp] theorem tget_tset_self [DecidableEq α] (d : Nat → α) (t : Tbl α) (k : Nat) (v : α) :
    tget d (tset d t k v) k = v := by
  unfold tset
  split
  · rename_i h
    rw [tget_filter_self, h]
  · exact tget_tput d _ k v (by simp)

/-- Of two writes at one key the second counts, whatever the table. -/
@[simp] theorem tset_tset [DecidableEq α] (d : Nat → α) (t : Tbl α) (k : Nat) (v w : α) :
    tset d (tset d t k v) k w = tset d t k w := by
  have h : (tset d t k v).filter (fun e => e.1 ≠ k) = t.filter (fun e => e.1 ≠ k) := by
    unfold tset
    split
    · simp
    · rw [filter_tput]; simp
  unfold tset at *
  simp only [h]

/-- The tail of a canonical table is canonical. -/
theorem tblWf_tail [DecidableEq α] {d : Nat → α} {e : Nat × α} {t : Tbl α} (h : tblWf d (e :: t) = true) :
    tblWf d t = true := by
  cases t with
  | nil => rfl
  | cons a t => simp [tblWf] at h; exact h.2

/-- The head of a canonical table is not its key's default. -/
theorem tblWf_head [DecidableEq α] {d : Nat → α} {k : Nat} {v : α} {t : Tbl α} (h : tblWf d ((k, v) :: t) = true) :
    v ≠ d k := by
  cases t with
  | nil => simpa [tblWf] using h
  | cons a t => simp [tblWf] at h; exact h.1.2

/-- Keys rise from the head on. -/
theorem tblWf_lt [DecidableEq α] {d : Nat → α} {k : Nat} {v : α} {t : Tbl α} (h : tblWf d ((k, v) :: t) = true)
    {e : Nat × α} (he : e ∈ t) : k < e.1 := by
  induction t generalizing k v with
  | nil => cases he
  | cons a t ih =>
    have h1 : k < a.1 := by simp [tblWf] at h; exact h.1.1
    rcases List.mem_cons.1 he with rfl | he
    · exact h1
    · exact Nat.lt_trans h1 (ih (tblWf_tail h) he)

/-- A key below the head's is not listed in a canonical table. -/
theorem tget_below [DecidableEq α] {d : Nat → α} {t : Tbl α} {k : Nat} (hk : ∀ e ∈ t, k < e.1) : tget d t k = d k := by
  induction t with
  | nil => rfl
  | cons a t ih =>
    have h1 := hk a (by simp)
    simp only [tget, Nat.ne_of_gt h1, if_false]
    exact ih (fun e he => hk e (by simp [he]))

/-- What a canonical table needs of a new head. -/
theorem tblWf_cons [DecidableEq α] {d : Nat → α} {k : Nat} {v : α} {t : Tbl α} (hv : v ≠ d k)
    (ht : tblWf d t = true) (hk : ∀ e ∈ t, k < e.1) : tblWf d ((k, v) :: t) = true := by
  cases t with
  | nil => simp [tblWf, hv]
  | cons a t =>
    have := hk a (by simp)
    simp [tblWf, hv, this, ht]

/-- A table without the entries of one key is still canonical. -/
theorem tblWf_filter [DecidableEq α] {d : Nat → α} {t : Tbl α} (p : Nat × α → Bool) (h : tblWf d t = true) :
    tblWf d (t.filter p) = true := by
  induction t with
  | nil => rfl
  | cons e t ih =>
    have h1 := ih (tblWf_tail h)
    simp only [List.filter]
    split
    · exact tblWf_cons (tblWf_head h) h1 (fun a ha => tblWf_lt h (List.mem_filter.1 ha).1)
    · exact h1

theorem mem_tput {t : Tbl α} {k : Nat} {v : α} {e : Nat × α} (h : e ∈ tput t k v) : e = (k, v) ∨ e ∈ t := by
  induction t with
  | nil => simpa [tput] using h
  | cons a t ih =>
    simp only [tput] at h
    split at h
    · simpa using h
    · rcases List.mem_cons.1 h with rfl | h
      · exact .inr (by simp)
      · rcases ih h with h | h
        · exact .inl h
        · exact .inr (by simp [h])

theorem tblWf_tput [DecidableEq α] {d : Nat → α} {t : Tbl α} {k : Nat} {v : α} (hv : v ≠ d k) (hk : ∀ e ∈ t, e.1 ≠ k)
    (h : tblWf d t = true) : tblWf d (tput t k v) = true := by
  induction t with
  | nil => simp [tput, tblWf, hv]
  | cons a t ih =>
    simp only [tput]
    split
    · rename_i hlt
      exact tblWf_cons hv h (fun e he => by
        rcases List.mem_cons.1 he with rfl | he
        · exact hlt
        · exact Nat.lt_trans hlt (tblWf_lt h he))
    · rename_i hlt
      have hne := hk a (by simp)
      refine tblWf_cons (tblWf_head h) (ih (fun e he => hk e (by simp [he])) (tblWf_tail h)) (fun e he => ?_)
      rcases mem_tput he with rfl | h1
      · show a.1 < k
        omega
      · exact tblWf_lt h h1

/-- A write keeps the canonical form. -/
theorem tblWf_tset [DecidableEq α] (d : Nat → α) {t : Tbl α} (k : Nat) (v : α) (h : tblWf d t = true) :
    tblWf d (tset d t k v) = true := by
  unfold tset
  split
  · exact tblWf_filter _ h
  · rename_i hv
    exact tblWf_tput hv (by simp) (tblWf_filter _ h)

/-! ### Memory -/

/-- One byte written is the byte read. -/
theorem mget_mset_self (m : Mem) (a : Nat) (b : Byte) : mget (mset m a b) a = b :=
  tget_tset_self _ m a b

/-- One byte written leaves every other byte alone. -/
theorem mget_mset_other (m : Mem) {a a' : Nat} (b : Byte) (h : a' ≠ a) : mget (mset m a b) a' = mget m a' :=
  tget_tset_other _ m b h

/-- A byte written keeps the canonical form. -/
theorem wf_mset {m : Mem} (h : Memory.wf m = true) (a : Nat) (b : Byte) : Memory.wf (mset m a b) = true :=
  tblWf_tset _ a b h

/-- Bytes written keep the canonical form. -/
theorem wf_msetN {m : Mem} (h : Memory.wf m = true) (a : Nat) (l : List Byte) : Memory.wf (msetN m a l) = true := by
  induction l generalizing m a with
  | nil => exact h
  | cons b l ih => exact ih (wf_mset h a b) (a + 1)

/-- Bytes written leave every byte outside them alone. -/
theorem mget_msetN_other (m : Mem) (a : Nat) (l : List Byte) {x : Nat} (h : x < a ∨ a + l.length ≤ x) :
    mget (msetN m a l) x = mget m x := by
  induction l generalizing m a with
  | nil => rfl
  | cons b l ih =>
    simp only [msetN, List.length_cons] at *
    rw [ih _ _ (by omega), mget_mset_other _ _ (by omega)]

/-- Bytes written are the bytes read. -/
theorem mgetN_msetN (m : Mem) (a : Nat) (l : List Byte) :
    mgetN (msetN m a l) a l.length = l := by
  induction l generalizing m a with
  | nil => rfl
  | cons b l ih =>
    simp only [msetN, List.length_cons, mgetN]
    rw [ih, mget_msetN_other _ _ _ (by omega), mget_mset_self]

end Sys2Proof.Machine
end

