-- ==== Sys2Proof/Laws/State.lean ====
section
/-!
SUPPORT. Laws/State.lean: what each named update of State leaves alone, one lemma a field, and what it sets.
-/
namespace Sys2Proof.Machine

@[simp] theorem emit_pace (o : Output) (s : State) : (emit o s).pace = s.pace := rfl
@[simp] theorem emit_tsNow (o : Output) (s : State) : (emit o s).tsNow = s.tsNow := rfl
@[simp] theorem emit_trestle (o : Output) (s : State) : (emit o s).trestle = s.trestle := rfl
@[simp] theorem emit_piers (o : Output) (s : State) : (emit o s).piers = s.piers := rfl
@[simp] theorem emit_store (o : Output) (s : State) : (emit o s).store = s.store := rfl
@[simp] theorem emit_service (o : Output) (s : State) : (emit o s).service = s.service := rfl
@[simp] theorem emit_pair (o : Output) (s : State) : (emit o s).pair = s.pair := rfl
@[simp] theorem emit_viaduct (o : Output) (s : State) : (emit o s).viaduct = s.viaduct := rfl
@[simp] theorem emit_host (o : Output) (s : State) : (emit o s).host = s.host := rfl
@[simp] theorem emit_coh (o : Output) (s : State) : (emit o s).coh = s.coh := rfl
@[simp] theorem emit_xl (o : Output) (s : State) : (emit o s).xl = s.xl := rfl
@[simp] theorem emit_girth (o : Output) (s : State) : (emit o s).girth = s.girth := rfl
@[simp] theorem emit_deck (o : Output) (s : State) : (emit o s).deck = s.deck := rfl
@[simp] theorem emit_faults (o : Output) (s : State) : (emit o s).faults = s.faults := rfl
@[simp] theorem emit_sec (o : Output) (s : State) : (emit o s).sec = s.sec := rfl
@[simp] theorem emit_power (o : Output) (s : State) : (emit o s).power = s.power := rfl
@[simp] theorem emit_milell (o : Output) (s : State) : (emit o s).milell = s.milell := rfl
@[simp] theorem emit_sb (o : Output) (s : State) : (emit o s).sb = s.sb := rfl
@[simp] theorem emit_obs (o : Output) (s : State) : (emit o s).obs = s.obs := rfl
@[simp] theorem emit_ticks (o : Output) (s : State) : (emit o s).ticks = s.ticks := rfl
@[simp] theorem emit_freeCtr (o : Output) (s : State) : (emit o s).freeCtr = s.freeCtr := rfl
@[simp] theorem emit_pending (o : Output) (s : State) : (emit o s).pending = s.pending := rfl

@[simp] theorem countN_pace (k n : Nat) (s : State) : (countN k n s).pace = s.pace := rfl
@[simp] theorem countN_tsNow (k n : Nat) (s : State) : (countN k n s).tsNow = s.tsNow := rfl
@[simp] theorem countN_trestle (k n : Nat) (s : State) : (countN k n s).trestle = s.trestle := rfl
@[simp] theorem countN_piers (k n : Nat) (s : State) : (countN k n s).piers = s.piers := rfl
@[simp] theorem countN_store (k n : Nat) (s : State) : (countN k n s).store = s.store := rfl
@[simp] theorem countN_service (k n : Nat) (s : State) : (countN k n s).service = s.service := rfl
@[simp] theorem countN_pair (k n : Nat) (s : State) : (countN k n s).pair = s.pair := rfl
@[simp] theorem countN_viaduct (k n : Nat) (s : State) : (countN k n s).viaduct = s.viaduct := rfl
@[simp] theorem countN_host (k n : Nat) (s : State) : (countN k n s).host = s.host := rfl
@[simp] theorem countN_coh (k n : Nat) (s : State) : (countN k n s).coh = s.coh := rfl
@[simp] theorem countN_xl (k n : Nat) (s : State) : (countN k n s).xl = s.xl := rfl
@[simp] theorem countN_girth (k n : Nat) (s : State) : (countN k n s).girth = s.girth := rfl
@[simp] theorem countN_deck (k n : Nat) (s : State) : (countN k n s).deck = s.deck := rfl
@[simp] theorem countN_faults (k n : Nat) (s : State) : (countN k n s).faults = s.faults := rfl
@[simp] theorem countN_sec (k n : Nat) (s : State) : (countN k n s).sec = s.sec := rfl
@[simp] theorem countN_power (k n : Nat) (s : State) : (countN k n s).power = s.power := rfl
@[simp] theorem countN_milell (k n : Nat) (s : State) : (countN k n s).milell = s.milell := rfl
@[simp] theorem countN_sb (k n : Nat) (s : State) : (countN k n s).sb = s.sb := rfl
@[simp] theorem countN_ticks (k n : Nat) (s : State) : (countN k n s).ticks = s.ticks := rfl
@[simp] theorem countN_freeCtr (k n : Nat) (s : State) : (countN k n s).freeCtr = s.freeCtr := rfl
@[simp] theorem countN_out (k n : Nat) (s : State) : (countN k n s).out = s.out := rfl
@[simp] theorem countN_pending (k n : Nat) (s : State) : (countN k n s).pending = s.pending := rfl

@[simp] theorem count_pace (k : Nat) (s : State) : (count k s).pace = s.pace := rfl
@[simp] theorem count_tsNow (k : Nat) (s : State) : (count k s).tsNow = s.tsNow := rfl
@[simp] theorem count_trestle (k : Nat) (s : State) : (count k s).trestle = s.trestle := rfl
@[simp] theorem count_piers (k : Nat) (s : State) : (count k s).piers = s.piers := rfl
@[simp] theorem count_store (k : Nat) (s : State) : (count k s).store = s.store := rfl
@[simp] theorem count_service (k : Nat) (s : State) : (count k s).service = s.service := rfl
@[simp] theorem count_pair (k : Nat) (s : State) : (count k s).pair = s.pair := rfl
@[simp] theorem count_viaduct (k : Nat) (s : State) : (count k s).viaduct = s.viaduct := rfl
@[simp] theorem count_host (k : Nat) (s : State) : (count k s).host = s.host := rfl
@[simp] theorem count_coh (k : Nat) (s : State) : (count k s).coh = s.coh := rfl
@[simp] theorem count_xl (k : Nat) (s : State) : (count k s).xl = s.xl := rfl
@[simp] theorem count_girth (k : Nat) (s : State) : (count k s).girth = s.girth := rfl
@[simp] theorem count_deck (k : Nat) (s : State) : (count k s).deck = s.deck := rfl
@[simp] theorem count_faults (k : Nat) (s : State) : (count k s).faults = s.faults := rfl
@[simp] theorem count_sec (k : Nat) (s : State) : (count k s).sec = s.sec := rfl
@[simp] theorem count_power (k : Nat) (s : State) : (count k s).power = s.power := rfl
@[simp] theorem count_milell (k : Nat) (s : State) : (count k s).milell = s.milell := rfl
@[simp] theorem count_sb (k : Nat) (s : State) : (count k s).sb = s.sb := rfl
@[simp] theorem count_ticks (k : Nat) (s : State) : (count k s).ticks = s.ticks := rfl
@[simp] theorem count_freeCtr (k : Nat) (s : State) : (count k s).freeCtr = s.freeCtr := rfl
@[simp] theorem count_out (k : Nat) (s : State) : (count k s).out = s.out := rfl
@[simp] theorem count_pending (k : Nat) (s : State) : (count k s).pending = s.pending := rfl

@[simp] theorem msixSet_pace (v : Nat) (e : MsixEntry) (s : State) : (msixSet v e s).pace = s.pace := rfl
@[simp] theorem msixSet_tsNow (v : Nat) (e : MsixEntry) (s : State) : (msixSet v e s).tsNow = s.tsNow := rfl
@[simp] theorem msixSet_trestle (v : Nat) (e : MsixEntry) (s : State) : (msixSet v e s).trestle = s.trestle := rfl
@[simp] theorem msixSet_piers (v : Nat) (e : MsixEntry) (s : State) : (msixSet v e s).piers = s.piers := rfl
@[simp] theorem msixSet_store (v : Nat) (e : MsixEntry) (s : State) : (msixSet v e s).store = s.store := rfl
@[simp] theorem msixSet_service (v : Nat) (e : MsixEntry) (s : State) : (msixSet v e s).service = s.service := rfl
@[simp] theorem msixSet_pair (v : Nat) (e : MsixEntry) (s : State) : (msixSet v e s).pair = s.pair := rfl
@[simp] theorem msixSet_viaduct (v : Nat) (e : MsixEntry) (s : State) : (msixSet v e s).viaduct = s.viaduct := rfl
@[simp] theorem msixSet_coh (v : Nat) (e : MsixEntry) (s : State) : (msixSet v e s).coh = s.coh := rfl
@[simp] theorem msixSet_xl (v : Nat) (e : MsixEntry) (s : State) : (msixSet v e s).xl = s.xl := rfl
@[simp] theorem msixSet_girth (v : Nat) (e : MsixEntry) (s : State) : (msixSet v e s).girth = s.girth := rfl
@[simp] theorem msixSet_deck (v : Nat) (e : MsixEntry) (s : State) : (msixSet v e s).deck = s.deck := rfl
@[simp] theorem msixSet_faults (v : Nat) (e : MsixEntry) (s : State) : (msixSet v e s).faults = s.faults := rfl
@[simp] theorem msixSet_sec (v : Nat) (e : MsixEntry) (s : State) : (msixSet v e s).sec = s.sec := rfl
@[simp] theorem msixSet_power (v : Nat) (e : MsixEntry) (s : State) : (msixSet v e s).power = s.power := rfl
@[simp] theorem msixSet_milell (v : Nat) (e : MsixEntry) (s : State) : (msixSet v e s).milell = s.milell := rfl
@[simp] theorem msixSet_sb (v : Nat) (e : MsixEntry) (s : State) : (msixSet v e s).sb = s.sb := rfl
@[simp] theorem msixSet_obs (v : Nat) (e : MsixEntry) (s : State) : (msixSet v e s).obs = s.obs := rfl
@[simp] theorem msixSet_ticks (v : Nat) (e : MsixEntry) (s : State) : (msixSet v e s).ticks = s.ticks := rfl
@[simp] theorem msixSet_freeCtr (v : Nat) (e : MsixEntry) (s : State) : (msixSet v e s).freeCtr = s.freeCtr := rfl
@[simp] theorem msixSet_out (v : Nat) (e : MsixEntry) (s : State) : (msixSet v e s).out = s.out := rfl
@[simp] theorem msixSet_pending (v : Nat) (e : MsixEntry) (s : State) : (msixSet v e s).pending = s.pending := rfl

@[simp] theorem trestleSet_pace (c : Nat) (t : Trestle) (s : State) : (trestleSet c t s).pace = s.pace := rfl
@[simp] theorem trestleSet_tsNow (c : Nat) (t : Trestle) (s : State) : (trestleSet c t s).tsNow = s.tsNow := rfl
@[simp] theorem trestleSet_piers (c : Nat) (t : Trestle) (s : State) : (trestleSet c t s).piers = s.piers := rfl
@[simp] theorem trestleSet_store (c : Nat) (t : Trestle) (s : State) : (trestleSet c t s).store = s.store := rfl
@[simp] theorem trestleSet_service (c : Nat) (t : Trestle) (s : State) : (trestleSet c t s).service = s.service := rfl
@[simp] theorem trestleSet_pair (c : Nat) (t : Trestle) (s : State) : (trestleSet c t s).pair = s.pair := rfl
@[simp] theorem trestleSet_viaduct (c : Nat) (t : Trestle) (s : State) : (trestleSet c t s).viaduct = s.viaduct := rfl
@[simp] theorem trestleSet_host (c : Nat) (t : Trestle) (s : State) : (trestleSet c t s).host = s.host := rfl
@[simp] theorem trestleSet_coh (c : Nat) (t : Trestle) (s : State) : (trestleSet c t s).coh = s.coh := rfl
@[simp] theorem trestleSet_xl (c : Nat) (t : Trestle) (s : State) : (trestleSet c t s).xl = s.xl := rfl
@[simp] theorem trestleSet_girth (c : Nat) (t : Trestle) (s : State) : (trestleSet c t s).girth = s.girth := rfl
@[simp] theorem trestleSet_deck (c : Nat) (t : Trestle) (s : State) : (trestleSet c t s).deck = s.deck := rfl
@[simp] theorem trestleSet_faults (c : Nat) (t : Trestle) (s : State) : (trestleSet c t s).faults = s.faults := rfl
@[simp] theorem trestleSet_sec (c : Nat) (t : Trestle) (s : State) : (trestleSet c t s).sec = s.sec := rfl
@[simp] theorem trestleSet_power (c : Nat) (t : Trestle) (s : State) : (trestleSet c t s).power = s.power := rfl
@[simp] theorem trestleSet_milell (c : Nat) (t : Trestle) (s : State) : (trestleSet c t s).milell = s.milell := rfl
@[simp] theorem trestleSet_sb (c : Nat) (t : Trestle) (s : State) : (trestleSet c t s).sb = s.sb := rfl
@[simp] theorem trestleSet_obs (c : Nat) (t : Trestle) (s : State) : (trestleSet c t s).obs = s.obs := rfl
@[simp] theorem trestleSet_ticks (c : Nat) (t : Trestle) (s : State) : (trestleSet c t s).ticks = s.ticks := rfl
@[simp] theorem trestleSet_freeCtr (c : Nat) (t : Trestle) (s : State) : (trestleSet c t s).freeCtr = s.freeCtr := rfl
@[simp] theorem trestleSet_out (c : Nat) (t : Trestle) (s : State) : (trestleSet c t s).out = s.out := rfl
@[simp] theorem trestleSet_pending (c : Nat) (t : Trestle) (s : State) : (trestleSet c t s).pending = s.pending := rfl

@[simp] theorem ringDoorbell_pace (c b : Nat) (s : State) : (ringDoorbell c b s).pace = s.pace := rfl
@[simp] theorem ringDoorbell_tsNow (c b : Nat) (s : State) : (ringDoorbell c b s).tsNow = s.tsNow := rfl
@[simp] theorem ringDoorbell_piers (c b : Nat) (s : State) : (ringDoorbell c b s).piers = s.piers := rfl
@[simp] theorem ringDoorbell_store (c b : Nat) (s : State) : (ringDoorbell c b s).store = s.store := rfl
@[simp] theorem ringDoorbell_service (c b : Nat) (s : State) : (ringDoorbell c b s).service = s.service := rfl
@[simp] theorem ringDoorbell_pair (c b : Nat) (s : State) : (ringDoorbell c b s).pair = s.pair := rfl
@[simp] theorem ringDoorbell_viaduct (c b : Nat) (s : State) : (ringDoorbell c b s).viaduct = s.viaduct := rfl
@[simp] theorem ringDoorbell_host (c b : Nat) (s : State) : (ringDoorbell c b s).host = s.host := rfl
@[simp] theorem ringDoorbell_coh (c b : Nat) (s : State) : (ringDoorbell c b s).coh = s.coh := rfl
@[simp] theorem ringDoorbell_xl (c b : Nat) (s : State) : (ringDoorbell c b s).xl = s.xl := rfl
@[simp] theorem ringDoorbell_girth (c b : Nat) (s : State) : (ringDoorbell c b s).girth = s.girth := rfl
@[simp] theorem ringDoorbell_deck (c b : Nat) (s : State) : (ringDoorbell c b s).deck = s.deck := rfl
@[simp] theorem ringDoorbell_faults (c b : Nat) (s : State) : (ringDoorbell c b s).faults = s.faults := rfl
@[simp] theorem ringDoorbell_sec (c b : Nat) (s : State) : (ringDoorbell c b s).sec = s.sec := rfl
@[simp] theorem ringDoorbell_power (c b : Nat) (s : State) : (ringDoorbell c b s).power = s.power := rfl
@[simp] theorem ringDoorbell_milell (c b : Nat) (s : State) : (ringDoorbell c b s).milell = s.milell := rfl
@[simp] theorem ringDoorbell_sb (c b : Nat) (s : State) : (ringDoorbell c b s).sb = s.sb := rfl
@[simp] theorem ringDoorbell_obs (c b : Nat) (s : State) : (ringDoorbell c b s).obs = s.obs := rfl
@[simp] theorem ringDoorbell_ticks (c b : Nat) (s : State) : (ringDoorbell c b s).ticks = s.ticks := rfl
@[simp] theorem ringDoorbell_freeCtr (c b : Nat) (s : State) : (ringDoorbell c b s).freeCtr = s.freeCtr := rfl
@[simp] theorem ringDoorbell_out (c b : Nat) (s : State) : (ringDoorbell c b s).out = s.out := rfl
@[simp] theorem ringDoorbell_pending (c b : Nat) (s : State) : (ringDoorbell c b s).pending = s.pending := rfl

@[simp] theorem srcSet_pace (n : Nat) (x : FaultSource) (s : State) : (srcSet n x s).pace = s.pace := rfl
@[simp] theorem srcSet_tsNow (n : Nat) (x : FaultSource) (s : State) : (srcSet n x s).tsNow = s.tsNow := rfl
@[simp] theorem srcSet_trestle (n : Nat) (x : FaultSource) (s : State) : (srcSet n x s).trestle = s.trestle := rfl
@[simp] theorem srcSet_piers (n : Nat) (x : FaultSource) (s : State) : (srcSet n x s).piers = s.piers := rfl
@[simp] theorem srcSet_store (n : Nat) (x : FaultSource) (s : State) : (srcSet n x s).store = s.store := rfl
@[simp] theorem srcSet_service (n : Nat) (x : FaultSource) (s : State) : (srcSet n x s).service = s.service := rfl
@[simp] theorem srcSet_pair (n : Nat) (x : FaultSource) (s : State) : (srcSet n x s).pair = s.pair := rfl
@[simp] theorem srcSet_viaduct (n : Nat) (x : FaultSource) (s : State) : (srcSet n x s).viaduct = s.viaduct := rfl
@[simp] theorem srcSet_host (n : Nat) (x : FaultSource) (s : State) : (srcSet n x s).host = s.host := rfl
@[simp] theorem srcSet_coh (n : Nat) (x : FaultSource) (s : State) : (srcSet n x s).coh = s.coh := rfl
@[simp] theorem srcSet_xl (n : Nat) (x : FaultSource) (s : State) : (srcSet n x s).xl = s.xl := rfl
@[simp] theorem srcSet_girth (n : Nat) (x : FaultSource) (s : State) : (srcSet n x s).girth = s.girth := rfl
@[simp] theorem srcSet_deck (n : Nat) (x : FaultSource) (s : State) : (srcSet n x s).deck = s.deck := rfl
@[simp] theorem srcSet_sec (n : Nat) (x : FaultSource) (s : State) : (srcSet n x s).sec = s.sec := rfl
@[simp] theorem srcSet_power (n : Nat) (x : FaultSource) (s : State) : (srcSet n x s).power = s.power := rfl
@[simp] theorem srcSet_milell (n : Nat) (x : FaultSource) (s : State) : (srcSet n x s).milell = s.milell := rfl
@[simp] theorem srcSet_sb (n : Nat) (x : FaultSource) (s : State) : (srcSet n x s).sb = s.sb := rfl
@[simp] theorem srcSet_obs (n : Nat) (x : FaultSource) (s : State) : (srcSet n x s).obs = s.obs := rfl
@[simp] theorem srcSet_ticks (n : Nat) (x : FaultSource) (s : State) : (srcSet n x s).ticks = s.ticks := rfl
@[simp] theorem srcSet_freeCtr (n : Nat) (x : FaultSource) (s : State) : (srcSet n x s).freeCtr = s.freeCtr := rfl
@[simp] theorem srcSet_out (n : Nat) (x : FaultSource) (s : State) : (srcSet n x s).out = s.out := rfl
@[simp] theorem srcSet_pending (n : Nat) (x : FaultSource) (s : State) : (srcSet n x s).pending = s.pending := rfl

@[simp] theorem pdPut_pace (d : Nat) (p : Pd) (s : State) : (pdPut d p s).pace = s.pace := rfl
@[simp] theorem pdPut_tsNow (d : Nat) (p : Pd) (s : State) : (pdPut d p s).tsNow = s.tsNow := rfl
@[simp] theorem pdPut_trestle (d : Nat) (p : Pd) (s : State) : (pdPut d p s).trestle = s.trestle := rfl
@[simp] theorem pdPut_piers (d : Nat) (p : Pd) (s : State) : (pdPut d p s).piers = s.piers := rfl
@[simp] theorem pdPut_store (d : Nat) (p : Pd) (s : State) : (pdPut d p s).store = s.store := rfl
@[simp] theorem pdPut_service (d : Nat) (p : Pd) (s : State) : (pdPut d p s).service = s.service := rfl
@[simp] theorem pdPut_pair (d : Nat) (p : Pd) (s : State) : (pdPut d p s).pair = s.pair := rfl
@[simp] theorem pdPut_viaduct (d : Nat) (p : Pd) (s : State) : (pdPut d p s).viaduct = s.viaduct := rfl
@[simp] theorem pdPut_host (d : Nat) (p : Pd) (s : State) : (pdPut d p s).host = s.host := rfl
@[simp] theorem pdPut_coh (d : Nat) (p : Pd) (s : State) : (pdPut d p s).coh = s.coh := rfl
@[simp] theorem pdPut_xl (d : Nat) (p : Pd) (s : State) : (pdPut d p s).xl = s.xl := rfl
@[simp] theorem pdPut_girth (d : Nat) (p : Pd) (s : State) : (pdPut d p s).girth = s.girth := rfl
@[simp] theorem pdPut_faults (d : Nat) (p : Pd) (s : State) : (pdPut d p s).faults = s.faults := rfl
@[simp] theorem pdPut_sec (d : Nat) (p : Pd) (s : State) : (pdPut d p s).sec = s.sec := rfl
@[simp] theorem pdPut_power (d : Nat) (p : Pd) (s : State) : (pdPut d p s).power = s.power := rfl
@[simp] theorem pdPut_milell (d : Nat) (p : Pd) (s : State) : (pdPut d p s).milell = s.milell := rfl
@[simp] theorem pdPut_sb (d : Nat) (p : Pd) (s : State) : (pdPut d p s).sb = s.sb := rfl
@[simp] theorem pdPut_obs (d : Nat) (p : Pd) (s : State) : (pdPut d p s).obs = s.obs := rfl
@[simp] theorem pdPut_ticks (d : Nat) (p : Pd) (s : State) : (pdPut d p s).ticks = s.ticks := rfl
@[simp] theorem pdPut_freeCtr (d : Nat) (p : Pd) (s : State) : (pdPut d p s).freeCtr = s.freeCtr := rfl
@[simp] theorem pdPut_out (d : Nat) (p : Pd) (s : State) : (pdPut d p s).out = s.out := rfl
@[simp] theorem pdPut_pending (d : Nat) (p : Pd) (s : State) : (pdPut d p s).pending = s.pending := rfl

@[simp] theorem portSet_pace (n : Nat) (p : GirthPort) (s : State) : (portSet n p s).pace = s.pace := rfl
@[simp] theorem portSet_tsNow (n : Nat) (p : GirthPort) (s : State) : (portSet n p s).tsNow = s.tsNow := rfl
@[simp] theorem portSet_trestle (n : Nat) (p : GirthPort) (s : State) : (portSet n p s).trestle = s.trestle := rfl
@[simp] theorem portSet_piers (n : Nat) (p : GirthPort) (s : State) : (portSet n p s).piers = s.piers := rfl
@[simp] theorem portSet_store (n : Nat) (p : GirthPort) (s : State) : (portSet n p s).store = s.store := rfl
@[simp] theorem portSet_service (n : Nat) (p : GirthPort) (s : State) : (portSet n p s).service = s.service := rfl
@[simp] theorem portSet_pair (n : Nat) (p : GirthPort) (s : State) : (portSet n p s).pair = s.pair := rfl
@[simp] theorem portSet_viaduct (n : Nat) (p : GirthPort) (s : State) : (portSet n p s).viaduct = s.viaduct := rfl
@[simp] theorem portSet_host (n : Nat) (p : GirthPort) (s : State) : (portSet n p s).host = s.host := rfl
@[simp] theorem portSet_coh (n : Nat) (p : GirthPort) (s : State) : (portSet n p s).coh = s.coh := rfl
@[simp] theorem portSet_xl (n : Nat) (p : GirthPort) (s : State) : (portSet n p s).xl = s.xl := rfl
@[simp] theorem portSet_deck (n : Nat) (p : GirthPort) (s : State) : (portSet n p s).deck = s.deck := rfl
@[simp] theorem portSet_faults (n : Nat) (p : GirthPort) (s : State) : (portSet n p s).faults = s.faults := rfl
@[simp] theorem portSet_sec (n : Nat) (p : GirthPort) (s : State) : (portSet n p s).sec = s.sec := rfl
@[simp] theorem portSet_power (n : Nat) (p : GirthPort) (s : State) : (portSet n p s).power = s.power := rfl
@[simp] theorem portSet_milell (n : Nat) (p : GirthPort) (s : State) : (portSet n p s).milell = s.milell := rfl
@[simp] theorem portSet_sb (n : Nat) (p : GirthPort) (s : State) : (portSet n p s).sb = s.sb := rfl
@[simp] theorem portSet_obs (n : Nat) (p : GirthPort) (s : State) : (portSet n p s).obs = s.obs := rfl
@[simp] theorem portSet_ticks (n : Nat) (p : GirthPort) (s : State) : (portSet n p s).ticks = s.ticks := rfl
@[simp] theorem portSet_freeCtr (n : Nat) (p : GirthPort) (s : State) : (portSet n p s).freeCtr = s.freeCtr := rfl
@[simp] theorem portSet_out (n : Nat) (p : GirthPort) (s : State) : (portSet n p s).out = s.out := rfl
@[simp] theorem portSet_pending (n : Nat) (p : GirthPort) (s : State) : (portSet n p s).pending = s.pending := rfl

@[simp] theorem chanSet_pace (c : Nat) (x : SbChannel) (s : State) : (chanSet c x s).pace = s.pace := rfl
@[simp] theorem chanSet_tsNow (c : Nat) (x : SbChannel) (s : State) : (chanSet c x s).tsNow = s.tsNow := rfl
@[simp] theorem chanSet_trestle (c : Nat) (x : SbChannel) (s : State) : (chanSet c x s).trestle = s.trestle := rfl
@[simp] theorem chanSet_piers (c : Nat) (x : SbChannel) (s : State) : (chanSet c x s).piers = s.piers := rfl
@[simp] theorem chanSet_store (c : Nat) (x : SbChannel) (s : State) : (chanSet c x s).store = s.store := rfl
@[simp] theorem chanSet_service (c : Nat) (x : SbChannel) (s : State) : (chanSet c x s).service = s.service := rfl
@[simp] theorem chanSet_pair (c : Nat) (x : SbChannel) (s : State) : (chanSet c x s).pair = s.pair := rfl
@[simp] theorem chanSet_viaduct (c : Nat) (x : SbChannel) (s : State) : (chanSet c x s).viaduct = s.viaduct := rfl
@[simp] theorem chanSet_host (c : Nat) (x : SbChannel) (s : State) : (chanSet c x s).host = s.host := rfl
@[simp] theorem chanSet_coh (c : Nat) (x : SbChannel) (s : State) : (chanSet c x s).coh = s.coh := rfl
@[simp] theorem chanSet_xl (c : Nat) (x : SbChannel) (s : State) : (chanSet c x s).xl = s.xl := rfl
@[simp] theorem chanSet_girth (c : Nat) (x : SbChannel) (s : State) : (chanSet c x s).girth = s.girth := rfl
@[simp] theorem chanSet_deck (c : Nat) (x : SbChannel) (s : State) : (chanSet c x s).deck = s.deck := rfl
@[simp] theorem chanSet_faults (c : Nat) (x : SbChannel) (s : State) : (chanSet c x s).faults = s.faults := rfl
@[simp] theorem chanSet_sec (c : Nat) (x : SbChannel) (s : State) : (chanSet c x s).sec = s.sec := rfl
@[simp] theorem chanSet_power (c : Nat) (x : SbChannel) (s : State) : (chanSet c x s).power = s.power := rfl
@[simp] theorem chanSet_milell (c : Nat) (x : SbChannel) (s : State) : (chanSet c x s).milell = s.milell := rfl
@[simp] theorem chanSet_obs (c : Nat) (x : SbChannel) (s : State) : (chanSet c x s).obs = s.obs := rfl
@[simp] theorem chanSet_ticks (c : Nat) (x : SbChannel) (s : State) : (chanSet c x s).ticks = s.ticks := rfl
@[simp] theorem chanSet_freeCtr (c : Nat) (x : SbChannel) (s : State) : (chanSet c x s).freeCtr = s.freeCtr := rfl
@[simp] theorem chanSet_out (c : Nat) (x : SbChannel) (s : State) : (chanSet c x s).out = s.out := rfl
@[simp] theorem chanSet_pending (c : Nat) (x : SbChannel) (s : State) : (chanSet c x s).pending = s.pending := rfl

@[simp] theorem restamp_pace (i : Nat) (s : State) : (restamp i s).pace = s.pace := rfl
@[simp] theorem restamp_tsNow (i : Nat) (s : State) : (restamp i s).tsNow = s.tsNow := rfl
@[simp] theorem restamp_trestle (i : Nat) (s : State) : (restamp i s).trestle = s.trestle := rfl
@[simp] theorem restamp_piers (i : Nat) (s : State) : (restamp i s).piers = s.piers := rfl
@[simp] theorem restamp_store (i : Nat) (s : State) : (restamp i s).store = s.store := rfl
@[simp] theorem restamp_service (i : Nat) (s : State) : (restamp i s).service = s.service := rfl
@[simp] theorem restamp_pair (i : Nat) (s : State) : (restamp i s).pair = s.pair := rfl
@[simp] theorem restamp_viaduct (i : Nat) (s : State) : (restamp i s).viaduct = s.viaduct := rfl
@[simp] theorem restamp_host (i : Nat) (s : State) : (restamp i s).host = s.host := rfl
@[simp] theorem restamp_coh (i : Nat) (s : State) : (restamp i s).coh = s.coh := rfl
@[simp] theorem restamp_xl (i : Nat) (s : State) : (restamp i s).xl = s.xl := rfl
@[simp] theorem restamp_girth (i : Nat) (s : State) : (restamp i s).girth = s.girth := rfl
@[simp] theorem restamp_deck (i : Nat) (s : State) : (restamp i s).deck = s.deck := rfl
@[simp] theorem restamp_faults (i : Nat) (s : State) : (restamp i s).faults = s.faults := rfl
@[simp] theorem restamp_power (i : Nat) (s : State) : (restamp i s).power = s.power := rfl
@[simp] theorem restamp_milell (i : Nat) (s : State) : (restamp i s).milell = s.milell := rfl
@[simp] theorem restamp_sb (i : Nat) (s : State) : (restamp i s).sb = s.sb := rfl
@[simp] theorem restamp_obs (i : Nat) (s : State) : (restamp i s).obs = s.obs := rfl
@[simp] theorem restamp_ticks (i : Nat) (s : State) : (restamp i s).ticks = s.ticks := rfl
@[simp] theorem restamp_freeCtr (i : Nat) (s : State) : (restamp i s).freeCtr = s.freeCtr := rfl
@[simp] theorem restamp_out (i : Nat) (s : State) : (restamp i s).out = s.out := rfl
@[simp] theorem restamp_pending (i : Nat) (s : State) : (restamp i s).pending = s.pending := rfl

@[simp] theorem ctxSet_pace (n : Nat) (x : Context) (s : State) : (ctxSet n x s).pace = s.pace := rfl
@[simp] theorem ctxSet_tsNow (n : Nat) (x : Context) (s : State) : (ctxSet n x s).tsNow = s.tsNow := rfl
@[simp] theorem ctxSet_trestle (n : Nat) (x : Context) (s : State) : (ctxSet n x s).trestle = s.trestle := rfl
@[simp] theorem ctxSet_piers (n : Nat) (x : Context) (s : State) : (ctxSet n x s).piers = s.piers := rfl
@[simp] theorem ctxSet_store (n : Nat) (x : Context) (s : State) : (ctxSet n x s).store = s.store := rfl
@[simp] theorem ctxSet_service (n : Nat) (x : Context) (s : State) : (ctxSet n x s).service = s.service := rfl
@[simp] theorem ctxSet_pair (n : Nat) (x : Context) (s : State) : (ctxSet n x s).pair = s.pair := rfl
@[simp] theorem ctxSet_viaduct (n : Nat) (x : Context) (s : State) : (ctxSet n x s).viaduct = s.viaduct := rfl
@[simp] theorem ctxSet_host (n : Nat) (x : Context) (s : State) : (ctxSet n x s).host = s.host := rfl
@[simp] theorem ctxSet_coh (n : Nat) (x : Context) (s : State) : (ctxSet n x s).coh = s.coh := rfl
@[simp] theorem ctxSet_xl (n : Nat) (x : Context) (s : State) : (ctxSet n x s).xl = s.xl := rfl
@[simp] theorem ctxSet_girth (n : Nat) (x : Context) (s : State) : (ctxSet n x s).girth = s.girth := rfl
@[simp] theorem ctxSet_deck (n : Nat) (x : Context) (s : State) : (ctxSet n x s).deck = s.deck := rfl
@[simp] theorem ctxSet_faults (n : Nat) (x : Context) (s : State) : (ctxSet n x s).faults = s.faults := rfl
@[simp] theorem ctxSet_power (n : Nat) (x : Context) (s : State) : (ctxSet n x s).power = s.power := rfl
@[simp] theorem ctxSet_milell (n : Nat) (x : Context) (s : State) : (ctxSet n x s).milell = s.milell := rfl
@[simp] theorem ctxSet_sb (n : Nat) (x : Context) (s : State) : (ctxSet n x s).sb = s.sb := rfl
@[simp] theorem ctxSet_obs (n : Nat) (x : Context) (s : State) : (ctxSet n x s).obs = s.obs := rfl
@[simp] theorem ctxSet_ticks (n : Nat) (x : Context) (s : State) : (ctxSet n x s).ticks = s.ticks := rfl
@[simp] theorem ctxSet_freeCtr (n : Nat) (x : Context) (s : State) : (ctxSet n x s).freeCtr = s.freeCtr := rfl
@[simp] theorem ctxSet_out (n : Nat) (x : Context) (s : State) : (ctxSet n x s).out = s.out := rfl
@[simp] theorem ctxSet_pending (n : Nat) (x : Context) (s : State) : (ctxSet n x s).pending = s.pending := rfl

@[simp] theorem emit_out (o : Output) (s : State) : (emit o s).out = s.out ++ [o] := rfl

@[simp] theorem srcGet_srcSet_other {n m : Nat} (x : FaultSource) (s : State) (h : m ≠ n) :
    srcGet (srcSet n x s) m = srcGet s m := tget_tset_other _ _ _ h

@[simp] theorem chanGet_chanSet_other {n m : Nat} (x : SbChannel) (s : State) (h : m ≠ n) :
    chanGet (chanSet n x s) m = chanGet s m := tget_tset_other _ _ _ h

@[simp] theorem portGet_portSet_other {n m : Nat} (x : GirthPort) (s : State) (h : m ≠ n) :
    portGet (portSet n x s) m = portGet s m := tget_tset_other _ _ _ h

@[simp] theorem pdGet_pdPut_other {n m : Nat} (x : Pd) (s : State) (h : m ≠ n) :
    pdGet (pdPut n x s) m = pdGet s m := tget_tset_other _ _ _ h

@[simp] theorem trestleGet_trestleSet_other {n m : Nat} (x : Trestle) (s : State) (h : m ≠ n) :
    trestleGet (trestleSet n x s) m = trestleGet s m := tget_tset_other _ _ _ h

@[simp] theorem srcGet_srcSet_self (n : Nat) (x : FaultSource) (s : State) : srcGet (srcSet n x s) n = x := tget_tset_self _ _ _ _

@[simp] theorem srcSet_srcSet (n : Nat) (x y : FaultSource) (s : State) : srcSet n y (srcSet n x s) = srcSet n y s := by
  simp [srcSet]

@[simp] theorem chanGet_chanSet_self (n : Nat) (x : SbChannel) (s : State) : chanGet (chanSet n x s) n = x := tget_tset_self _ _ _ _

@[simp] theorem chanSet_chanSet (n : Nat) (x y : SbChannel) (s : State) : chanSet n y (chanSet n x s) = chanSet n y s := by
  simp [chanSet]

@[simp] theorem portGet_portSet_self (n : Nat) (x : GirthPort) (s : State) : portGet (portSet n x s) n = x := tget_tset_self _ _ _ _

@[simp] theorem portSet_portSet (n : Nat) (x y : GirthPort) (s : State) : portSet n y (portSet n x s) = portSet n y s := by
  simp [portSet]

@[simp] theorem pdGet_pdPut_self (n : Nat) (x : Pd) (s : State) : pdGet (pdPut n x s) n = x := tget_tset_self _ _ _ _

@[simp] theorem pdPut_pdPut (n : Nat) (x y : Pd) (s : State) : pdPut n y (pdPut n x s) = pdPut n y s := by
  simp [pdPut]

@[simp] theorem trestleGet_trestleSet_self (n : Nat) (x : Trestle) (s : State) : trestleGet (trestleSet n x s) n = x := tget_tset_self _ _ _ _

@[simp] theorem trestleSet_trestleSet (n : Nat) (x y : Trestle) (s : State) : trestleSet n y (trestleSet n x s) = trestleSet n y s := by
  simp [trestleSet]

end Sys2Proof.Machine
end

