-- ==== Sys2Proof/Laws/Ops.lean ====
section
/-!
SUPPORT. Laws/Ops.lean: for each shared operation, everything it can change.
-/
namespace Sys2Proof.Machine

/-- Counting changes the observation unit only. -/
theorem countN_eq (k n : Nat) (s : State) : ∃ o, countN k n s = { s with obs := o } := ⟨_, rfl⟩

/-- Trimming the trace store changes the observation unit only. -/
theorem traceTrim_eq (s : State) : ∃ o, traceTrim s = { s with obs := o } := ⟨_, rfl⟩

/-- An event changes the observation unit only. -/
theorem trace_eq (ev : Nat) (unit : BitVec 9) (a b : Nat) (s : State) : ∃ o, trace ev unit a b s = { s with obs := o } := by
  unfold trace
  split
  · exact ⟨s.obs, rfl⟩
  · split <;> exact ⟨_, rfl⟩

/-- Beside the domain's fields, a change of STATE touches the trace alone. -/
theorem pdSet_eq (d : Nat) (p : Pd) (s : State) : ∃ o, pdSet d p s = { pdPut d p s with obs := o } := by
  by_cases h : (pdGet s d).st = p.st
  · exact ⟨s.obs, by simp only [pdSet, h, if_true]; rfl⟩
  · obtain ⟨o, e⟩ := trace_eq 0x08 (uDomain d) (d + 65536 * (pdGet s d).st.code + 1048576 * p.st.code) 0 (pdPut d p s)
    exact ⟨o, by simp only [pdSet, h, if_false]; exact e⟩
@[simp] theorem pdSet_pace (d : Nat) (p : Pd) (s : State) : (pdSet d p s).pace = s.pace := by
  obtain ⟨o, h⟩ := pdSet_eq d p s; rw [h]; rfl
@[simp] theorem pdSet_tsNow (d : Nat) (p : Pd) (s : State) : (pdSet d p s).tsNow = s.tsNow := by
  obtain ⟨o, h⟩ := pdSet_eq d p s; rw [h]; rfl
@[simp] theorem pdSet_trestle (d : Nat) (p : Pd) (s : State) : (pdSet d p s).trestle = s.trestle := by
  obtain ⟨o, h⟩ := pdSet_eq d p s; rw [h]; rfl
@[simp] theorem pdSet_piers (d : Nat) (p : Pd) (s : State) : (pdSet d p s).piers = s.piers := by
  obtain ⟨o, h⟩ := pdSet_eq d p s; rw [h]; rfl
@[simp] theorem pdSet_store (d : Nat) (p : Pd) (s : State) : (pdSet d p s).store = s.store := by
  obtain ⟨o, h⟩ := pdSet_eq d p s; rw [h]; rfl
@[simp] theorem pdSet_service (d : Nat) (p : Pd) (s : State) : (pdSet d p s).service = s.service := by
  obtain ⟨o, h⟩ := pdSet_eq d p s; rw [h]; rfl
@[simp] theorem pdSet_pair (d : Nat) (p : Pd) (s : State) : (pdSet d p s).pair = s.pair := by
  obtain ⟨o, h⟩ := pdSet_eq d p s; rw [h]; rfl
@[simp] theorem pdSet_viaduct (d : Nat) (p : Pd) (s : State) : (pdSet d p s).viaduct = s.viaduct := by
  obtain ⟨o, h⟩ := pdSet_eq d p s; rw [h]; rfl
@[simp] theorem pdSet_host (d : Nat) (p : Pd) (s : State) : (pdSet d p s).host = s.host := by
  obtain ⟨o, h⟩ := pdSet_eq d p s; rw [h]; rfl
@[simp] theorem pdSet_coh (d : Nat) (p : Pd) (s : State) : (pdSet d p s).coh = s.coh := by
  obtain ⟨o, h⟩ := pdSet_eq d p s; rw [h]; rfl
@[simp] theorem pdSet_xl (d : Nat) (p : Pd) (s : State) : (pdSet d p s).xl = s.xl := by
  obtain ⟨o, h⟩ := pdSet_eq d p s; rw [h]; rfl
@[simp] theorem pdSet_girth (d : Nat) (p : Pd) (s : State) : (pdSet d p s).girth = s.girth := by
  obtain ⟨o, h⟩ := pdSet_eq d p s; rw [h]; rfl
@[simp] theorem pdSet_faults (d : Nat) (p : Pd) (s : State) : (pdSet d p s).faults = s.faults := by
  obtain ⟨o, h⟩ := pdSet_eq d p s; rw [h]; rfl
@[simp] theorem pdSet_sec (d : Nat) (p : Pd) (s : State) : (pdSet d p s).sec = s.sec := by
  obtain ⟨o, h⟩ := pdSet_eq d p s; rw [h]; rfl
@[simp] theorem pdSet_power (d : Nat) (p : Pd) (s : State) : (pdSet d p s).power = s.power := by
  obtain ⟨o, h⟩ := pdSet_eq d p s; rw [h]; rfl
@[simp] theorem pdSet_milell (d : Nat) (p : Pd) (s : State) : (pdSet d p s).milell = s.milell := by
  obtain ⟨o, h⟩ := pdSet_eq d p s; rw [h]; rfl
@[simp] theorem pdSet_sb (d : Nat) (p : Pd) (s : State) : (pdSet d p s).sb = s.sb := by
  obtain ⟨o, h⟩ := pdSet_eq d p s; rw [h]; rfl
@[simp] theorem pdSet_ticks (d : Nat) (p : Pd) (s : State) : (pdSet d p s).ticks = s.ticks := by
  obtain ⟨o, h⟩ := pdSet_eq d p s; rw [h]; rfl
@[simp] theorem pdSet_freeCtr (d : Nat) (p : Pd) (s : State) : (pdSet d p s).freeCtr = s.freeCtr := by
  obtain ⟨o, h⟩ := pdSet_eq d p s; rw [h]; rfl
@[simp] theorem pdSet_out (d : Nat) (p : Pd) (s : State) : (pdSet d p s).out = s.out := by
  obtain ⟨o, h⟩ := pdSet_eq d p s; rw [h]; rfl
@[simp] theorem pdSet_pending (d : Nat) (p : Pd) (s : State) : (pdSet d p s).pending = s.pending := by
  obtain ⟨o, h⟩ := pdSet_eq d p s; rw [h]; rfl
@[simp] theorem pdGet_pdSet_self (n : Nat) (x : Pd) (s : State) : pdGet (pdSet n x s) n = x := by
  obtain ⟨o, h⟩ := pdSet_eq n x s; rw [h]; exact pdGet_pdPut_self n x s
@[simp] theorem pdGet_pdSet_other {n m : Nat} (x : Pd) (s : State) (h : m ≠ n) : pdGet (pdSet n x s) m = pdGet s m := by
  obtain ⟨o, e⟩ := pdSet_eq n x s; rw [e]; exact pdGet_pdPut_other x s h


/-- Skipping keeps the places in the store. -/
theorem skipRing_sound {o : Observe} (st : Bool) (h1 : o.portPos ≤ o.store.length) (h2 : o.ringPos ≤ o.store.length) :
    (o.skipRing st).store = o.store ∧ (o.skipRing st).portPos ≤ o.store.length ∧
      (o.skipRing st).ringPos ≤ o.store.length ∧ (o.skipRing st).portPos = o.portPos ∧
      (o.skipRing st).portLost = o.portLost ∧ (o.skipRing st).nextSeq = o.nextSeq ∧ (o.skipRing st).ringW = o.ringW := by
  unfold Observe.skipRing
  split <;> simp [h1, h2]

/-- Freed records stand before both places in force. -/
theorem taken_le {o : Observe} (h1 : o.portPos ≤ o.store.length) (h2 : o.ringPos ≤ o.store.length) :
    o.taken ≤ o.store.length ∧ (o.portEn = true → o.taken ≤ o.portPos) ∧ (o.bufEn = true → o.taken ≤ o.ringPos) := by
  unfold Observe.taken
  cases hp : o.portEn <;> cases hb : o.bufEn <;> simp [h1] <;> omega

/-- Freeing keeps the places in the store, and the records not freed. -/
theorem free_sound {o : Observe} (h1 : o.portPos ≤ o.store.length) (h2 : o.ringPos ≤ o.store.length) :
    o.free.store = o.store.drop o.taken ∧ o.free.store.length ≤ o.store.length ∧
      o.free.portPos ≤ o.free.store.length ∧ o.free.ringPos ≤ o.free.store.length := by
  have := taken_le h1 h2
  refine ⟨rfl, ?_, ?_, ?_⟩ <;> simp [Observe.free] <;> omega

/-- Trimming keeps the trace store's bound and places. -/
theorem traceTrim_sound {s : State} (h0 : s.obs.store.length ≤ 2048) (h1 : s.obs.portPos ≤ s.obs.store.length)
    (h2 : s.obs.ringPos ≤ s.obs.store.length) :
    (traceTrim s).obs.store.length ≤ 2048 ∧ (traceTrim s).obs.portPos ≤ (traceTrim s).obs.store.length ∧
      (traceTrim s).obs.ringPos ≤ (traceTrim s).obs.store.length := by
  have hs := skipRing_sound (ringStalled s) h1 h2
  have hf := free_sound (o := s.obs.skipRing (ringStalled s)) (by rw [hs.1]; exact hs.2.1) (by rw [hs.1]; exact hs.2.2.1)
  rw [hs.1] at hf
  exact ⟨Nat.le_trans hf.2.1 h0, hf.2.2.1, hf.2.2.2⟩

/-- Trimming leaves the marks of the port, the sequence number and the ring's write number alone. -/
theorem traceTrim_marks (s : State) :
    (traceTrim s).obs.portLost = s.obs.portLost ∧ (traceTrim s).obs.nextSeq = s.obs.nextSeq ∧
      (traceTrim s).obs.ringW = s.obs.ringW ∧ (traceTrim s).obs.eventEn = s.obs.eventEn := by
  unfold traceTrim countN Observe.free Observe.skipRing
  dsimp only
  split <;> simp

/-- An event keeps the trace store's bound and places. -/
theorem trace_sound {s : State} (ev : Nat) (unit : BitVec 9) (a b : Nat) (h0 : s.obs.store.length ≤ 2048)
    (h1 : s.obs.portPos ≤ s.obs.store.length) (h2 : s.obs.ringPos ≤ s.obs.store.length) :
    (trace ev unit a b s).obs.store.length ≤ 2048 ∧
      (trace ev unit a b s).obs.portPos ≤ (trace ev unit a b s).obs.store.length ∧
      (trace ev unit a b s).obs.ringPos ≤ (trace ev unit a b s).obs.store.length := by
  unfold trace
  split
  · exact ⟨h0, h1, h2⟩
  · split
    · exact ⟨h0, h1, h2⟩
    · rename_i h
      refine traceTrim_sound ?_ ?_ ?_ <;> simp [count, countN] <;> omega

/-- A posted write leaves the block and is counted. -/
theorem hostWrite_eq (a : W64) (p : Option (BitVec 20)) (l : List Byte) (s : State) :
    ∃ o, hostWrite a p l s = { s with obs := o, out := s.out ++ [.hostWrite a p l] } := ⟨_, rfl⟩

/-- An interrupt event changes the interrupt registers, and at most one message leaves. -/
theorem interrupt_eq (v : BitVec 11) (s : State) :
    ∃ h o, interrupt v s = { s with host := h, out := s.out ++ o } ∧ o.length ≤ 1 := by
  unfold interrupt
  by_cases h1 : s.host.msixEn
  · simp only [h1, if_true]
    split
    · exact ⟨_, [], by rw [List.append_nil]; rfl, by simp⟩
    · exact ⟨s.host, [.msix v], rfl, by simp⟩
  · simp only [h1]
    split
    · rename_i h2; cases h2
    · split
      · exact ⟨_, [.intx true], rfl, by simp⟩
      · exact ⟨_, [], by rw [List.append_nil], by simp⟩

/-- Sending a waiting emergency message changes Milell, and at most one frame leaves. -/
theorem emcySend_eq (s : State) :
    ∃ m o, emcySend s = { s with milell := m, out := s.out ++ o } ∧ o.length ≤ 1 := by
  unfold emcySend
  split
  · exact ⟨s.milell, [], by rw [List.append_nil], by simp⟩
  · split
    · exact ⟨_, [_], rfl, by simp⟩
    · exact ⟨s.milell, [], by rw [List.append_nil], by simp⟩

/-- An EMCY event changes Milell and the counters, and at most one frame leaves. -/
theorem emcy_eq (code source : Nat) (mfg : List Byte) (first : Bool) (s : State) :
    ∃ m b o, emcy code source mfg first s = { s with milell := m, obs := b, out := s.out ++ o } ∧ o.length ≤ 1 := by
  unfold emcy
  simp only
  split
  · exact ⟨_, s.obs, [], by rw [List.append_nil], by simp⟩
  · split
    · exact ⟨_, _, [], by rw [List.append_nil]; rfl, by simp⟩
    · obtain ⟨m, o, h, hl⟩ := emcySend_eq _
      rw [h]
      exact ⟨m, s.obs, o, rfl, hl⟩

/-- A doorbell bit of the host changes the saddlebags and, through its interrupt, the host port. -/
theorem ringHost_eq (c : Nat) (s : State) :
    ∃ b h o, ringHost c s = { s with sb := b, host := h, out := s.out ++ o } ∧ o.length ≤ 1 := by
  unfold ringHost
  simp only
  split
  · obtain ⟨h, o, e, hl⟩ := interrupt_eq s.sb.hostVector { s with sb := { s.sb with hostDb := withBit s.sb.hostDb (c % 32)
                                                                                    hostRxpend := withBit s.sb.hostRxpend c } }
    exact ⟨_, h, o, by rw [e], hl⟩
  · exact ⟨_, s.host, [], by rw [List.append_nil], by simp⟩

/-- A notice changes the saddlebags and, through its interrupt, the host port. -/
theorem notice_eq (core kind word1 : Nat) (s : State) :
    ∃ b h o, notice core kind word1 s = { s with sb := b, host := h, out := s.out ++ o } ∧ o.length ≤ 1 := by
  unfold notice
  simp only
  split
  · exact ⟨s.sb, s.host, [], by rw [List.append_nil], by simp⟩
  · split
    · split <;> exact ⟨_, s.host, [], by rw [List.append_nil], by simp⟩
    · obtain ⟨b, h, o, e, hl⟩ := ringHost_eq _ _
      rw [e]
      split <;> exact ⟨b, h, o, rfl, hl⟩

/-- A context record written changes the security root only. -/
theorem ctxSet_eq (n : Nat) (x : Context) (s : State) : ∃ c, ctxSet n x s = { s with sec := c } := ⟨_, rfl⟩

/-- A change of PAIR_STATUS.STATE changes the pair, and through its trace, notice, interrupt and measurement their parts. -/
theorem setPair_eq (st : PairSt) (s : State) :
    ∃ p c b m h o, setPair st s = { s with pair := p, sec := c, obs := b, sb := m, host := h, out := s.out ++ o } := by
  unfold setPair
  split
  · exact ⟨s.pair, s.sec, s.obs, s.sb, s.host, [], by rw [List.append_nil]⟩
  · obtain ⟨b, hb⟩ := trace_eq 0x10 (uCore 6) (s.pair.st.code + 16 * st.code + 256 * b2n (s.pair.enter st).roleB +
      2 ^ 32 * (s.pair.enter st).epoch.toNat) 0 (restamp 11 { s with pair := s.pair.enter st })
    dsimp only
    rw [hb]
    obtain ⟨m, h, o, hn, -⟩ := notice_eq 6 3 st.code { restamp 11 { s with pair := s.pair.enter st } with obs := b }
    rw [hn]
    split
    · obtain ⟨h', o', hi, -⟩ := interrupt_eq s.host.hpVector
        { restamp 11 { s with pair := s.pair.enter st } with obs := b, sb := m, host := h, out := s.out ++ o }
      refine ⟨s.pair.enter st, (restamp 11 s).sec, b, m, h', o ++ o', ?_⟩
      refine Eq.trans hi ?_
      rw [List.append_assoc]
      rfl
    · exact ⟨s.pair.enter st, (restamp 11 s).sec, b, m, h, o, rfl⟩

/-- The reaction set of a class holds no CHIPRST that would act. -/
def noChipReset (n : Nat) (r : BitVec 6) (s : State) : Prop :=
  s.faults.safe = true ∨ reactsNow s = false ∨ r &&& rChiprst = 0 ∨ s.faults.handover.isSome = true ∨
    (n = 2941 ∧ s.power.phase = .failed)

/-- The reactions other than CHIPRST: an interrupt and a queued trap. -/
theorem react_eq (n : Nat) (c : FaultClass) (r : BitVec 6) (v : BitVec 11) (s : State) (h : noChipReset n r s) :
    ∃ t p o, react n c r v s = { s with faults := { s.faults with traps := t }, host := p, out := s.out ++ o } := by
  unfold react
  split
  · exact ⟨s.faults.traps, s.host, [], by rw [List.append_nil]⟩
  · rename_i h0
    simp only [Bool.or_eq_true, Bool.not_eq_true', not_or, Bool.not_eq_true, Bool.not_eq_false] at h0
    have hi : ∃ p o, (if r &&& rInt ≠ 0 then interrupt v s else s) = { s with host := p, out := s.out ++ o } := by
      split
      · obtain ⟨p, o, e, -⟩ := interrupt_eq v s
        exact ⟨p, o, e⟩
      · exact ⟨s.host, [], by rw [List.append_nil]⟩
    obtain ⟨p, o, e⟩ := hi
    dsimp only
    rw [e]
    have hc : ∀ t : State, t.faults.handover = s.faults.handover → t.power = s.power →
        (r &&& rChiprst ≠ 0 && t.faults.handover.isNone && !(n = 2941 && t.power.phase = .failed)) = false := by
      intro t h1 h2
      rw [h1, h2]
      rcases h with h | h | h | h | h
      · simp [h0.1] at h
      · simp [h0.2] at h
      · simp [h]
      · cases hs : s.faults.handover <;> simp_all
      · simp [h.1, h.2]
    by_cases ht : r &&& rTrap ≠ 0
    · rw [if_pos ht, if_neg (by rw [hc _ rfl rfl]; simp)]
      exact ⟨s.faults.traps ++ [(c, n)], p, o, rfl⟩
    · rw [if_neg ht, if_neg (by rw [hc _ rfl rfl]; simp)]
      exact ⟨s.faults.traps, p, o, rfl⟩

/-- The messages of a latched event change Milell and the counters. -/
theorem emcyOf_eq (n : Nat) (c : FaultClass) (fresh wire : Bool) (detail : Nat) (s : State) :
    ∃ m b o, emcyOf n c fresh wire detail s = { s with milell := m, obs := b, out := s.out ++ o } := by
  have first : ∀ (p : Bool) (code : Nat) (s : State), ∃ m b o,
      (if p then emcy code n (leBytes 2 n ++ leBytes 4 detail) false s else s) =
        { s with milell := m, obs := b, out := s.out ++ o } := by
    intro p code s
    cases p
    · exact ⟨s.milell, s.obs, [], by simp⟩
    · obtain ⟨m, b, o, e, -⟩ := emcy_eq code n (leBytes 2 n ++ leBytes 4 detail) false s
      exact ⟨m, b, o, by simpa using e⟩
  unfold emcyOf
  dsimp only
  obtain ⟨m, b, o, e⟩ := first (fresh && s.milell.emcyMask.getLsbD (clsCode c - 1)) (0xFF00 + clsCode c) s
  rw [e]
  obtain ⟨m', b', o', e'⟩ := first wire 0xFF04 { s with milell := m, obs := b, out := s.out ++ o }
  rw [e']
  exact ⟨m', b', o ++ o', by rw [List.append_assoc]⟩

/-- The collector's registers alone change, SAFE and the handover not among them. -/
theorem latchRegs_eq (n : Nat) (c : FaultClass) (wire : Bool) (detail : Nat) (s : State) :
    ∃ f, latchRegs n c wire detail s = { s with faults := f } ∧ f.safe = s.faults.safe ∧
      f.handover = s.faults.handover ∧ f.traps = s.faults.traps := by
  unfold latchRegs
  dsimp only
  split <;> exact ⟨_, rfl, rfl, rfl, rfl⟩

/-- A latched event whose reaction set starts no chip reset: the collector's registers take the event, and beyond them
only the trap list, the trace, Milell, the interrupt registers and what leaves the block change. -/
theorem latch_eq (n : Nat) (cls : FaultClass) (wire : Bool) (detail : Nat) (s : State)
    (hs : sampled s n = true) (hc : (srcInfo n).can (latchClass n cls wire) = true)
    (h : noChipReset n ((srcGet s n).react (latchClass n cls wire)) s) :
    ∃ t b m p o, latch n cls wire detail s =
      { latchRegs n (latchClass n cls wire) wire detail s with
        faults := { (latchRegs n (latchClass n cls wire) wire detail s).faults with traps := t }
        obs := b, milell := m, host := p, out := s.out ++ o } := by
  unfold latch
  dsimp only
  rw [if_neg (by simp [hs, hc])]
  obtain ⟨f, e, hf1, hf2, hf3⟩ := latchRegs_eq n (latchClass n cls wire) wire detail s
  rw [e]
  obtain ⟨b, eb⟩ := trace_eq 0x01 uCollector (n + 4096 * clsCode (latchClass n cls wire) + 16384 * b2n wire) detail
    { s with faults := f }
  rw [eb]
  obtain ⟨m, b', o, em⟩ := emcyOf_eq n (latchClass n cls wire) (!(srcGet s n).status (latchClass n cls wire))
    (wire && !(srcGet s n).wire) detail { s with faults := f, obs := b }
  rw [em]
  split
  · exact ⟨f.traps, b', m, s.host, o, rfl⟩
  · have hn : noChipReset n ((srcGet s n).react (latchClass n cls wire))
        { s with faults := f, obs := b', milell := m, out := s.out ++ o } := by
      unfold noChipReset at h ⊢
      simp only [hf1, hf2]
      exact h
    obtain ⟨t, p, o', er⟩ := react_eq n (latchClass n cls wire) _ (srcGet s n).vector _ hn
    rw [er]
    exact ⟨t, b', m, p, o ++ o', by simp⟩

end Sys2Proof.Machine
end

