-- ==== Sys2Proof/Laws/Agents.lean ====
section
/-!
SUPPORT. Laws/Agents.lean: what the operations over streams, transfer engines, the directory, the deck and the links can change.
-/
namespace Sys2Proof.Machine

/-- What every step of a fold keeps, the fold keeps. -/
theorem foldS_keeps {α : Type} {P : State → Prop} (f : α → State → State) (h : ∀ x s, P s → P (f x s)) (l : List α) (s : State)
    (hs : P s) : P (foldS l f s) := by
  unfold foldS
  induction l generalizing s with
  | nil => exact hs
  | cons a l ih => exact ih (f a s) (h a s hs)

/-! ### Tables of State: what a write sets, and what it leaves -/

@[simp] theorem streamGet_streamSet_self (i : Nat) (x : Stream) (s : State) : streamGet (streamSet i x s) i = x := tget_tset_self _ _ _ _
theorem streamGet_streamSet_other {i j : Nat} (x : Stream) (s : State) (h : j ≠ i) : streamGet (streamSet i x s) j = streamGet s j :=
  tget_tset_other _ _ _ h
theorem streamSet_eq (i : Nat) (x : Stream) (s : State) : ∃ v, streamSet i x s = { s with service := v } := ⟨_, rfl⟩

@[simp] theorem opGet_opSet_self (j : Nat) (x : LongOp) (s : State) : opGet (opSet j x s) j = x := tget_tset_self _ _ _ _
theorem opGet_opSet_other {i j : Nat} (x : LongOp) (s : State) (h : j ≠ i) : opGet (opSet i x s) j = opGet s j := tget_tset_other _ _ _ h
theorem opSet_eq (j : Nat) (x : LongOp) (s : State) : ∃ v, opSet j x s = { s with service := v } := ⟨_, rfl⟩

@[simp] theorem xferGet_xferSet_self (e : Nat) (x : Option Xfer) (s : State) : xferGet (xferSet e x s) e = x := tget_tset_self _ _ _ _
theorem xferGet_xferSet_other {e f : Nat} (x : Option Xfer) (s : State) (h : f ≠ e) : xferGet (xferSet e x s) f = xferGet s f :=
  tget_tset_other _ _ _ h
theorem xferSet_eq (e : Nat) (x : Option Xfer) (s : State) : ∃ v, xferSet e x s = { s with xl := v } := ⟨_, rfl⟩

@[simp] theorem dirAt_dirPut_self (k : Nat) (x : DirEntry) (s : State) : dirAt (dirPut k x s) k = x := tget_tset_self _ _ _ _
theorem dirAt_dirPut_other {j k : Nat} (x : DirEntry) (s : State) (h : j ≠ k) : dirAt (dirPut k x s) j = dirAt s j := tget_tset_other _ _ _ h
theorem dirPut_eq (k : Nat) (x : DirEntry) (s : State) : ∃ c, dirPut k x s = { s with coh := c } := ⟨_, rfl⟩

@[simp] theorem dcAt_dcPut_self (k : Nat) (x : DcLine) (s : State) : dcAt (dcPut k x s) k = x := tget_tset_self _ _ _ _
theorem dcAt_dcPut_other {j k : Nat} (x : DcLine) (s : State) (h : j ≠ k) : dcAt (dcPut k x s) j = dcAt s j := tget_tset_other _ _ _ h
theorem dcPut_eq (k : Nat) (x : DcLine) (s : State) : ∃ c, dcPut k x s = { s with coh := c } := ⟨_, rfl⟩

@[simp] theorem bindingGet_bindingSet_self (c : Nat) (b : Binding) (s : State) : bindingGet (bindingSet c b s) c = b := tget_tset_self _ _ _ _
theorem bindingGet_bindingSet_other {c d : Nat} (b : Binding) (s : State) (h : d ≠ c) : bindingGet (bindingSet c b s) d = bindingGet s d :=
  tget_tset_other _ _ _ h
theorem bindingSet_eq (c : Nat) (b : Binding) (s : State) : ∃ h, bindingSet c b s = { s with host := h } := ⟨_, rfl⟩

theorem setTxn_eq (t : Txn) (s : State) : ∃ c, setTxn t s = { s with coh := c } := ⟨_, rfl⟩
theorem setLate_eq (l : LineAddr) (a : Nat) (rsp wb : Bool) (s : State) : ∃ c, setLate l a rsp wb s = { s with coh := c } := ⟨_, rfl⟩
theorem foreignSet_eq (i : Nat) (v : Nat × Nat) (s : State) : ∃ p, foreignSet i v s = { s with pair := p } := ⟨_, rfl⟩
theorem touch_eq (p a : Nat) (s : State) : ∃ m, touch p a s = { s with store := m } ∧ m.cells = s.store.cells ∧ m.scratch = s.store.scratch ∧
    m.side = s.store.side ∧ m.regions = s.store.regions := ⟨_, rfl, rfl, rfl, rfl, rfl⟩
theorem replyJournal_eq (m : ViaMsg) (s : State) : ∃ v, replyJournal m s = { s with viaduct := v } := ⟨_, rfl⟩
theorem replyWindow_eq (m : ViaMsg) (s : State) : ∃ v, replyWindow m s = { s with viaduct := v } := ⟨_, rfl⟩
theorem dispatchBit_eq (c b : Nat) (s : State) : ∃ t, dispatchBit c b s = { s with trestle := t } := ⟨_, rfl⟩

/-- A line that comes for an engine's chunk changes that engine alone. -/
theorem xferGot_eq (e : Nat) (l : LineAddr) (d : LineData) (p : Bool) (s : State) : ∃ v, xferGot e l d p s = { s with xl := v } := by
  unfold xferGot
  split
  · exact ⟨_, rfl⟩
  · exact ⟨s.xl, rfl⟩

/-- A settled transaction changes the coherence unit alone. -/
theorem settle_eq (t : Txn) (s : State) : ∃ c, settle t s = { s with coh := c } := by
  unfold settle
  split
  · exact ⟨_, rfl⟩
  · split <;> exact ⟨_, rfl⟩

/-- The line's entry takes its next state in the directory alone. -/
theorem dirUpdate_eq (l : LineAddr) (e : DirEntry) (s : State) : ∃ c, dirUpdate l e s = { s with coh := c } := by
  unfold dirUpdate
  split
  · exact ⟨_, rfl⟩
  · exact ⟨s.coh, rfl⟩

/-! ### Refused accesses of the host -/

/-- A refused access changes AER and the counters, and at most one completion leaves. -/
theorem refuseAccess_eq (q : Bool) (n : Option Nat) (s : State) :
    ∃ h b o, refuseAccess q n s = { s with host := h, obs := b, out := s.out ++ o } ∧ o.length ≤ 1 := by
  have zeros : ∀ t : State, ∃ o, (match n with
      | some k => emit (.cpl (.data (List.replicate k 0))) t
      | none => t) = { t with out := t.out ++ o } ∧ o.length ≤ 1 := by
    intro t
    cases n with
    | none => exact ⟨[], by simp, by simp⟩
    | some k => exact ⟨[_], rfl, by simp⟩
  unfold refuseAccess
  dsimp only
  split
  · exact ⟨s.host, s.obs, [], by simp, by simp⟩
  · split
    · exact ⟨_, _, [.cpl .ur], rfl, by simp⟩
    · split
      · obtain ⟨o, e, h⟩ := zeros s
        exact ⟨s.host, s.obs, o, e, h⟩
      · split
        · obtain ⟨o, e, h⟩ := zeros (count 2555 (aerLog 20 s))
          exact ⟨_, _, o, e, h⟩
        · exact ⟨s.host, s.obs, [], by simp, by simp⟩

/-! ### The deck (R301, R302) -/

/-- Only the deck and the counters differ. -/
def DeckOnly (s t : State) : Prop := ∃ d o, t = { s with deck := d, obs := o }

theorem DeckOnly.refl (s : State) : DeckOnly s s := ⟨_, _, rfl⟩
theorem DeckOnly.trans {a b c : State} (h : DeckOnly a b) (k : DeckOnly b c) : DeckOnly a c := by
  obtain ⟨d, o, rfl⟩ := h
  obtain ⟨d', o', rfl⟩ := k
  exact ⟨d', o', rfl⟩
theorem DeckOnly.fold {α : Type} {f : α → State → State} (h : ∀ x s, DeckOnly s (f x s)) (l : List α) (s : State) :
    DeckOnly s (foldS l f s) :=
  foldS_keeps (P := DeckOnly s) f (fun x t ht => ht.trans (h x t)) l s (.refl s)

theorem hopFlight_deck (f : Flight) (s : State) : DeckOnly s (hopFlight f s) := by
  unfold hopFlight
  dsimp only
  split
  · exact .refl s
  · exact ⟨_, _, rfl⟩

theorem admitPacket_deck (p : Packet) (s : State) : DeckOnly s (admitPacket p s) := by
  unfold admitPacket
  dsimp only
  split <;> exact ⟨_, _, rfl⟩

/-- Packets that move on change the deck and the counters alone. -/
theorem deckMoves_deck (s : State) : DeckOnly s (deckMoves s) := by
  unfold deckMoves
  have h := DeckOnly.fold hopFlight_deck s.deck.flights s
  refine (h.trans ⟨_, _, rfl⟩).trans (DeckOnly.fold admitPacket_deck _ _)

/-- Sending a packet changes the deck and the counters alone. -/
theorem sendPacket_deck (p : Packet) (reply : Bool) (s : State) : DeckOnly s (sendPacket p reply s) := by
  unfold sendPacket
  dsimp only
  refine (deckMoves_deck s).trans (DeckOnly.trans ?_ (admitPacket_deck _ _))
  split <;> split <;> exact ⟨_, _, rfl⟩

theorem landFlight_deck (f : Flight) (s : State) : DeckOnly s (landFlight f s) := by
  unfold landFlight
  exact DeckOnly.trans ⟨_, _, rfl⟩ (DeckOnly.fold (fun n t => ⟨t.deck, _, rfl⟩) _ _)

/-- Taking a packet changes the deck and the counters alone. -/
theorem takePacket_deck (src dest : Nat) (vn : Vn) (ttag : Nat) (s : State) : DeckOnly s (takePacket src dest vn ttag s) := by
  unfold takePacket
  dsimp only
  refine (deckMoves_deck s).trans ?_
  split
  · exact ⟨_, _, rfl⟩
  · exact (DeckOnly.fold landFlight_deck _ _).trans (landFlight_deck _ _)

/-- Causes between the virtual networks go one way, so waits between them form no cycle (R301). -/
theorem mayCause_acyclic (a b c : Vn) (h : a.mayCause b = true) :
    a ≠ b ∧ b.mayCause a = false ∧ (b.mayCause c = true → c ≠ a ∧ c.mayCause a = false) := by
  revert h
  cases a <;> cases b <;> cases c <;> decide

/-! ### Girth links -/

/-- A flit changes the port and the counters, and leaves the block. -/
theorem girthFlitOut_eq (n : Nat) (m : List GirthMsg) (s : State) :
    ∃ g b o, girthFlitOut n m s = { s with girth := g, obs := b, out := s.out ++ [o] } := ⟨_, _, _, rfl⟩

/-- Pumping a port changes the ports and the counters; only flits leave. -/
theorem girthPump_eq (n fuel : Nat) (s : State) :
    ∃ g b o, girthPump n fuel s = { s with girth := g, obs := b, out := s.out ++ o } := by
  induction fuel generalizing s with
  | zero => exact ⟨s.girth, s.obs, [], by simp [girthPump]⟩
  | succ k ih =>
    unfold girthPump
    dsimp only
    split
    · exact ⟨s.girth, s.obs, [], by simp⟩
    · obtain ⟨g, b, o, e⟩ := girthFlitOut_eq n [_] (portSet n _ s)
      obtain ⟨g', b', o', e'⟩ := ih (girthFlitOut n [_] (portSet n _ s))
      rw [e', e]
      exact ⟨g', b', o :: o', by simp⟩

/-- Sending a message to a chiplet changes the ports and the counters; only flits leave. -/
theorem girthSend_eq (n : Nat) (m : GirthMsg) (s : State) :
    ∃ g b o, girthSend n m s = { s with girth := g, obs := b, out := s.out ++ o } := by
  unfold girthSend
  dsimp only
  split
  · obtain ⟨g, b, o, e⟩ := girthPump_eq n ((portGet s n).outq.length + 1) (portSet n _ s)
    exact ⟨g, b, o, by rw [e]; rfl⟩
  · exact ⟨s.girth, s.obs, [], by simp⟩

end Sys2Proof.Machine
end

