-- ==== Sys2Proof/Laws/PerInstr.lean ====
section
/-!
SUPPORT. Laws/PerInstr.lean: what holds of every command as syntax, command by command.
-/
namespace Sys2Proof.Laws

/-- No word spells the command: the opcode table gives it no bits. -/
def WordFree.Statement (i : Instr) : Prop := ∀ nbits w, decodeTableWord nbits w ≠ some i

/-- No word spells any command. -/
theorem WordFree.ofAny (i : Instr) : WordFree.Statement i := by
  intro nbits w h
  simp [decodeTableWord] at h

theorem WordFree.paceUpdate (counts : List W16) : WordFree.Statement (.paceUpdate counts) := WordFree.ofAny _
theorem WordFree.paceTargetWrite (value : W32) : WordFree.Statement (.paceTargetWrite value) := WordFree.ofAny _
theorem WordFree.trimInterval : WordFree.Statement (.trimInterval) := WordFree.ofAny _
theorem WordFree.trimAck : WordFree.Statement (.trimAck) := WordFree.ofAny _
theorem WordFree.trimRefused : WordFree.Statement (.trimRefused) := WordFree.ofAny _
theorem WordFree.trimTimeout : WordFree.Statement (.trimTimeout) := WordFree.ofAny _
theorem WordFree.trestleDispatch (core : Core) : WordFree.Statement (.trestleDispatch core) := WordFree.ofAny _
theorem WordFree.arrayStep (pier : Pier) (weight : Option WeightStep) (operand : Option OperandRead) (rowDst : Option (BitVec 19)) : WordFree.Statement (.arrayStep pier weight operand rowDst) := WordFree.ofAny _
theorem WordFree.codebookLoad (pier : Pier) (entries : List W32) : WordFree.Statement (.codebookLoad pier entries) := WordFree.ofAny _
theorem WordFree.skiveFrameDecode (pier : Pier) (slot : Fin 16) (stitch : BitVec 16) (header : W32) (scales : List Byte) (payload : List Byte) : WordFree.Statement (.skiveFrameDecode pier slot stitch header scales payload) := WordFree.ofAny _
theorem WordFree.matvec (run : Nat) (idx : Nat) : WordFree.Statement (.matvec run idx) := WordFree.ofAny _
theorem WordFree.matmul (run : Nat) (idx : Nat) : WordFree.Statement (.matmul run idx) := WordFree.ofAny _
theorem WordFree.attend (run : Nat) (idx : Nat) : WordFree.Statement (.attend run idx) := WordFree.ofAny _
theorem WordFree.norm (run : Nat) (idx : Nat) : WordFree.Statement (.norm run idx) := WordFree.ofAny _
theorem WordFree.elem (run : Nat) (idx : Nat) : WordFree.Statement (.elem run idx) := WordFree.ofAny _
theorem WordFree.reduce (run : Nat) (idx : Nat) (arrival : List (List Nat)) : WordFree.Statement (.reduce run idx arrival) := WordFree.ofAny _
theorem WordFree.route (run : Nat) (idx : Nat) : WordFree.Statement (.route run idx) := WordFree.ofAny _
theorem WordFree.sample (run : Nat) (idx : Nat) : WordFree.Statement (.sample run idx) := WordFree.ofAny _
theorem WordFree.gather (run : Nat) (idx : Nat) : WordFree.Statement (.gather run idx) := WordFree.ofAny _
theorem WordFree.scatter (run : Nat) (idx : Nat) : WordFree.Statement (.scatter run idx) := WordFree.ofAny _
theorem WordFree.offload (run : Nat) (idx : Nat) : WordFree.Statement (.offload run idx) := WordFree.ofAny _
theorem WordFree.barrier (run : Nat) (stitch : PairStitch) : WordFree.Statement (.barrier run stitch) := WordFree.ofAny _
theorem WordFree.waitReread (run : Nat) (stitch : PairStitch) : WordFree.Statement (.waitReread run stitch) := WordFree.ofAny _
theorem WordFree.signal (run : Nat) (stitch : PairStitch) : WordFree.Statement (.signal run stitch) := WordFree.ofAny _
theorem WordFree.halt (run : Nat) (stitch : W16) (code : Byte) (pier : Pier) : WordFree.Statement (.halt run stitch code pier) := WordFree.ofAny _
theorem WordFree.stitchTimeout (run : Nat) (idx : Nat) (pier : Pier) : WordFree.Statement (.stitchTimeout run idx pier) := WordFree.ofAny _
theorem WordFree.offloadTimeout (port : Port) (tag : W32) : WordFree.Statement (.offloadTimeout port tag) := WordFree.ofAny _
theorem WordFree.rawRunEnd (run : Nat) : WordFree.Statement (.rawRunEnd run) := WordFree.ofAny _
theorem WordFree.memoryRead (dpa : Dpa) (req : MemRequester) (errs : List (Fin 36 × W16)) : WordFree.Statement (.memoryRead dpa req errs) := WordFree.ofAny _
theorem WordFree.memoryWrite (dpa : Dpa) (req : MemRequester) (data : LineData) (mask : W64) (poison : Bool) : WordFree.Statement (.memoryWrite dpa req data mask poison) := WordFree.ofAny _
theorem WordFree.regionValidSet (n : Fin 64) (base : W64) : WordFree.Statement (.regionValidSet n base) := WordFree.ofAny _
theorem WordFree.regionValidClear (n : Fin 64) : WordFree.Statement (.regionValidClear n) := WordFree.ofAny _
theorem WordFree.regionLock : WordFree.Statement (.regionLock) := WordFree.ofAny _
theorem WordFree.mirrorRebuildEnd : WordFree.Statement (.mirrorRebuildEnd) := WordFree.ofAny _
theorem WordFree.patrolScrub (pier : Pier) (errs : List (Fin 36 × W16)) : WordFree.Statement (.patrolScrub pier errs) := WordFree.ofAny _
theorem WordFree.refresh (cmd : RefreshCmd) : WordFree.Statement (.refresh cmd) := WordFree.ofAny _
theorem WordFree.selfRefreshEntry (unit : RefreshUnit) : WordFree.Statement (.selfRefreshEntry unit) := WordFree.ofAny _
theorem WordFree.selfRefreshExit (unit : RefreshUnit) : WordFree.Statement (.selfRefreshExit unit) := WordFree.ofAny _
theorem WordFree.sqTailWrite (qp : Qp) (be : BitVec 2) (value : W16) : WordFree.Statement (.sqTailWrite qp be value) := WordFree.ofAny _
theorem WordFree.sqFetch (qp : Qp) : WordFree.Statement (.sqFetch qp) := WordFree.ofAny _
theorem WordFree.submit (qp : Qp) : WordFree.Statement (.submit qp) := WordFree.ofAny _
theorem WordFree.suspend (qp : Qp) : WordFree.Statement (.suspend qp) := WordFree.ofAny _
theorem WordFree.resume (qp : Qp) : WordFree.Statement (.resume qp) := WordFree.ofAny _
theorem WordFree.cancel (qp : Qp) : WordFree.Statement (.cancel qp) := WordFree.ofAny _
theorem WordFree.query (qp : Qp) : WordFree.Statement (.query qp) := WordFree.ofAny _
theorem WordFree.setPriority (qp : Qp) : WordFree.Statement (.setPriority qp) := WordFree.ofAny _
theorem WordFree.loadModel (qp : Qp) : WordFree.Statement (.loadModel qp) := WordFree.ofAny _
theorem WordFree.unload (qp : Qp) : WordFree.Statement (.unload qp) := WordFree.ofAny _
theorem WordFree.burnish (qp : Qp) : WordFree.Statement (.burnish qp) := WordFree.ofAny _
theorem WordFree.rotateKey (qp : Qp) : WordFree.Statement (.rotateKey qp) := WordFree.ofAny _
theorem WordFree.migrate (qp : Qp) : WordFree.Statement (.migrate qp) := WordFree.ofAny _
theorem WordFree.longopUnit (slot : Fin 1024) (chunk : List Byte) (tagOk : Bool) : WordFree.Statement (.longopUnit slot chunk tagOk) := WordFree.ofAny _
theorem WordFree.batchBoundary (batch : Fin 1024) : WordFree.Statement (.batchBoundary batch) := WordFree.ofAny _
theorem WordFree.recordFlush (record : Fin 262144) : WordFree.Statement (.recordFlush record) := WordFree.ofAny _
theorem WordFree.recordWrite (record : Fin 262144) : WordFree.Statement (.recordWrite record) := WordFree.ofAny _
theorem WordFree.deadlineCheck (core : Core) : WordFree.Statement (.deadlineCheck core) := WordFree.ofAny _
theorem WordFree.kvSpillDone (record : Fin 262144) (page : Nat) : WordFree.Statement (.kvSpillDone record page) := WordFree.ofAny _
theorem WordFree.kvReadbackDone (record : Fin 262144) (page : Nat) (tagOk : Bool) : WordFree.Statement (.kvReadbackDone record page tagOk) := WordFree.ofAny _
theorem WordFree.viaductFrame (f : ViaFrame) : WordFree.Statement (.viaductFrame f) := WordFree.ofAny _
theorem WordFree.fastRetrainTimeout : WordFree.Statement (.fastRetrainTimeout) := WordFree.ofAny _
theorem WordFree.trainStepDone (reversed : Bool) : WordFree.Statement (.trainStepDone reversed) := WordFree.ofAny _
theorem WordFree.trainStepTimeout : WordFree.Statement (.trainStepTimeout) := WordFree.ofAny _
theorem WordFree.trainRestart : WordFree.Statement (.trainRestart) := WordFree.ofAny _
theorem WordFree.pairKxRecord (r : PairKx) : WordFree.Statement (.pairKxRecord r) := WordFree.ofAny _
theorem WordFree.journalWrite (tag : W32) (joff : W64) (lines : List LineData) : WordFree.Statement (.journalWrite tag joff lines) := WordFree.ofAny _
theorem WordFree.journalAck (tag : W32) (status : Byte) : WordFree.Statement (.journalAck tag status) := WordFree.ofAny _
theorem WordFree.journalImage (tag : W32) (ctx : Ctx) (chunk : W32) (part : Fin 16) (units : List LineData) : WordFree.Statement (.journalImage tag ctx chunk part units) := WordFree.ofAny _
theorem WordFree.cursorUpdate (entries : List CursorEntry) : WordFree.Statement (.cursorUpdate entries) := WordFree.ofAny _
theorem WordFree.cursorInterval : WordFree.Statement (.cursorInterval) := WordFree.ofAny _
theorem WordFree.windowRead (tag : W32) (win : Byte) (ctx : Ctx) (offset : W64) (lines : W16) : WordFree.Statement (.windowRead tag win ctx offset lines) := WordFree.ofAny _
theorem WordFree.windowReadData (tag : W32) (status : Byte) (lines : List LineData) : WordFree.Statement (.windowReadData tag status lines) := WordFree.ofAny _
theorem WordFree.windowWrite (tag : W32) (win : Byte) (ctx : Ctx) (offset : W64) (firstBe lastBe : W64) (lines : List LineData) : WordFree.Statement (.windowWrite tag win ctx offset firstBe lastBe lines) := WordFree.ofAny _
theorem WordFree.windowWriteAck (tag : W32) (status : Byte) : WordFree.Statement (.windowWriteAck tag status) := WordFree.ofAny _
theorem WordFree.timeSyncInterval : WordFree.Statement (.timeSyncInterval) := WordFree.ofAny _
theorem WordFree.timeSync (tSend : W64) : WordFree.Statement (.timeSync tSend) := WordFree.ofAny _
theorem WordFree.tsSlew : WordFree.Statement (.tsSlew) := WordFree.ofAny _
theorem WordFree.timeEcho (tag : W32) (tSend : W64) : WordFree.Statement (.timeEcho tag tSend) := WordFree.ofAny _
theorem WordFree.timeEchoReply (tag : W32) (tSend : W64) (roundTripPs : Nat) : WordFree.Statement (.timeEchoReply tag tSend roundTripPs) := WordFree.ofAny _
theorem WordFree.heartbeatInterval : WordFree.Statement (.heartbeatInterval) := WordFree.ofAny _
theorem WordFree.healthBeat (b : Beat) (pairMode : Bool) (partnerSerial : W64) (tsNow : W64) : WordFree.Statement (.healthBeat b pairMode partnerSerial tsNow) := WordFree.ofAny _
theorem WordFree.presenceLossTimeout : WordFree.Statement (.presenceLossTimeout) := WordFree.ofAny _
theorem WordFree.bHoldoffExpiry : WordFree.Statement (.bHoldoffExpiry) := WordFree.ofAny _
theorem WordFree.fenceWaitExpiry : WordFree.Statement (.fenceWaitExpiry) := WordFree.ofAny _
theorem WordFree.streamTakeover (record : Fin 262144) : WordFree.Statement (.streamTakeover record) := WordFree.ofAny _
theorem WordFree.pairWaitExpiry : WordFree.Statement (.pairWaitExpiry) := WordFree.ofAny _
theorem WordFree.remirrorSlow : WordFree.Statement (.remirrorSlow) := WordFree.ofAny _
theorem WordFree.pairRelease : WordFree.Statement (.pairRelease) := WordFree.ofAny _
theorem WordFree.pairDiscard : WordFree.Statement (.pairDiscard) := WordFree.ofAny _
theorem WordFree.pbCtlWrite (value : W16) : WordFree.Statement (.pbCtlWrite value) := WordFree.ofAny _
theorem WordFree.prtPrsntN (level : Bool) : WordFree.Statement (.prtPrsntN level) := WordFree.ofAny _
theorem WordFree.prtAtnbtnN : WordFree.Statement (.prtAtnbtnN) := WordFree.ofAny _
theorem WordFree.linkUp (width : BitVec 4) (speed : BitVec 4) (flit256 : Bool) : WordFree.Statement (.linkUp width speed flit256) := WordFree.ofAny _
theorem WordFree.linkRetrain (ok : Bool) : WordFree.Statement (.linkRetrain ok) := WordFree.ofAny _
theorem WordFree.linkDrop : WordFree.Statement (.linkDrop) := WordFree.ofAny _
theorem WordFree.perst : WordFree.Statement (.perst) := WordFree.ofAny _
theorem WordFree.hotReset : WordFree.Statement (.hotReset) := WordFree.ofAny _
theorem WordFree.cxlReset : WordFree.Statement (.cxlReset) := WordFree.ofAny _
theorem WordFree.flr : WordFree.Statement (.flr) := WordFree.ofAny _
theorem WordFree.flrComplete : WordFree.Statement (.flrComplete) := WordFree.ofAny _
theorem WordFree.bmeClear : WordFree.Statement (.bmeClear) := WordFree.ofAny _
theorem WordFree.bmeSet : WordFree.Statement (.bmeSet) := WordFree.ofAny _
theorem WordFree.d3hotEntry : WordFree.Statement (.d3hotEntry) := WordFree.ofAny _
theorem WordFree.hdmCommit (n : Fin 4) : WordFree.Statement (.hdmCommit n) := WordFree.ofAny _
theorem WordFree.hostMemAccess (hpa : W64) (req : HostMemReq) : WordFree.Statement (.hostMemAccess hpa req) := WordFree.ofAny _
theorem WordFree.biconflict (line : LineAddr) (tag : W16) : WordFree.Statement (.biconflict line tag) := WordFree.ofAny _
theorem WordFree.bar4Access (offset : BitVec 31) (write : Option (LineData × W64)) : WordFree.Statement (.bar4Access offset write) := WordFree.ofAny _
theorem WordFree.unsupportedRequest (r : BadRequest) : WordFree.Statement (.unsupportedRequest r) := WordFree.ofAny _
theorem WordFree.expansionRomRead (offset : BitVec 24) (data : W32) : WordFree.Statement (.expansionRomRead offset data) := WordFree.ofAny _
theorem WordFree.flashReadTimeout : WordFree.Statement (.flashReadTimeout) := WordFree.ofAny _
theorem WordFree.ctxBind (value : W64) : WordFree.Statement (.ctxBind value) := WordFree.ofAny _
theorem WordFree.ctxUnbind (value : W64) : WordFree.Statement (.ctxUnbind value) := WordFree.ofAny _
theorem WordFree.bindLockoutExpiry (ctx : Ctx) : WordFree.Statement (.bindLockoutExpiry ctx) := WordFree.ofAny _
theorem WordFree.qpArm (qp : Qp) (word3 : W64) : WordFree.Statement (.qpArm qp word3) := WordFree.ofAny _
theorem WordFree.qpDisarm (qp : Qp) : WordFree.Statement (.qpDisarm qp) := WordFree.ofAny _
theorem WordFree.qpDisarmComplete (qp : Qp) : WordFree.Statement (.qpDisarmComplete qp) := WordFree.ofAny _
theorem WordFree.cqHeadWrite (qp : Qp) (be : BitVec 2) (value : W16) : WordFree.Statement (.cqHeadWrite qp be value) := WordFree.ofAny _
theorem WordFree.completionWrite (qp : Qp) : WordFree.Statement (.completionWrite qp) := WordFree.ofAny _
theorem WordFree.coalTimeout (qp : Qp) : WordFree.Statement (.coalTimeout qp) := WordFree.ofAny _
theorem WordFree.msixUnmask (vector : Option (Fin 2048)) : WordFree.Statement (.msixUnmask vector) := WordFree.ofAny _
theorem WordFree.intxClear (word : Fin 32) (ones : W64) : WordFree.Statement (.intxClear word ones) := WordFree.ofAny _
theorem WordFree.hostReadCompletion (tag : BitVec 14) (status : CplStatus) (data : List Byte) : WordFree.Statement (.hostReadCompletion tag status data) := WordFree.ofAny _
theorem WordFree.completionTimeout (tag : BitVec 14) : WordFree.Statement (.completionTimeout tag) := WordFree.ofAny _
theorem WordFree.lateCompletion (tag : BitVec 14) : WordFree.Statement (.lateCompletion tag) := WordFree.ofAny _
theorem WordFree.tagQuarantineExpiry (tag : BitVec 14) : WordFree.Statement (.tagQuarantineExpiry tag) := WordFree.ofAny _
theorem WordFree.ideFailure (stream : IdeStream) : WordFree.Statement (.ideFailure stream) := WordFree.ofAny _
theorem WordFree.rdS (slot : Fin 9) (ctx : Ctx) (line : LineAddr) (txn : BitVec 12) : WordFree.Statement (.rdS slot ctx line txn) := WordFree.ofAny _
theorem WordFree.rdX (slot : Fin 9) (ctx : Ctx) (line : LineAddr) (txn : BitVec 12) : WordFree.Statement (.rdX slot ctx line txn) := WordFree.ofAny _
theorem WordFree.upg (slot : Fin 9) (ctx : Ctx) (line : LineAddr) (txn : BitVec 12) : WordFree.Statement (.upg slot ctx line txn) := WordFree.ofAny _
theorem WordFree.rdCur (r : Requester) (ctx : Ctx) (line : LineAddr) (txn : BitVec 12) : WordFree.Statement (.rdCur r ctx line txn) := WordFree.ofAny _
theorem WordFree.wb (slot : Fin 9) (line : LineAddr) (data : LineData) (poison : Bool) : WordFree.Statement (.wb slot line data poison) := WordFree.ofAny _
theorem WordFree.cevict (slot : Fin 9) (line : LineAddr) : WordFree.Statement (.cevict slot line) := WordFree.ofAny _
theorem WordFree.wrInv (r : Requester) (ctx : Ctx) (line : LineAddr) (data : LineData) (mask : W64) (poison : Bool) (txn : BitVec 12) : WordFree.Statement (.wrInv r ctx line data mask poison txn) := WordFree.ofAny _
theorem WordFree.flush (line : LineAddr) : WordFree.Statement (.flush line) := WordFree.ofAny _
theorem WordFree.snpS (copy : SnpTo) (line : BitVec 46) : WordFree.Statement (.snpS copy line) := WordFree.ofAny _
theorem WordFree.snpInv (copy : SnpTo) (line : BitVec 46) : WordFree.Statement (.snpInv copy line) := WordFree.ofAny _
theorem WordFree.snpCur (copy : SnpTo) (line : BitVec 46) : WordFree.Statement (.snpCur copy line) := WordFree.ofAny _
theorem WordFree.snpClean (slot : Fin 9) (line : LineAddr) : WordFree.Statement (.snpClean slot line) := WordFree.ofAny _
theorem WordFree.rspI (slot : Fin 9) (line : LineAddr) : WordFree.Statement (.rspI slot line) := WordFree.ofAny _
theorem WordFree.rspIWb (slot : Fin 9) (line : LineAddr) : WordFree.Statement (.rspIWb slot line) := WordFree.ofAny _
theorem WordFree.rspS (slot : Fin 9) (line : LineAddr) (dirty : Option LineData) (poison : Bool) : WordFree.Statement (.rspS slot line dirty poison) := WordFree.ofAny _
theorem WordFree.rspFwd (slot : Fin 9) (line : LineAddr) (data : LineData) (dirty : Bool) (poison : Bool) : WordFree.Statement (.rspFwd slot line data dirty poison) := WordFree.ofAny _
theorem WordFree.fwdData (port : Port) (route : W16) (rtxn : W16) (data : LineData) (poison : Bool) : WordFree.Statement (.fwdData port route rtxn data poison) := WordFree.ofAny _
theorem WordFree.cmp (line : LineAddr) : WordFree.Statement (.cmp line) := WordFree.ofAny _
theorem WordFree.grantAck (slot : Fin 9) (line : LineAddr) : WordFree.Statement (.grantAck slot line) := WordFree.ofAny _
theorem WordFree.grantHoldExpiry (line : LineAddr) : WordFree.Statement (.grantHoldExpiry line) := WordFree.ofAny _
theorem WordFree.wbAck (slot : Fin 9) (line : LineAddr) : WordFree.Statement (.wbAck slot line) := WordFree.ofAny _
theorem WordFree.retry (r : Requester) (line : LineAddr) : WordFree.Statement (.retry r line) := WordFree.ofAny _
theorem WordFree.goRetry (line : LineAddr) : WordFree.Statement (.goRetry line) := WordFree.ofAny _
theorem WordFree.trackInc (line : LineAddr) : WordFree.Statement (.trackInc line) := WordFree.ofAny _
theorem WordFree.trackIncAck (line : LineAddr) : WordFree.Statement (.trackIncAck line) := WordFree.ofAny _
theorem WordFree.trackDec (line : LineAddr) : WordFree.Statement (.trackDec line) := WordFree.ofAny _
theorem WordFree.homeTimeout (slot : Fin 9) (line : LineAddr) : WordFree.Statement (.homeTimeout slot line) := WordFree.ofAny _
theorem WordFree.homeMoveDone (slot : Fin 9) (quarter : Fin 4) : WordFree.Statement (.homeMoveDone slot quarter) := WordFree.ofAny _
theorem WordFree.qmoveSweepEnd (quarter : Fin 4) : WordFree.Statement (.qmoveSweepEnd quarter) := WordFree.ofAny _
theorem WordFree.forcedSwWrite (value : Bool) : WordFree.Statement (.forcedSwWrite value) := WordFree.ofAny _
theorem WordFree.dcRead (cls : Fin 16) (space : Bool) (line : BitVec 46) (fill : LineData) (fillPoison : Bool) : WordFree.Statement (.dcRead cls space line fill fillPoison) := WordFree.ofAny _
theorem WordFree.dcStore (cls : Fin 16) (space : Bool) (line : BitVec 46) (data : LineData) (mask : W64) : WordFree.Statement (.dcStore cls space line data mask) := WordFree.ofAny _
theorem WordFree.dcFence (cls : Fin 16) : WordFree.Statement (.dcFence cls) := WordFree.ofAny _
theorem WordFree.mergeTimeout (slice : Fin 16) (space : Bool) (line : BitVec 46) : WordFree.Statement (.mergeTimeout slice space line) := WordFree.ofAny _
theorem WordFree.dcRangeInv (value : W64) : WordFree.Statement (.dcRangeInv value) := WordFree.ofAny _
theorem WordFree.dcRangeInvEnd : WordFree.Statement (.dcRangeInvEnd) := WordFree.ofAny _
theorem WordFree.walk (engine : Engine) (walker : Fin 32) : WordFree.Statement (.walk engine walker) := WordFree.ofAny _
theorem WordFree.atsTranslationCompletion (engine : Engine) (hpa : BitVec 52) (size : BitVec 2) (r w : Bool) : WordFree.Statement (.atsTranslationCompletion engine hpa size r w) := WordFree.ofAny _
theorem WordFree.prgResponse (index : Fin 512) (code : Fin 3) : WordFree.Statement (.prgResponse index code) := WordFree.ofAny _
theorem WordFree.priTimeout (index : Fin 512) : WordFree.Statement (.priTimeout index) := WordFree.ofAny _
theorem WordFree.prgQuarantineExpiry (index : Fin 512) : WordFree.Statement (.prgQuarantineExpiry index) := WordFree.ofAny _
theorem WordFree.priEnable (value : Bool) : WordFree.Statement (.priEnable value) := WordFree.ofAny _
theorem WordFree.atsInvalidate (itag : Fin 32) (pasid : BitVec 20) (va : W64) (bytes : Nat) (global : Bool) : WordFree.Statement (.atsInvalidate itag pasid va bytes global) := WordFree.ofAny _
theorem WordFree.atsInvalidateCompletion (itag : Fin 32) : WordFree.Statement (.atsInvalidateCompletion itag) := WordFree.ofAny _
theorem WordFree.transferDescriptor (engine : Engine) (desc : BitVec 512) : WordFree.Statement (.transferDescriptor engine desc) := WordFree.ofAny _
theorem WordFree.transferChunkEnd (engine : Engine) (data : List LineData) : WordFree.Statement (.transferChunkEnd engine data) := WordFree.ofAny _
theorem WordFree.heatDecay : WordFree.Statement (.heatDecay) := WordFree.ofAny _
theorem WordFree.hotRingEnable (value : W32) : WordFree.Statement (.hotRingEnable value) := WordFree.ofAny _
theorem WordFree.ctxRootWrite (ctx : Ctx) (value : W64) : WordFree.Statement (.ctxRootWrite ctx value) := WordFree.ofAny _
theorem WordFree.pteFormatValidate : WordFree.Statement (.pteFormatValidate) := WordFree.ofAny _
theorem WordFree.girthFlit (port : Port) (f : GirthFlit) : WordFree.Statement (.girthFlit port f) := WordFree.ofAny _
theorem WordFree.girthKeepalive (port : Port) : WordFree.Statement (.girthKeepalive port) := WordFree.ofAny _
theorem WordFree.girthLinkIdleTimeout (port : Port) : WordFree.Statement (.girthLinkIdleTimeout port) := WordFree.ofAny _
theorem WordFree.girthRetrainEnd (port : Port) (ok : Bool) : WordFree.Statement (.girthRetrainEnd port ok) := WordFree.ofAny _
theorem WordFree.hRd (port : Port) (txn : BitVec 12) (ctx : Ctx) (line : BitVec 46) (fill : LineData) (fillPoison : Bool) : WordFree.Statement (.hRd port txn ctx line fill fillPoison) := WordFree.ofAny _
theorem WordFree.hWr (port : Port) (txn : BitVec 12) (ctx : Ctx) (line : BitVec 46) (data : LineData) (mask : W64) : WordFree.Statement (.hWr port txn ctx line data mask) := WordFree.ofAny _
theorem WordFree.offloadItemSend (port : Port) : WordFree.Statement (.offloadItemSend port) := WordFree.ofAny _
theorem WordFree.offloadCmp (port : Port) (tag : W32) (status : Byte) : WordFree.Statement (.offloadCmp port tag status) := WordFree.ofAny _
theorem WordFree.abortDone (port : Port) (tag : W32) : WordFree.Statement (.abortDone port tag) := WordFree.ofAny _
theorem WordFree.abortTicksExpiry (port : Port) : WordFree.Statement (.abortTicksExpiry port) := WordFree.ofAny _
theorem WordFree.hello (port : Port) (body : HelloBody) : WordFree.Statement (.hello port body) := WordFree.ofAny _
theorem WordFree.credit (port : Port) (counts : List W16) : WordFree.Statement (.credit port counts) := WordFree.ofAny _
theorem WordFree.ready (port : Port) : WordFree.Statement (.ready port) := WordFree.ofAny _
theorem WordFree.quiesceDone (port : Port) : WordFree.Statement (.quiesceDone port) := WordFree.ofAny _
theorem WordFree.chipletError (port : Port) (code : Byte) : WordFree.Statement (.chipletError port code) := WordFree.ofAny _
theorem WordFree.girthKeyExchange (port : Port) (m : GirthKx) : WordFree.Statement (.girthKeyExchange port m) := WordFree.ofAny _
theorem WordFree.gpStart (port : Port) : WordFree.Statement (.gpStart port) := WordFree.ofAny _
theorem WordFree.gpPwrgd (port : Port) : WordFree.Statement (.gpPwrgd port) := WordFree.ofAny _
theorem WordFree.girthTrainDone (port : Port) : WordFree.Statement (.girthTrainDone port) := WordFree.ofAny _
theorem WordFree.girthStartTimeout (port : Port) : WordFree.Statement (.girthStartTimeout port) := WordFree.ofAny _
theorem WordFree.gpStop (port : Port) : WordFree.Statement (.gpStop port) := WordFree.ofAny _
theorem WordFree.gpFence (port : Port) : WordFree.Statement (.gpFence port) := WordFree.ofAny _
theorem WordFree.gpPrsntN (port : Port) (level : Bool) : WordFree.Statement (.gpPrsntN port level) := WordFree.ofAny _
theorem WordFree.girthSweepEnd (port : Port) : WordFree.Statement (.girthSweepEnd port) := WordFree.ofAny _
theorem WordFree.deckTimeout (unit : BitVec 9) (ttag : W16) (dest : BitVec 9) (line : LineAddr) (write resent : Bool) : WordFree.Statement (.deckTimeout unit ttag dest line write resent) := WordFree.ofAny _
theorem WordFree.ttagQuarantineExpiry (unit : BitVec 9) (how : QuarantineEnd) : WordFree.Statement (.ttagQuarantineExpiry unit how) := WordFree.ofAny _
theorem WordFree.domainOff (unit : BitVec 9) (ttag : W16) (dest : BitVec 9) (line : LineAddr) (write resent : Bool) : WordFree.Statement (.domainOff unit ttag dest line write resent) := WordFree.ofAny _
theorem WordFree.routeRetire : WordFree.Statement (.routeRetire) := WordFree.ofAny _
theorem WordFree.pdReqOff (d : Domain) : WordFree.Statement (.pdReqOff d) := WordFree.ofAny _
theorem WordFree.pdReqOn (d : Domain) : WordFree.Statement (.pdReqOn d) := WordFree.ofAny _
theorem WordFree.domainPowerDrop (d : Domain) : WordFree.Statement (.domainPowerDrop d) := WordFree.ofAny _
theorem WordFree.domainWakeEnd (d : Domain) : WordFree.Statement (.domainWakeEnd d) := WordFree.ofAny _
theorem WordFree.join (op : Nat) (first last leaf : Fin 384) : WordFree.Statement (.join op first last leaf) := WordFree.ofAny _
theorem WordFree.bcast (first : Fin 384) (last : Fin 384) (value : W64) : WordFree.Statement (.bcast first last value) := WordFree.ofAny _
theorem WordFree.andOp (op : Nat) (first last leaf : Fin 384) (bit : Bool) : WordFree.Statement (.andOp op first last leaf bit) := WordFree.ofAny _
theorem WordFree.snap (op : Nat) (first last leaf : Fin 384) : WordFree.Statement (.snap op first last leaf) := WordFree.ofAny _
theorem WordFree.resetOp (op : Nat) (first last leaf : Fin 384) : WordFree.Statement (.resetOp op first last leaf) := WordFree.ofAny _
theorem WordFree.faultLatch (source : Fin 2944) (cls : FaultClass) (what : PairEvent) (detail : W32) : WordFree.Statement (.faultLatch source cls what detail) := WordFree.ofAny _
theorem WordFree.failingBeatSent : WordFree.Statement (.failingBeatSent) := WordFree.ofAny _
theorem WordFree.trap : WordFree.Statement (.trap) := WordFree.ofAny _
theorem WordFree.fence (b : Block) (source : Fin 2944) : WordFree.Statement (.fence b source) := WordFree.ofAny _
theorem WordFree.fenceDrainTimeout (d : Domain) : WordFree.Statement (.fenceDrainTimeout d) := WordFree.ofAny _
theorem WordFree.blkrst (b : Block) (source : Fin 2944) : WordFree.Statement (.blkrst b source) := WordFree.ofAny _
theorem WordFree.blkrstEnd (b : Block) : WordFree.Statement (.blkrstEnd b) := WordFree.ofAny _
theorem WordFree.blkrstTimeout (b : Block) : WordFree.Statement (.blkrstTimeout b) := WordFree.ofAny _
theorem WordFree.fenceReply : WordFree.Statement (.fenceReply) := WordFree.ofAny _
theorem WordFree.faultClear (source : Fin 2944) (ones : Byte) : WordFree.Statement (.faultClear source ones) := WordFree.ofAny _
theorem WordFree.fsCfgWrite (source : Fin 2944) (value : W64) : WordFree.Statement (.fsCfgWrite source value) := WordFree.ofAny _
theorem WordFree.fcLock : WordFree.Statement (.fcLock) := WordFree.ofAny _
theorem WordFree.fsCfgSweep (parityError : Bool) : WordFree.Statement (.fsCfgSweep parityError) := WordFree.ofAny _
theorem WordFree.safeEnter (cause : BitVec 2) : WordFree.Statement (.safeEnter cause) := WordFree.ofAny _
theorem WordFree.getVersion (session : SessionId) : WordFree.Statement (.getVersion session) := WordFree.ofAny _
theorem WordFree.getCapabilities (session : SessionId) : WordFree.Statement (.getCapabilities session) := WordFree.ofAny _
theorem WordFree.negotiateAlgorithms (session : SessionId) : WordFree.Statement (.negotiateAlgorithms session) := WordFree.ofAny _
theorem WordFree.getDigests (session : SessionId) : WordFree.Statement (.getDigests session) := WordFree.ofAny _
theorem WordFree.getCertificate (session : SessionId) (offset length : W16) : WordFree.Statement (.getCertificate session offset length) := WordFree.ofAny _
theorem WordFree.challenge (session : SessionId) (nonce : BitVec 256) : WordFree.Statement (.challenge session nonce) := WordFree.ofAny _
theorem WordFree.getMeasurements (session : SessionId) (index : Byte) (signed : Bool) : WordFree.Statement (.getMeasurements session index signed) := WordFree.ofAny _
theorem WordFree.keyExchange (mutualAuth : Bool) : WordFree.Statement (.keyExchange mutualAuth) := WordFree.ofAny _
theorem WordFree.finish (session : Fin 16) (ok : Bool) (requesterKey : Nat) : WordFree.Statement (.finish session ok requesterKey) := WordFree.ofAny _
theorem WordFree.heartbeat (session : SessionId) : WordFree.Statement (.heartbeat session) := WordFree.ofAny _
theorem WordFree.keyUpdate (session : SessionId) : WordFree.Statement (.keyUpdate session) := WordFree.ofAny _
theorem WordFree.endSession (session : SessionId) : WordFree.Statement (.endSession session) := WordFree.ofAny _
theorem WordFree.chunkSend (session : SessionId) (handle : Byte) (seq : W16) (last : Bool) (bytes : List Byte) : WordFree.Statement (.chunkSend session handle seq last bytes) := WordFree.ofAny _
theorem WordFree.chunkGet (session : SessionId) (handle : Byte) (seq : W16) : WordFree.Statement (.chunkGet session handle seq) := WordFree.ofAny _
theorem WordFree.encapsulatedResponse (session : Fin 16) (certificate : Bool) (keyHash : Nat) : WordFree.Statement (.encapsulatedResponse session certificate keyHash) := WordFree.ofAny _
theorem WordFree.ideKm (session : SessionId) (stream : IdeStream) (go : Bool) : WordFree.Statement (.ideKm session stream go) := WordFree.ofAny _
theorem WordFree.ctxSelect (session : SessionId) (context : W16) : WordFree.Statement (.ctxSelect session context) := WordFree.ofAny _
theorem WordFree.ctxCreate (session : SessionId) (context : W16) (allowHost : Bool) (rsv : BitVec 47) (cred : W64) : WordFree.Statement (.ctxCreate session context allowHost rsv cred) := WordFree.ofAny _
theorem WordFree.keyRelease (session : SessionId) (context : W16) (rsv : W16) (keyId : W32) (modelKey : BitVec 256) : WordFree.Statement (.keyRelease session context rsv keyId modelKey) := WordFree.ofAny _
theorem WordFree.retire (session : SessionId) (serial : W64) (sigOk : Bool) : WordFree.Statement (.retire session serial sigOk) := WordFree.ofAny _
theorem WordFree.ctxAdmitWrite (ctx : Ctx) (value : W64) : WordFree.Statement (.ctxAdmitWrite ctx value) := WordFree.ofAny _
theorem WordFree.powerOn : WordFree.Statement (.powerOn) := WordFree.ofAny _
theorem WordFree.modRstNFall : WordFree.Statement (.modRstNFall) := WordFree.ofAny _
theorem WordFree.modRstNRise : WordFree.Statement (.modRstNRise) := WordFree.ofAny _
theorem WordFree.startStepEnd (ok : Bool) (rails : RailRead) (failedStacks : BitVec 4) (late : List (Fin 332)) : WordFree.Statement (.startStepEnd ok rails failedStacks late) := WordFree.ofAny _
theorem WordFree.startStepTimeout : WordFree.Statement (.startStepTimeout) := WordFree.ofAny _
theorem WordFree.startupDone : WordFree.Statement (.startupDone) := WordFree.ofAny _
theorem WordFree.railAlert (answer : Option RailRead) : WordFree.Statement (.railAlert answer) := WordFree.ofAny _
theorem WordFree.pmReadTimeout : WordFree.Statement (.pmReadTimeout) := WordFree.ofAny _
theorem WordFree.thermalReading (tj : Int) : WordFree.Statement (.thermalReading tj) := WordFree.ofAny _
theorem WordFree.thermalTimeout : WordFree.Statement (.thermalTimeout) := WordFree.ofAny _
theorem WordFree.vcoreOutOfRange (mv : W16) : WordFree.Statement (.vcoreOutOfRange mv) := WordFree.ofAny _
theorem WordFree.jtagInstruction (instruction : JtagInstr) : WordFree.Statement (.jtagInstruction instruction) := WordFree.ofAny _
theorem WordFree.usdoUploadInitiate (client : Fin 128) (dest : Byte) (index : W16) (sub : Byte) (kind : UsdoKind) : WordFree.Statement (.usdoUploadInitiate client dest index sub kind) := WordFree.ofAny _
theorem WordFree.usdoDownloadInitiate (client : Fin 128) (dest : Byte) (index : W16) (sub : Byte) (kind : UsdoKind) (value : List Byte) : WordFree.Statement (.usdoDownloadInitiate client dest index sub kind value) := WordFree.ofAny _
theorem WordFree.usdoSegment (client : Fin 128) (bytes : List Byte) (last : Bool) : WordFree.Statement (.usdoSegment client bytes last) := WordFree.ofAny _
theorem WordFree.usdoTimeout (client : Fin 128) : WordFree.Statement (.usdoTimeout client) := WordFree.ofAny _
theorem WordFree.classicCanFrame : WordFree.Statement (.classicCanFrame) := WordFree.ofAny _
theorem WordFree.nmtStart : WordFree.Statement (.nmtStart) := WordFree.ofAny _
theorem WordFree.nmtStop : WordFree.Statement (.nmtStop) := WordFree.ofAny _
theorem WordFree.nmtPreOperational : WordFree.Statement (.nmtPreOperational) := WordFree.ofAny _
theorem WordFree.nmtResetNode : WordFree.Statement (.nmtResetNode) := WordFree.ofAny _
theorem WordFree.nmtResetCommunication : WordFree.Statement (.nmtResetCommunication) := WordFree.ofAny _
theorem WordFree.lssConfigureNodeId (id : Byte) : WordFree.Statement (.lssConfigureNodeId id) := WordFree.ofAny _
theorem WordFree.lssStoreConfiguration : WordFree.Statement (.lssStoreConfiguration) := WordFree.ofAny _
theorem WordFree.canHeartbeat : WordFree.Statement (.canHeartbeat) := WordFree.ofAny _
theorem WordFree.emcyInhibitExpiry : WordFree.Statement (.emcyInhibitExpiry) := WordFree.ofAny _
theorem WordFree.dictRead (path : DictPath) : WordFree.Statement (.dictRead path) := WordFree.ofAny _
theorem WordFree.dictWrite (path : DictPath) : WordFree.Statement (.dictWrite path) := WordFree.ofAny _
theorem WordFree.sbGo (c : Channel) (actor : SbActor) (len : BitVec 5) : WordFree.Statement (.sbGo c actor len) := WordFree.ofAny _
theorem WordFree.sbAck (c : Channel) (actor : SbActor) (status : Byte) (detail : Byte) : WordFree.Statement (.sbAck c actor status detail) := WordFree.ofAny _
theorem WordFree.sbBind (c : Channel) (receiver : Bool) (code : Byte) : WordFree.Statement (.sbBind c receiver code) := WordFree.ofAny _
theorem WordFree.sbLock : WordFree.Statement (.sbLock) := WordFree.ofAny _
theorem WordFree.sbHostMaskWrite (value : W32) : WordFree.Statement (.sbHostMaskWrite value) := WordFree.ofAny _
theorem WordFree.traceRecord (event : Byte) (unit : BitVec 9) (a b : W64) : WordFree.Statement (.traceRecord event unit a b) := WordFree.ofAny _
theorem WordFree.tracePortSend : WordFree.Statement (.tracePortSend) := WordFree.ofAny _
theorem WordFree.traceRingWrite : WordFree.Statement (.traceRingWrite) := WordFree.ofAny _
theorem WordFree.traceBufEnable : WordFree.Statement (.traceBufEnable) := WordFree.ofAny _
theorem WordFree.snapGo : WordFree.Statement (.snapGo) := WordFree.ofAny _
theorem WordFree.snapshotEnd : WordFree.Statement (.snapshotEnd) := WordFree.ofAny _
theorem WordFree.registerWrite (w : RegWrite) : WordFree.Statement (.registerWrite w) := WordFree.ofAny _
theorem WordFree.viaductFrameSend : WordFree.Statement (.viaductFrameSend) := WordFree.ofAny _
theorem WordFree.cxlResetComplete : WordFree.Statement (.cxlResetComplete) := WordFree.ofAny _
theorem WordFree.prefillRunEnd (record : Fin 262144) : WordFree.Statement (.prefillRunEnd record) := WordFree.ofAny _
theorem WordFree.canErrorState (e : CanErr) (tec rxec : Byte) : WordFree.Statement (.canErrorState e tec rxec) := WordFree.ofAny _

end Sys2Proof.Laws
end

