-- ==== Sys2Proof/WellFormed.lean ====
section
/-!
DEFINITION. WellFormed.lean: the shapes the spec gives the operands of a command that Lean's types do not fix.
-/
namespace Sys2Proof

/-- A line of device memory has 32 bits, a line of the host 46 (R233, R253). -/
def snpLineOk (copy : SnpTo) (line : BitVec 46) : Bool :=
  match copy with
  | .agent _ => decide (line.toNat < 2 ^ 32)
  | .hostLine => true

/-- The operands have the shape the command's rule gives them. -/
def Instr.wellFormed (i : Instr) : Bool :=
  match i with
  | .paceUpdate counts => decide (counts.length = 16)
  | .paceTargetWrite _ => true
  | .trimInterval => true
  | .trimAck => true
  | .trimRefused => true
  | .trimTimeout => true
  | .trestleDispatch _ => true
  | .arrayStep _ _ operand _ => (match operand with | some o => decide (o.lanes.length = 16) | none => true)
  | .codebookLoad _ entries => decide (entries.length = 4096)
  | .skiveFrameDecode _ _ _ _ _ _ => true
  | .matvec _ _ => true
  | .matmul _ _ => true
  | .attend _ _ => true
  | .norm _ _ => true
  | .elem _ _ => true
  | .reduce _ _ arrival => arrival.all (fun l => decide l.Nodup)
  | .route _ _ => true
  | .sample _ _ => true
  | .gather _ _ => true
  | .scatter _ _ => true
  | .offload _ _ => true
  | .barrier _ _ => true
  | .waitReread _ _ => true
  | .signal _ _ => true
  | .halt _ _ _ _ => true
  | .stitchTimeout _ _ _ => true
  | .offloadTimeout _ _ => true
  | .rawRunEnd _ => true
  | .memoryRead _ _ errs => decide (errs.map (·.1)).Nodup
  | .memoryWrite _ _ _ _ _ => true
  | .regionValidSet _ _ => true
  | .regionValidClear _ => true
  | .regionLock => true
  | .mirrorRebuildEnd => true
  | .patrolScrub _ errs => decide (errs.map (·.1)).Nodup
  | .refresh cmd =>
    (match cmd.target with
     | .unit (.tier _ _) => cmd.reading.isNone
     | _ => true)
  | .selfRefreshEntry _ => true
  | .selfRefreshExit _ => true
  | .sqTailWrite _ _ _ => true
  | .sqFetch _ => true
  | .submit _ => true
  | .suspend _ => true
  | .resume _ => true
  | .cancel _ => true
  | .query _ => true
  | .setPriority _ => true
  | .loadModel _ => true
  | .unload _ => true
  | .burnish _ => true
  | .rotateKey _ => true
  | .migrate _ => true
  | .longopUnit _ _ _ => true
  | .batchBoundary _ => true
  | .recordFlush _ => true
  | .recordWrite _ => true
  | .deadlineCheck _ => true
  | .kvSpillDone _ _ => true
  | .kvReadbackDone _ _ _ => true
  | .viaductFrame _ => true
  | .fastRetrainTimeout => true
  | .trainStepDone _ => true
  | .trainStepTimeout => true
  | .trainRestart => true
  | .pairKxRecord _ => true
  | .journalWrite _ _ lines => decide (lines.length ≤ 64)
  | .journalAck _ _ => true
  | .journalImage _ _ _ _ units => decide (units.length ≤ 64)
  | .cursorUpdate _ => true
  | .cursorInterval => true
  | .windowRead _ _ _ _ _ => true
  | .windowReadData _ _ lines => decide (lines.length ≤ 64)
  | .windowWrite _ _ _ _ _ _ lines => decide (lines.length ≤ 64)
  | .windowWriteAck _ _ => true
  | .timeSyncInterval => true
  | .timeSync _ => true
  | .tsSlew => true
  | .timeEcho _ _ => true
  | .timeEchoReply _ _ _ => true
  | .heartbeatInterval => true
  | .healthBeat _ _ _ _ => true
  | .presenceLossTimeout => true
  | .bHoldoffExpiry => true
  | .fenceWaitExpiry => true
  | .streamTakeover _ => true
  | .pairWaitExpiry => true
  | .remirrorSlow => true
  | .pairRelease => true
  | .pairDiscard => true
  | .pbCtlWrite _ => true
  | .prtPrsntN _ => true
  | .prtAtnbtnN => true
  | .linkUp _ _ _ => true
  | .linkRetrain _ => true
  | .linkDrop => true
  | .perst => true
  | .hotReset => true
  | .cxlReset => true
  | .flr => true
  | .flrComplete => true
  | .bmeClear => true
  | .bmeSet => true
  | .d3hotEntry => true
  | .hdmCommit _ => true
  | .hostMemAccess _ _ => true
  | .biconflict _ _ => true
  | .bar4Access _ _ => true
  | .unsupportedRequest _ => true
  | .expansionRomRead _ _ => true
  | .flashReadTimeout => true
  | .ctxBind _ => true
  | .ctxUnbind _ => true
  | .bindLockoutExpiry _ => true
  | .qpArm _ _ => true
  | .qpDisarm _ => true
  | .qpDisarmComplete _ => true
  | .cqHeadWrite _ _ _ => true
  | .completionWrite _ => true
  | .coalTimeout _ => true
  | .msixUnmask _ => true
  | .intxClear _ _ => true
  | .hostReadCompletion _ _ _ => true
  | .completionTimeout _ => true
  | .lateCompletion _ => true
  | .tagQuarantineExpiry _ => true
  | .ideFailure _ => true
  | .rdS _ _ _ _ => true
  | .rdX _ _ _ _ => true
  | .upg _ _ _ _ => true
  | .rdCur _ _ _ _ => true
  | .wb _ _ _ _ => true
  | .cevict _ _ => true
  | .wrInv _ _ _ _ _ _ _ => true
  | .flush _ => true
  | .snpS copy line => snpLineOk copy line
  | .snpInv copy line => snpLineOk copy line
  | .snpCur copy line => snpLineOk copy line
  | .snpClean _ _ => true
  | .rspI _ _ => true
  | .rspIWb _ _ => true
  | .rspS _ _ _ _ => true
  | .rspFwd _ _ _ _ _ => true
  | .fwdData _ _ _ _ _ => true
  | .cmp _ => true
  | .grantAck _ _ => true
  | .grantHoldExpiry _ => true
  | .wbAck _ _ => true
  | .retry _ _ => true
  | .goRetry _ => true
  | .trackInc _ => true
  | .trackIncAck _ => true
  | .trackDec _ => true
  | .homeTimeout _ _ => true
  | .homeMoveDone _ _ => true
  | .qmoveSweepEnd _ => true
  | .forcedSwWrite _ => true
  | .dcRead _ _ _ _ _ => true
  | .dcStore _ _ _ _ _ => true
  | .dcFence _ => true
  | .mergeTimeout _ _ _ => true
  | .dcRangeInv _ => true
  | .dcRangeInvEnd => true
  | .walk _ _ => true
  | .atsTranslationCompletion _ _ _ _ _ => true
  | .prgResponse _ _ => true
  | .priTimeout _ => true
  | .prgQuarantineExpiry _ => true
  | .priEnable _ => true
  | .atsInvalidate _ _ _ _ _ => true
  | .atsInvalidateCompletion _ => true
  | .transferDescriptor _ _ => true
  | .transferChunkEnd _ _ => true
  | .heatDecay => true
  | .hotRingEnable _ => true
  | .ctxRootWrite _ _ => true
  | .pteFormatValidate => true
  | .girthFlit _ f => f.slots.length = 5 && f.slots.foldl (· + ·) 0 ≤ 14
  | .girthKeepalive _ => true
  | .girthLinkIdleTimeout _ => true
  | .girthRetrainEnd _ _ => true
  | .hRd _ _ _ _ _ _ => true
  | .hWr _ _ _ _ _ _ => true
  | .offloadItemSend _ => true
  | .offloadCmp _ _ _ => true
  | .abortDone _ _ => true
  | .abortTicksExpiry _ => true
  | .hello _ _ => true
  | .credit _ counts => decide (counts.length = 5)
  | .ready _ => true
  | .quiesceDone _ => true
  | .chipletError _ _ => true
  | .girthKeyExchange _ _ => true
  | .gpStart _ => true
  | .gpPwrgd _ => true
  | .girthTrainDone _ => true
  | .girthStartTimeout _ => true
  | .gpStop _ => true
  | .gpFence _ => true
  | .gpPrsntN _ _ => true
  | .girthSweepEnd _ => true
  | .deckTimeout _ _ _ _ _ _ => true
  | .ttagQuarantineExpiry _ _ => true
  | .domainOff _ _ _ _ _ _ => true
  | .routeRetire => true
  | .pdReqOff _ => true
  | .pdReqOn _ => true
  | .domainPowerDrop _ => true
  | .domainWakeEnd _ => true
  | .join _ first last leaf => decide (first ≤ leaf ∧ leaf ≤ last)
  | .bcast first last _ => decide (first ≤ last)
  | .andOp _ first last leaf _ => decide (first ≤ leaf ∧ leaf ≤ last)
  | .snap _ first last leaf => decide (first ≤ leaf ∧ leaf ≤ last)
  | .resetOp _ first last leaf => decide (first ≤ leaf ∧ leaf ≤ last)
  | .faultLatch _ _ _ _ => true
  | .failingBeatSent => true
  | .trap => true
  | .fence _ _ => true
  | .fenceDrainTimeout _ => true
  | .blkrst _ _ => true
  | .blkrstEnd _ => true
  | .blkrstTimeout _ => true
  | .fenceReply => true
  | .faultClear _ _ => true
  | .fsCfgWrite _ _ => true
  | .fcLock => true
  | .fsCfgSweep _ => true
  | .safeEnter _ => true
  | .getVersion _ => true
  | .getCapabilities _ => true
  | .negotiateAlgorithms _ => true
  | .getDigests _ => true
  | .getCertificate _ _ _ => true
  | .challenge _ _ => true
  | .getMeasurements _ _ _ => true
  | .keyExchange _ => true
  | .finish _ _ _ => true
  | .heartbeat _ => true
  | .keyUpdate _ => true
  | .endSession _ => true
  | .chunkSend _ _ _ _ _ => true
  | .chunkGet _ _ _ => true
  | .encapsulatedResponse _ _ _ => true
  | .ideKm _ _ _ => true
  | .ctxSelect _ _ => true
  | .ctxCreate _ _ _ _ _ => true
  | .keyRelease _ _ _ _ _ => true
  | .retire _ _ _ => true
  | .ctxAdmitWrite _ _ => true
  | .powerOn => true
  | .modRstNFall => true
  | .modRstNRise => true
  | .startStepEnd _ _ _ _ => true
  | .startStepTimeout => true
  | .startupDone => true
  | .railAlert _ => true
  | .pmReadTimeout => true
  | .thermalReading _ => true
  | .thermalTimeout => true
  | .vcoreOutOfRange _ => true
  | .jtagInstruction _ => true
  | .usdoUploadInitiate _ _ _ _ _ => true
  | .usdoDownloadInitiate _ _ _ _ _ _ => true
  | .usdoSegment _ _ _ => true
  | .usdoTimeout _ => true
  | .classicCanFrame => true
  | .nmtStart => true
  | .nmtStop => true
  | .nmtPreOperational => true
  | .nmtResetNode => true
  | .nmtResetCommunication => true
  | .lssConfigureNodeId _ => true
  | .lssStoreConfiguration => true
  | .canHeartbeat => true
  | .emcyInhibitExpiry => true
  | .dictRead _ => true
  | .dictWrite _ => true
  | .sbGo _ _ _ => true
  | .sbAck _ _ _ _ => true
  | .sbBind _ _ _ => true
  | .sbLock => true
  | .sbHostMaskWrite _ => true
  | .traceRecord _ _ _ _ => true
  | .tracePortSend => true
  | .traceRingWrite => true
  | .traceBufEnable => true
  | .snapGo => true
  | .snapshotEnd => true
  | .registerWrite w => decide (w.size = 1 ∨ w.size = 2 ∨ w.size = 4 ∨ w.size = 8)
  | .viaductFrameSend => true
  | .cxlResetComplete => true
  | .prefillRunEnd _ => true
  | .canErrorState _ _ _ => true

end Sys2Proof
end

