-- ==== Sys2Proof/Tests/Slice0.lean ====
section
/-!
SUPPORT. Tests/Slice0.lean: one test a command at most, the WellFormed checks, and a state that meets the hypotheses of
each statement.
-/
namespace Sys2Proof.Tests

set_option Elab.async false

open Sys2Proof Sys2Proof.Machine

/-- A served part whose host link is up, with Memory Space and Bus Master Enable set. -/
def served : State :=
  let p : Power := { phase := .served, step := 7 }
  let h : HostPort := { phyUp := true, dlUp := true, mse := true, bme := true }
  { power := p, host := h }

/-- `served` and everything at tick `n`. -/
def servedAt (n : Nat) : State := { served with ticks := n }

/-- The command answers a next state that satisfies `p`. -/
def gives (c : Instr) (s : State) (p : State → Bool) : Bool :=
  match exec c s with
  | .next t => p t
  | _ => false



/-- One trim request is outstanding and due. -/
def trimming : State := { servedAt 30000 with pace := { trimEn := true, request := some (755, 20000) } }

theorem meets_PaceUpdateRecordsSlowestChain :
    ((2778 : W16) ∈ ([2778, 3000] : List W16) ∧ (∀ c ∈ ([2778, 3000] : List W16), (2778 : W16).toNat ≤ c.toNat)) ∧
      alive (servedAt 100) = true ∧ (servedAt 100).pace.nextUpdate ≤ 100 :=
  ⟨⟨by simp, by simp⟩, by decide, by decide⟩

theorem meets_TrimLoopFollowsItsRules_write : alive served = true ∧ served.faults.safe = false := by decide
theorem meets_TrimLoopFollowsItsRules_interval :
    let s := { servedAt 1 with pace := { trimEn := true, nextTrim := 1 } }
    alive s = true ∧ s.faults.safe = false ∧ s.pace.trimEn = true ∧ s.pace.nextTrim ≤ s.ticks ∧
      s.pace.request = none ∧ s.pace.targetPs.toNat + 4 < s.pace.stagePs.toNat := by decide
theorem meets_TrimLoopFollowsItsRules_ack : trimming.pace.request = some (755, 20000) ∧ 20000 ≤ trimming.ticks ∧
    { trimming with ticks := 5 }.ticks < 20000 := by decide
theorem meets_TrimLoopFollowsItsRules_others :
    let s := { servedAt 1 with pace := { trimEn := true, nextTrim := 1, stagePs := 350 } }
    s.pace.stagePs.toNat + 4 < s.pace.targetPs.toNat ∧ 700 < s.pace.vcoreMv.toNat ∧
      ¬ (s.pace.targetPs.toNat + 4 < s.pace.stagePs.toNat) ∧ trimming.pace.request ≠ none := by decide

theorem test_pace_target_clamped :
    gives (.paceTargetWrite 0x80000100) served (fun t => t.pace.targetPs = 300 && t.pace.trimEn) = true := by decide

/-- A trace store with one record, both destinations enabled. -/
def traced : State :=
  let o : Observe := { store := [⟨0x01, 5, 0, 7, 1, 2⟩], portEn := true, bufEn := true }
  { served with obs := o }

theorem meets_TraceRecordIsKeptOrLost : alive served = true ∧ (0x48 : Byte).toNat ∈ traceEvents ∧
    served.obs.eventEn.getLsbD 0x48 = true ∧ TraceStoreSound served := by
  refine ⟨by decide, by decide, by decide, by decide, by decide, by decide⟩

theorem meets_TraceDestinationsTakeRecords : alive traced = true ∧ traced.obs.portEn = true ∧ traced.obs.bufEn = true ∧
    ringStalled traced = false ∧ traced.obs.store[traced.obs.portPos]? = some ⟨0x01, 5, 0, 7, 1, 2⟩ ∧
    traced.obs.store[traced.obs.ringPos]? = some ⟨0x01, 5, 0, 7, 1, 2⟩ ∧ traced.obs.store.length ≤ 2048 := by decide

theorem meets_RingEnableAndSnapshots : alive served = true ∧ served.faults.safe = false ∧ served.obs.bufEn = false ∧
    served.obs.snapBusy = false ∧ ({ served.obs with snapBusy := true } : Observe).snapBusy = true := by decide

theorem test_trace_port_sends :
    gives .tracePortSend traced (fun t =>
      t.out = [.traceRecord ⟨0x01, 5, 0, 7, 1, 2⟩ false] && t.obs.store.length = 1 && t.obs.portPos = 1) = true := by decide

/-- Channel 3 from the host to core 1, idle; channel 4 from core 0 to the host, busy. -/
def bagged : State :=
  let c3 : SbChannel := { sender := 0x01, receiver := 0x11 }
  let c4 : SbChannel := { sender := 0x10, receiver := 0x01, busy := true, goSeq := 5 }
  { served with sb := { channels := [(3, c3), (4, c4)] } }

theorem meets_SaddlebagMessages_go : sbAlive .host bagged = true ∧ (chanGet bagged 3).bound = true ∧
    sbActs .host (chanGet bagged 3).sender = true ∧ (chanGet bagged 3).busy = false := by decide
theorem meets_SaddlebagMessages_refused : sbAlive .host bagged = true ∧ (chanGet bagged 5).bound = false := by decide
theorem meets_SaddlebagMessages_ack : sbAlive .host bagged = true ∧ (chanGet bagged 4).bound = true ∧
    sbActs .host (chanGet bagged 4).receiver = true ∧ (chanGet bagged 4).busy = true := by
  decide
theorem meets_SaddlebagBindingAndMask : alive bagged = true ∧ bagged.faults.safe = false ∧ bagged.sb.lock = false ∧
    (chanGet bagged 5).busy = false ∧ sbCodeOk 0x10 = true ∧ (chanGet bagged 5).sender ≠ 0x10 ∧
    (chanGet bagged 5).receiver ≠ 0x10 ∧ (chanGet bagged 3).sender = 0x01 ∧ barOpen bagged = true ∧
    (chanGet bagged 4).busy = true := by decide

theorem test_go_length_boundary :
    gives (.sbGo 3 .host 16) bagged (fun t => (chanGet t 3).busy && (chanGet t 3).goSeq = 1) = true ∧
    gives (.sbGo 3 .host 17) bagged (fun t => !(chanGet t 3).busy && (chanGet t 3).ackSeq = 1) = true := by decide

/-- Source 5 has a latched CE, and its UC trap waits with one of source 960. -/
def faulty : State :=
  let x : FaultSource := { srcReset 5 with ce := true, count := 1 }
  { servedAt 1000 with faults := { sources := [(5, x)], traps := [(.uc, 960), (.uc, 961)] } }

theorem meets_FaultLatchRecordsTheEvent : alive served = true ∧ (srcInfo 960).level = false ∧ sampled served 960 = true ∧
    (srcInfo 960).can .uc = true ∧ (srcGet served 960).react .uc &&& rChiprst = 0 := by decide
theorem meets_FaultLatchRecordsTheEvent_level : alive served = true ∧ (srcInfo 2935).level = true ∧
    (srcGet served 2935).asserted.getLsbD (clsCode .uc - 1) = false := by decide
theorem meets_ChipResetReactionResetsTheChip : alive served = true ∧ (srcInfo 2579).level = false ∧
    sampled served 2579 = true ∧ (srcInfo 2579).can .ft = true ∧ (srcGet served 2579).status .ft = false ∧
    (srcGet served 2579).react .ft &&& rChiprst ≠ 0 ∧ served.faults.safe = false ∧ reactsNow served = true ∧
    served.faults.handover = none ∧ served.pair.st ≠ .mirrored ∧ served.pair.st ≠ .rejoining := by decide
theorem meets_TrapsAndDispatch : coreRuns 0 faulty = true ∧ repliesOpen faulty = false ∧ (FaultClass.uc, 960) ∈ faulty.faults.traps ∧
    trapBefore (.uc, 960) (.uc, 961) = true ∧ (srcInfo 960).block = some (.domain 0) ∧
    lastQuarter (.domain 0) faulty = false ∧ blockFenced (.domain 0) faulty = false ∧
    (srcGet faulty 960).react .uc &&& rFence ≠ 0 ∧ (srcGet faulty 960).react .uc &&& rChiprst = 0 := by decide
theorem meets_TrapsAndDispatch_bits :
    let s := { served with trestle := [(3, { doorbell := 8 })], faults := { replies := [⟨.pair, true, 2925⟩] } }
    coreRuns 3 s = true ∧ s.faults.traps = [] ∧ (trestleGet s 3).doorbell.getLsbD 3 = true ∧
      (trestleGet s 3).doorbell.getLsbD 2 = false ∧ coreRuns 0 s = true ∧ s.faults.replies = [⟨.pair, true, 2925⟩] ∧ s.host.bindReq = none ∧ handlerRuns 3 s = false ∧
      repliesOpen (dispatchBit 0 0 s) = true ∧ handlerRuns 0 (dispatchBit 0 0 s) = true := by decide
theorem meets_ReactionSets : alive faulty = true ∧ faulty.faults.safe = false ∧ live faulty 5 = false ∧
    faulty.faults.lock = false := by decide
theorem meets_ReactionSets_live :
    let s := { faulty with faults := { sources := [(5, { srcReset 5 with asserted := 1 })], lock := true } }
    alive s = true ∧ s.faults.safe = false ∧ live s 5 = true ∧ s.faults.lock = true := by decide
theorem meets_SafeStateAndFieldErrors : alive faulty = true ∧ faulty.faults.safe = false ∧
    tblWf (fun _ => ({} : GirthPort)) faulty.girth.ports = true ∧ faulty.faults.nextSweep ≤ faulty.ticks ∧
    (srcGet faulty 2942).reactCe &&& rChiprst = 0 ∧ (srcGet faulty 2942).reactUc &&& rChiprst = 0 ∧
    faulty.faults.handover = none ∧ ({ faulty.pair with st := .mirrored } : Pair).st = .mirrored := by decide
theorem meets_SafeStateAndFieldErrors_beat :
    let s := { served with faults := { safe := true, handover := some (some 3) } }
    alive s = true ∧ s.faults.safe = true ∧ s.faults.handover = some (some 3) := by decide

theorem test_latch_counts : gives (.faultLatch 5 .ce .event 7) faulty (fun t =>
    (srcGet t 5).count = 2 && (srcGet t 5).detail = 7 && (srcGet t 5).ce && !(srcGet t 5).uc) = true := by decide
theorem test_sweep_enters_safe : gives (.fsCfgSweep true) faulty (fun t => t.faults.safe && t.faults.safeCause = 1) = true := by
  decide

/-- A scratch tensor of dimension 0 `d0`, on pier 0, flags `fl`: descriptor index `n` lies at 64 n of the allocation. -/
def scratchDesc (dtype rank fl d0 n : Nat) : BitVec 512 :=
  BitVec.ofNat 512 (dtype + rank * 2 ^ 8 + fl * 2 ^ 16 + 2 * 2 ^ 56 + 64 * n * 2 ^ 64 + d0 * 2 ^ 128 + 2 ^ 160 + 2 ^ 192 +
    2 ^ 224 + 2 ^ 128 * 2 ^ 128 + 2 ^ 216 * 2 ^ 216)

/-- A one-stitch program and its run 1, of the stitch word `w`, over eight scratch tensors of FP32. -/
def progOf (w : Nat) : Program :=
  { role := .raw, stitches := [BitVec.ofNat 256 w]
    descs := (List.range 8).map (scratchDesc 0 1 2 1), skives := [], consts := [], scratchBytes := 4096
    scratchBase := [], subst := [], bound := true }

def modelFor (w : Nat) : Model :=
  { chunkCount := 1, portionBytes := 0, modelId := 0, keyId := 0, tagChunk := 1, sections := []
    imgBase := [], portionBase := [], programs := [progOf w], vocab := none }

def runOne : Run := { id := 1, ctx := 1, prog := 0, kind := .raw 0 }

def stitching (w : Nat) : State :=
  { served with piers := { models := [(1, modelFor w)], runs := [runOne], nextRun := 2 } }

def envFor (w : Nat) : Env := { run := runOne, prog := progOf w, model := modelFor w }

/-- Stitch word: opcode, variant, DST 0, SRC0 1, SRC1 2, SRC2 and every index of OPERANDS none. -/
def word (op var src2 ops : Nat) : Nat :=
  op + var * 2 ^ 8 + 0 * 2 ^ 16 + 1 * 2 ^ 32 + 2 * 2 ^ 48 + src2 * 2 ^ 64 + 2 ^ 96 + ops * 2 ^ 128

/-- Stitch 0 of `stitching w` may run as `op`; SRC0 is a tensor in scratch, and so is DST where there is one. -/
def readyB (op w : Nat) : Bool :=
  match startable 1 0 op (stitching w) with
  | some (e, st) =>
    !overran e.run 0 (stitching w) && (st.roles e.prog).all (fun q => memUp (stitching w) (e.actual q)) &&
      (st.reads e.prog ++ st.writes e.prog).all (fun d => d.kind = 2 && d.dtype = 0 && !d.isSkive)
  | none => false

theorem clean_of_scratch (e : Env) (s : State) (ds : List TDesc)
    (h : ∀ d ∈ ds, d.kind = 2 ∧ d.dtype = 0 ∧ d.isSkive = false) : OperandsClean e ds s s := by
  intro k
  have jobs : ds.filter (fun d => decide (d.dtype = 8)) = [] := by
    rw [List.filter_eq_nil_iff]
    intro d hd
    simp [(h d hd).2.1]
  have inner : ∀ (d : TDesc), d.kind = 2 → ∀ (l : List Nat) (acc : Option Nat × State),
      l.foldl (fun (acc : Option Nat × State) r =>
        let (bad, s) := accessLines e r (partLines e d r acc.2) acc.2
        (acc.1.orElse (fun _ => if bad then some r else none), s)) acc = acc := by
    intro d hd l
    induction l with
    | nil => intro acc; rfl
    | cons r l ih =>
      intro acc
      rw [List.foldl_cons, show partLines e d r acc.2 = [] by simp [partLines, hd]]
      have : (acc.1.orElse (fun _ => none), acc.2) = acc := by obtain ⟨_ | _, _⟩ := acc <;> rfl
      simpa [accessLines, foldS, this] using ih acc
  have reads : readOperands e ds s = (none, s) := by
    unfold readOperands
    generalize (none, s) = acc
    clear jobs
    induction ds generalizing acc with
    | nil => rfl
    | cons d ds ih =>
      have hd := h d (by simp)
      rw [List.foldl_cons, if_neg (by rw [hd.1]; decide), inner d hd.1]
      exact ih (fun x hx => h x (by simp [hx])) acc
  have stop : skiveStop e ds s = none := by
    unfold skiveStop
    rw [List.findSome?_eq_none_iff]
    intro d hd
    simp [(h d hd).2.2]
  unfold gate withCodebooks
  simp [jobs, reads, stop]

theorem ready_of {op w : Nat} (h : readyB op w = true) :
    ∃ e st, StitchReady 1 0 op e st (stitching w) ∧ OperandsClean e (st.reads e.prog) (stitching w) (stitching w) := by
  unfold readyB at h
  split at h
  · rename_i e st hs
    simp only [Bool.and_eq_true, List.all_eq_true, decide_eq_true_eq, Bool.not_eq_true'] at h
    refine ⟨e, st, ⟨hs, h.1.1, h.1.2, fun d hd => ?_⟩, clean_of_scratch e _ _ (fun d hd => ?_)⟩
    · rw [(h.2 d hd).1.1]
      decide
    · have := h.2 d (by simp [hd])
      exact ⟨this.1.1, this.1.2, this.2⟩
  · cases h

/-- OPERANDS with no MASK, STATS or other tensor index. -/
def noOps : Nat := 0xFFF

theorem meets_Stitches_matvec : ∃ e st, StitchReady 1 0 1 e st (stitching (word 1 0 0xFFF noOps)) ∧
    OperandsClean e (st.reads e.prog) (stitching (word 1 0 0xFFF noOps)) (stitching (word 1 0 0xFFF noOps)) := ready_of (by decide +kernel)
theorem meets_Stitches_matmul : ∃ e st, StitchReady 1 0 2 e st (stitching (word 2 0 0xFFF noOps)) ∧
    OperandsClean e (st.reads e.prog) (stitching (word 2 0 0xFFF noOps)) (stitching (word 2 0 0xFFF noOps)) := ready_of (by decide +kernel)
theorem meets_Stitches_attend : ∃ e st, StitchReady 1 0 3 e st (stitching (word 3 0 3 0)) ∧
    OperandsClean e (st.reads e.prog) (stitching (word 3 0 3 0)) (stitching (word 3 0 3 0)) := ready_of (by decide +kernel)
theorem meets_Stitches_norm : ∃ e st, StitchReady 1 0 4 e st (stitching (word 4 0 0xFFF 0)) ∧
    OperandsClean e (st.reads e.prog) (stitching (word 4 0 0xFFF 0)) (stitching (word 4 0 0xFFF 0)) := ready_of (by decide +kernel)
theorem meets_Stitches_elem : ∃ e st, StitchReady 1 0 5 e st (stitching (word 5 0 0xFFF 1)) ∧
    OperandsClean e (st.reads e.prog) (stitching (word 5 0 0xFFF 1)) (stitching (word 5 0 0xFFF 1)) := ready_of (by decide +kernel)
theorem meets_Stitches_reduce : ∃ e st, StitchReady 1 0 6 e st (stitching (word 6 0 0xFFF 0)) ∧
    OperandsClean e (st.reads e.prog) (stitching (word 6 0 0xFFF 0)) (stitching (word 6 0 0xFFF 0)) := ready_of (by decide +kernel)
theorem meets_Stitches_route : ∃ e st, StitchReady 1 0 7 e st (stitching (word 7 0 0xFFF (1 + 3 * 2 ^ 16))) ∧
    OperandsClean e (st.reads e.prog) (stitching (word 7 0 0xFFF (1 + 3 * 2 ^ 16)))
      (stitching (word 7 0 0xFFF (1 + 3 * 2 ^ 16))) := ready_of (by decide +kernel)
theorem meets_Stitches_sample : ∃ e st, StitchReady 1 0 8 e st (stitching (word 8 0 0xFFF 0)) ∧
    OperandsClean e (st.reads e.prog) (stitching (word 8 0 0xFFF 0)) (stitching (word 8 0 0xFFF 0)) := ready_of (by decide +kernel)
theorem meets_Stitches_gather : ∃ e st, StitchReady 1 0 9 e st (stitching (word 9 0 0xFFF 0)) ∧
    OperandsClean e (st.reads e.prog) (stitching (word 9 0 0xFFF 0)) (stitching (word 9 0 0xFFF 0)) := ready_of (by decide +kernel)
theorem meets_Stitches_collect : ∃ e st, StitchReady 1 0 9 e st (stitching (word 9 1 0xFFF 0)) ∧
    OperandsClean e (st.reads e.prog) (stitching (word 9 1 0xFFF 0)) (stitching (word 9 1 0xFFF 0)) := ready_of (by decide +kernel)
theorem meets_Stitches_scatter : ∃ e st, StitchReady 1 0 10 e st (stitching (word 10 0 0xFFF 0)) ∧
    OperandsClean e (st.reads e.prog) (stitching (word 10 0 0xFFF 0)) (stitching (word 10 0 0xFFF 0)) := ready_of (by decide +kernel)
theorem meets_Stitches_copy : ∃ e st, StitchReady 1 0 10 e st (stitching (word 10 1 0xFFF 0)) ∧
    OperandsClean e (st.reads e.prog) (stitching (word 10 1 0xFFF 0)) (stitching (word 10 1 0xFFF 0)) := ready_of (by decide +kernel)
theorem meets_Stitches_barrier : ∃ e st, StitchReady 1 0 12 e st (stitching (word 12 0 0xFFF 0)) ∧
    OperandsClean e (st.reads e.prog) (stitching (word 12 0 0xFFF 0)) (stitching (word 12 0 0xFFF 0)) := ready_of (by decide +kernel)
theorem meets_Stitches_wait : ∃ e st, StitchReady 1 0 12 e st (stitching (word 12 1 0xFFF 0)) ∧
    OperandsClean e (st.reads e.prog) (stitching (word 12 1 0xFFF 0)) (stitching (word 12 1 0xFFF 0)) := ready_of (by decide +kernel)
/-- ATTEND over a page list of the service, in memory that the service owns; no position is attended yet. -/
def attending : State :=
  let w := word 3 0 3 0
  let d := scratchDesc 0 1 2 1 2 + BitVec.ofNat 512 (2 * 2 ^ 56)
  let m := { modelFor w with programs := [{ progOf w with descs := (progOf w).descs.set 2 d }] }
  let r : Region := { valid := true, owner := 2, pierLocal := true, size := 64, pierCount := 256 }
  { served with piers := { models := [(1, m)], runs := [{ runOne with lanes := 1 }], nextRun := 2 }
                store := { served.store with regions := [(0, r)] } }
def attendDone : Bool :=
  match startable 1 0 3 attending with
  | some (e, st) => (match evalAttend e st attending with
    | .done _ _ _ => true
    | _ => false)
  | none => false
theorem meets_Stitches_attend_done : attendDone = true := by decide +kernel

theorem meets_Stitches_words (w : Nat) : ∀ v ∈ signalWords (envFor w) (tdesc 1 (scratchDesc 0 1 2 1 1)) (stitching w),
    BitVec.ofNat 64 0 ≤ v := fun v _ => by
  simp only [BitVec.le_def]
  exact Nat.zero_le _

theorem meets_SignalAndOffload :
    (startable 1 0 13 (stitching (word 13 0 0xFFF 0))).isSome = true ∧
    (startable 1 0 11 (stitching (word 11 0 0xFFF (0xFFF * 2 ^ 56)))).any (fun x => (x.1.prog.desc (x.2.op 184 12)).isNone) = true ∧
    (stitching 0).pair.winReqs = [] ∧ (portGet (stitching 0) 0).st ≠ .up ∧ (portGet (stitching 0) 0).st ≠ .quiescing := by
  decide +kernel
/-- As `stitching`, with girth port 0 UP. -/
def portUp (w : Nat) : State := { stitching w with girth := { ports := [(0, { st := .up })] } }
theorem meets_SignalAndOffload_up : (startable 1 0 11 (portUp (word 11 0 0xFFF (0xFFF * 2 ^ 56)))).isSome = true ∧
    (portGet (portUp 0) 0).st = .up ∧ (portGet (portUp 0) 0).items.length < 2 ^ 32 := by decide +kernel

theorem test_norm_completes : gives (.norm 1 0) (stitching (word 4 0 0xFFF 0)) (fun t =>
    (t.piers.runs.map Run.completed) = [[0]]) = true := by decide +kernel

/-- A run of kind `k` of a program of no stitch. -/
def emptyRun (k : RunKind) : State :=
  { served with ticks := 200000
                piers := { models := [(1, { modelFor 0 with programs := [{ progOf 0 with stitches := [] }] })]
                           runs := [{ runOne with kind := k }], nextRun := 2 } }

theorem meets_RunsEnd_halt : alive served = true ∧ 1 ≤ (3 : Byte).toNat ∧ (3 : Byte).toNat ≤ 8 := by decide
/-- A BARRIER without progress for longer than STITCH_TIMEOUT. -/
def stuckBarrier : State :=
  let s := stitching (word 12 0 0xFFF 0)
  { s with ticks := 100002, piers := { s.piers with runs := [{ runOne with stalled := [(0, 1)] }] } }
def stuckB : Bool :=
  match (runGet stuckBarrier 1).bind (fun r => (envOf stuckBarrier r).map (fun e => (r, e))) with
  | some (r, e) => (match e.prog.stitch 0 with
    | some st => r.openAt e.prog 0 && decide (0 ∈ (st.roles e.prog).map e.actual) &&
        decide (r.stalled.find? (fun w => w.1 = 0) = some (0, 1)) && due (1 + 1 + stuckBarrier.piers.stitchTimeout.toNat) stuckBarrier
    | none => false)
  | none => false
theorem meets_RunsEnd_stitchTimeout : stuckB = true := by decide +kernel
/-- An item at port 0 whose deadline is tick 0. -/
def itemOut : State :=
  let it : Item := ⟨5, 1, 1, 0, 0, 0, [], true, none⟩
  { served with girth := { ports := [(0, { st := .up, items := [it] })] } }
theorem meets_RunsEnd_offloadTimeout : ((portGet itemOut 0).items.find? (fun t => t.tag = 5)).any (fun t =>
    t.aborted.isNone && decide (t.deadline ≤ itemOut.ticks)) = true := by decide
/-- A batch run of a context whose model has gone. -/
def lonelyRun : State := { served with piers := { runs := [{ runOne with kind := .batch 0 }] } }
theorem meets_RunsEnd_batch : runGet lonelyRun 1 = some { runOne with kind := .batch 0 } ∧
    lonelyRun.service.batches = [] ∧
    envOf (abortItems 1 { lonelyRun with piers := { lonelyRun.piers with excs := [(1, 0, 3, 0)] } }) { runOne with kind := .batch 0 } = none := by
  decide +kernel
theorem meets_RunsEnd_raw : (runGet (emptyRun (.raw 0)) 1).any (fun r => decide (r.kind = .raw 0) &&
    (envOf (emptyRun (.raw 0)) r).any (fun e => r.allDone e.prog)) = true ∧ (emptyRun (.raw 0)).pair.winReqs = [] ∧
    unaccepted 1 (List.range 320) (emptyRun (.raw 0)) = false ∧
    ¬ ((streamGet (emptyRun (.raw 0)) 0).deadlineTs ≠ 0 ∧ (streamGet (emptyRun (.raw 0)) 0).deadlineTs ≤ (emptyRun (.raw 0)).tsNow) := by
  decide +kernel

/-- Piers up, and pier 0 as given. -/
def pierUp (x : PierSt) : State := { served with piers := { piers := [(0, x)] }, deck := { pds := [] } }
theorem meets_ArraySteps : alive (pierUp {}) = true ∧ memUp (pierUp {}) 0 = true ∧ (pierGet (pierUp {}) 0).codebookWait = none ∧
    (pierGet (pierUp {}) 0).held = none := by decide +kernel
theorem meets_ArraySteps_held : (pierGet (pierUp { held := some ⟨.int8, 0, 127, 127⟩ }) 0).held = some ⟨.int8, 0, 127, 127⟩ ∧
    (pierGet (pierUp { held := some ⟨.lc12, 0, 127, 127⟩ }) 0).held = some ⟨.lc12, 0, 127, 127⟩ := by decide +kernel
theorem meets_ArraySteps_skive :
    let s := pierUp { stream := some ⟨0, 3, 7, 0, 0, false⟩, released := [⟨.int8, 0, 127, 127⟩] }
    (pierGet s 0).stream = some ⟨0, 3, 7, 0, 0, false⟩ ∧ (rowOfStitch s 0 7).isNone = true ∧
    (pierGet s 0).released = [⟨.int8, 0, 127, 127⟩] ∧ [127, 127].length = 2 * frameSteps 0x88 ∧
    skiveFrame (tget (fun _ => 0) (pierGet s 0).slots 3) 0 0x88 (List.replicate 32 0) = some (List.replicate 64 0) := by
  decide +kernel

/-- A served part with one pool region of two piers at address 0, context 1 keyed. -/
def stored : State :=
  let r : Region := { valid := true, owner := 1, size := 2, pierCount := 2 }
  { served with store := { regions := [(0, r)] }
                sec := { contexts := [(1, { st := .bound })], slots := [(2, { key := 7, st := .live })] } }

theorem meets_LinesAreReadAndWritten : alive stored = true ∧ MemoryCanonical stored ∧
    mapDpa stored.store.regions 64 = some ⟨0, { valid := true, owner := 1, size := 2, pierCount := 2 }, 0, 64⟩ ∧
    memUp stored 0 = true ∧ (writeSide stored { valid := true, owner := 1, size := 2, pierCount := 2 } 1).key ≠ 0 := by
  refine ⟨by decide, ⟨by decide, by decide⟩, by decide +kernel, by decide, by decide⟩
theorem meets_LinesAreReadAndWritten_read :
    let s := { stored with store := { stored.store with side := [(1, { ctxTag := 1, key := 7 })] } }
    (sideGet s 0 64).ctxTag.toNat = 1 ∧ (sideGet s 0 64).poison = false ∧
    readKey s { valid := true, owner := 1, size := 2, pierCount := 2 } (sideGet s 0 64) = some 7 := by decide +kernel

/-- A table with its window and its mirrored journal. -/
def lockReady : State :=
  let w : Region := { valid := true, owner := 2, size := 1024, pierCount := 2 }
  let j : Region := { valid := true, owner := 2, use := 1, mirror := true, size := 2, pierCount := 2 }
  { served with store := { regions := [(0, w), (1, j)] } }
theorem meets_RegionsAreCheckedAndLocked : writable lockReady = true ∧ lockReady.store.lock = false ∧
    (regionGet lockReady.store.regions 2).valid = false ∧ (regionGet lockReady.store.regions 0).valid = true ∧
    lockable lockReady.store.regions = true ∧ lockable stored.store.regions = false ∧
    ({ lockReady.store with lock := true } : Store).lock = true := by decide +kernel

theorem meets_RebuildScrubAndRefresh :
    (let b : Rebuild := ⟨1, 0, ⟨0, false⟩, ⟨1, true⟩, 0, false⟩
     let s := { lockReady with store := { lockReady.store with rebuilds := [b, { b with back := true }] } }
     s.store.rebuilds.find? (fun b => memUp s b.src.pier && memUp s b.dst.pier) = some b) ∧ alive stored = true ∧
    memUp stored 0 = true ∧ tget (fun _ => false) stored.store.selfRefresh (refreshUnitOf 0 0) = false ∧
    (sideGet stored 0 0).poison = false ∧ unitAsleep (.tier 0 0) stored = false ∧
    tget (fun _ => 0) (servedAt 2000).store.lastAccess 0 + 1 + (servedAt 2000).store.srIdle.toNat ≤ 2000 ∧
    unitAsleep (.tier 0 0) { stored with store := { stored.store with selfRefresh := [(0, true)] } } = true := by decide +kernel

/-- Entry `e` fetched by queue pair 0 of context 1, which is armed; stream record 0 as given. -/
def fetchedBy (e : BitVec 512) (x : Stream) : State :=
  { served with
    host := { served.host with qps := [(0, { armed := true, priv := true, ctx := 1, sqTail := 1, pendingBit := true, fetched := [(0, e)], reserved := 1 })] }
    service := { streams := if x = {} then [] else [(0, x)] } }

/-- An entry: opcode, command identifier 9, and a handle or argument at byte 8. -/
def entry (op arg : Nat) : BitVec 512 := BitVec.ofNat 512 (op + 9 * 2 ^ 16 + arg * 2 ^ 64)

theorem meets_DoorbellAndFetch : barOpen (fetchedBy 0 {}) = true ∧ (qpGet (fetchedBy 0 {}) 0).armed = true ∧
    (1 : W16).toNat < ringSize (qpGet (fetchedBy 0 {}) 0).sqSize.toNat ∧ fetchHeld (fetchedBy 0 {}) = false ∧
    (qpGet (fetchedBy 0 {}) 0).fetchable = true ∧ lowestPending (fetchedBy 0 {}) 0 (qpGet (fetchedBy 0 {}) 0) = true ∧
    coreRuns (schedCore (qpGet (fetchedBy 0 {}) 0).ctx.toNat) (fetchedBy 0 {}) = true ∧
    (qpGet served 0).armed = false ∧ (fetchedBy 0 {}).service.quiesced = false := by decide +kernel

/-- A raw request of context 1, which has a model, on a part with a journal and no window. -/
def admitting : State :=
  let j : Region := { valid := true, owner := 2, use := 1, mirror := true, size := 512, pierCount := 2 }
  { fetchedBy (entry 1 0 ||| BitVec.ofNat 512 (2 * 2 ^ 8 + 8 * 2 ^ 192)) {} with
    store := { regions := [(0, j)] }
    sec := { contexts := [(1, { st := .bound, owner := 1, modelKey := 5 })] }
    piers := { models := [(1, modelFor 0)] } }
def admitE : BitVec 512 := entry 1 0 ||| BitVec.ofNat 512 (2 * 2 ^ 8 + 8 * 2 ^ 192)
/-- `admitting` with the entry taken. -/
def admitted : State := qpSet 0 { qpGet admitting 0 with fetched := [] } admitting
theorem placeIn_isSome {fresh lo hi align n : Nat} {used : List (Nat × Nat)} (h : (firstFit lo hi align n used).isSome = true) :
    (placeIn fresh lo hi align n used).isSome = true := by
  unfold placeIn
  dsimp only
  split <;> simp_all
theorem admitted_room (n : Nat) (h : n ≤ 1000) : (freeExtent admitted admitted.freeCtr n).isSome = true := by
  have e1 : ownPart (areaLines admitted) admitted = (0, 16515072) := by decide +kernel
  have e2 : extentsUsed admitted = [] := by decide +kernel
  unfold freeExtent
  rw [e1, e2]
  apply placeIn_isSome
  have fits : decide (n ≤ 16515072) = true := decide_eq_true (by omega)
  simp [firstFit, clearOf, fits]
theorem admitted_checked : submitFails 0 admitE admitted = none := by
  unfold submitFails
  dsimp only
  rw [if_neg (by decide +kernel), if_neg (by decide +kernel), if_neg (by decide +kernel), if_neg (by decide +kernel),
    if_neg (by decide +kernel), if_neg (by decide +kernel), if_neg (by decide +kernel), if_neg]
  rw [Bool.not_eq_true, Bool.or_eq_false_iff, Option.isNone_eq_false_iff]
  refine ⟨admitted_room _ ?_, by decide +kernel⟩
  decide +kernel
theorem meets_SubmitIsAdmitted : takeCmd 0 1 admitting = some (admitE, admitted) ∧ waits admitted = false ∧
    windowBase admitted = none ∧ (freeRecord admitted admitted.freeCtr).isSome = true := by
  refine ⟨by decide +kernel, by decide +kernel, by decide +kernel, by decide +kernel⟩
theorem meets_SubmitIsChecked : (takeCmd 0 1 (fetchedBy (entry 1 0) {})).isSome = true ∧
    ((takeCmd 0 1 (fetchedBy (entry 1 0) {})).bind (fun x => submitFails 0 x.1 x.2)) = some (0x11, 1) := by decide +kernel

/-- A queued stream of context 1, incarnation 1. -/
def queued : Stream := { st := .queued, used := true, inc := 1, ctx := 1 }
def handle0 : Nat := (queued.handle 0).toNat
theorem meets_HandleCommands : (∀ op ∈ [2, 3, 4, 5, 6],
    (takeCmd 0 op (fetchedBy (entry op handle0) queued)).any (fun x => cmdFormat x.1 && cmdByte x.1 0 = op &&
      (match targetOf x.2 (some (qpGet x.2 0).ctx) (cmdField x.1 8 8) with
       | .stream i => i = 0
       | _ => false)) = true) ∧
    queued.holds = false ∧ queued.live = true ∧ queued.st ≠ .submitted ∧ queued.st ≠ .suspended := by decide +kernel
theorem meets_HandleCommands_rejected : (takeCmd 0 5 (fetchedBy (entry 5 handle0) {})).any (fun x => cmdFormat x.1 &&
      (match targetOf x.2 (some (qpGet x.2 0).ctx) (cmdField x.1 8 8) with
       | .rejected st => st = 0x10
       | _ => false)) = true ∧
    (takeCmd 0 5 (fetchedBy (entry 5 handle0 ||| (1 <<< 300)) {})).any (fun x => !cmdFormat x.1) = true := by decide +kernel
def suspended1 : Stream := { queued with st := .suspended, susp := 1 }
theorem meets_HandleCommands_resume : suspended1.st = .suspended ∧ suspended1.susp &&& suspCmd ≠ 0 ∧ cmdByte (entry 3 handle0) 1 = 0 ∧
    (takeCmd 0 3 (fetchedBy (entry 3 handle0) suspended1)).isSome = true := by decide +kernel
/-- A long operation in slot 0, as given. -/
def withOp (e : BitVec 512) (x : LongOp) : State :=
  { fetchedBy e {} with service := { longOps := [(0, x)] } }
def runningOp (op : Byte) : LongOp := { st := .running, used := true, inc := 1, opcode := op, ctx := 1, target := 1, xferDone := 1, doneUnits := 1 }
theorem meets_HandleCommands_longOp : (takeCmd 0 4 (withOp (entry 4 ((runningOp 0x13).handle 0).toNat) (runningOp 0x13))).any (fun x =>
      cmdFormat x.1 && (opCmd 0 4 x.2).isSome &&
      (match targetOf x.2 (some (qpGet x.2 0).ctx) (cmdField x.1 8 8) with
       | .longOp j => j = 0
       | _ => false)) = true := by decide +kernel

/-- Context 1 with a model, bound to a PASID, its table lockable. -/
def withModel (e : BitVec 512) : State :=
  { fetchedBy e {} with
    store := lockReady.store
    sec := { contexts := [(1, { st := .bound, owner := 1, modelKey := 5 })], slots := [(2, { key := 7, st := .live })] }
    piers := { models := [(1, modelFor 0)] } }
theorem meets_ContextCommands :
    (takeCmd 0 0x10 { withModel (entry 0x10 0) with piers := {} }).any (fun x => (loadFails 0 x.1 x.2).isNone &&
      (tryLock x.2).isSome && (freeSlot x.2).isSome) = true ∧
    (takeCmd 0 0x10 (fetchedBy (entry 0x10 0) {})).any (fun x => (loadFails 0 x.1 x.2).isNone && (tryLock x.2).isNone) = true ∧
    (takeCmd 0 0x11 (withModel (entry 0x11 0))).any (fun x => cmdFormat x.1 && (modelOf x.2 1).isSome &&
      (liveOf x.2 1).isEmpty && !anyOpOpen x.2 1) = true ∧
    (takeCmd 0 0x12 (fetchedBy (entry 0x12 0) {})).any (fun x => cmdFormat x.1 && (qpGet x.2 0).priv && !hasModel x.2 0) = true ∧
    (takeCmd 0 0x13 (withModel (entry 0x13 0))).any (fun x => cmdFormat x.1 && hasModel x.2 1 &&
      !opOpen x.2 1 [0x10, 0x12, 0x13]) = true := by decide +kernel
theorem meets_LongOperations : alive (withOp 0 (runningOp 0x10)) = true ∧ (withOp 0 (runningOp 0x10)).service.quiesced = false ∧
    canRequest (withOp 0 (runningOp 0x10)) = true ∧ (runningOp 0x12).todo = [] ∧ (runningOp 0x14).xferDone ≠ 0 ∧
    (runningOp 0x13).binding = false ∧ (modelOf (withModel 0) 1).isSome = true ∧ (1 : Nat) < { modelFor 0 with tagChunk := 2 }.tagChunk ∧
    (scrubPage 1 0 0 4096 stored).isSome = true := by decide +kernel

/-- Stream record 0 of context 1 as given, at tick 5,000. -/
def streamed (x : Stream) : State :=
  { stored with ticks := 5000, tsNow := 5000, service := { streams := [(0, x)] } }
theorem meets_Boundaries : alive served = true ∧ served.service.quiesced = false ∧ batchGet (queueCinched served) 0 = none ∧
    (batchGet (queueCinched { served with service := { batches := [(0, ⟨1, [], none, []⟩)] } }) 0).isSome = true ∧
    ((emptyRun (.prefill 0)).piers.runs.find? (fun r => r.kind = .prefill 0)).any (fun r =>
      (envOf (emptyRun (.prefill 0)) r).any (fun e => r.allDone e.prog)) = true := by decide +kernel
theorem meets_Boundaries_run :
    let s := { emptyRun (.batch 0) with service := { batches := [(0, ⟨1, [], some 1, []⟩)] } }
    (batchGet (queueCinched s) 0).any (fun B => (B.run.bind (runGet s)).any (fun r => (envOf s r).any (fun e => r.allDone e.prog))) = true := by
  decide +kernel
theorem meets_FlushDeadline :
    let x : Stream := { queued with flushTicks := 100, opened := [7], deadlineTs := 1, stopIds := [7] }
    alive (streamed x) = true ∧ x.live = true ∧ x.opened ≠ [] ∧ x.openSince + 1 + x.flushTicks.toNat ≤ (streamed x).ticks ∧
    coreRuns 3 (streamed x) = true ∧ streamIds (streamed x) = [0] ∧ x.holds = false ∧ schedCore 1 = 3 ∧
    x.deadlineTs ≤ (streamed x).tsNow ∧ (7 : W32) ∈ x.stopIds ∧ streamIds served = [] ∧ coreRuns 3 served = true := by decide +kernel
/-- A page of context 1 on pier 0, as given. -/
def paged (resident : Bool) : State :=
  let x : Stream := { queued with kv := [⟨0, 0, 0, 0, resident, 4, 64, true, 64, []⟩] }
  { streamed x with sec := { contexts := [(1, { st := .bound, spillSlots := 8 })], slots := [(2, { key := 7, st := .live })] }
                    store := { stored.store with side := [(16, { ctxTag := 1, key := 7 })] } }
theorem meets_Pages_spill : canRequest (paged true) = true ∧ (streamGet (paged true) 0).kv[0]? = some ⟨0, 0, 0, 0, true, 4, 64, true, 64, []⟩ ∧
    (engineLine (paged true) 0 1024 1).poison = false ∧
    findBelow 8 (fun m => !(ctxGet (paged true) 1).spillUsed.contains m) = some 0 := by decide +kernel
theorem meets_Pages_readback : canRequest (paged false) = true ∧ (streamGet (paged false) 0).kv[0]? = some ⟨0, 0, 0, 0, false, 4, 64, true, 64, []⟩ ∧
    memUp (paged false) 0 = true ∧ poolShares (paged false) 0 = [(0, 2097152)] := by decide +kernel

theorem meets_ContextsAreBound : bar0Open served = true ∧ served.host.bindReq = none ∧ coreFree 7 served = true ∧
    (let s := ringDoorbell 7 0 { served with host := { served.host with bindReq := some ⟨1, none⟩ } }
     bar0Open s = true ∧ coreRuns 7 s = true ∧ (trestleGet s 7).doorbell.getLsbD 0 = true ∧ coreFree 7 s = false) ∧
    (let s := { served with sec := { contexts := [(1, { st := .bound, owner := 1 })] } }
     (bindingGet s 1).lockout = 0 ∧ (ctxGet s 1).st ≠ .free ∧ (ctxGet s 1).owner ≠ 0 ∧ (bindingGet s 1).bound = false ∧
     (ctxGet s 1).cred = s.host.bindCred ∧ fld (BitVec.ofNat 64 (2 ^ 63 + 2 ^ 48)) 48 12 = 1 ∧
     (ctxGet { s with host := { s.host with bindCred := 4 } } 1).cred ≠ 4) ∧
    (let s := { served with host := { served.host with bindings := [(1, { lockout := 3 }), (2, { bound := true })] } }
     (bindingGet s 1).lockout ≠ 0 ∧ (bindingGet s 1).lockout ≤ (servedAt 9).ticks ∧ (bindingGet s 2).bound = true) ∧
    (∃ q ∈ (fetchedBy 0 {}).host.qps, q.2.armed = true ∧ q.2.ctx.toNat = 1) ∧ (ctxGet served 3).st = .free := by
  refine ⟨by decide, by decide, by decide, by decide +kernel, by decide +kernel, by decide +kernel,
    ⟨_, List.mem_cons_self, by decide⟩, by decide⟩
theorem meets_QueuePairs : bar0Open served = true ∧ served.host.flr = none ∧ (qpGet served 0).armed = false ∧
    armCheck 0 (withWord3 (qpGet served 0) 0) served = 1 ∧
    armCheck 0 (withWord3 {} 0) { served with host := { served.host with bindings := [(0, { bound := true })] } } = 0 ∧
    (let q : QpEntry := { armed := true, disarming := true }
     q.armed = true ∧ q.disarming = true ∧ q.fetched = [] ∧ q.waiting = [] ∧ q.reserved = 0) := by decide +kernel
/-- Queue pair 0 armed, with one completion waiting. -/
def ringing : State :=
  let c : Completion := ⟨2, 0, 0, 9, 0, 0, 0, []⟩
  { streamed { queued with sealed := [⟨0, [], [], 0, false, false, 0, 0, 0, 0⟩] } with
    host := { served.host with qps := [(0, { armed := true, ctx := 1, waiting := [c], reserved := 1 })] } }
theorem meets_Rings : canRequest ringing = true ∧ (qpGet ringing 0).armed = true ∧ (qpGet ringing 0).waiting ≠ [] ∧
    (qpGet ringing 0).ien = false ∧ (nextRecord ringing 0).any (fun x => x.2.room && !x.2.vis) = true ∧ barOpen ringing = true ∧
    (qpGet ringing 0).head + ((qpGet ringing 0).produced + 64 - 0 % 64) % 64 ≤ (qpGet ringing 0).produced ∧
    (qpGet ringing 0).produced < (qpGet ringing 0).head + ((qpGet ringing 0).produced + 64 - 1 % 64) % 64 ∧
    ringSize (qpGet ringing 0).cqSize.toNat = 64 ∧
    (let q : QpEntry := { armed := true, ien := true, coalTicks := 5, unsignalled := 1 }
     q.firstFlag + 1 + q.coalTicks.toNat ≤ ringing.ticks) := by decide +kernel
/-- A vector pending, and INTx asserted. -/
def pendingIrq : State :=
  { served with host := { served.host with msixEn := true, msix := [(3, { pend := true })], intxStatus := 1, intxAsserted := true } }
theorem meets_Interrupts : bar0Open pendingIrq = true ∧ pendingIrq.host.flr = none ∧ (msixGet pendingIrq 3).pend = true ∧
    pendingIrq.host.msixMask = false ∧ canRequest pendingIrq = true ∧
    (msixGet pendingIrq 4).pend = false ∧ cfgOpen served = true ∧
    served.host.msix = [] := by decide +kernel
/-- A read outstanding under tag 4, and tag 6 in quarantine. -/
def reading : State :=
  let r : HostRead := { tag := 4, pasid := none, use := .orphan, addr := 0, bytes := 64, deadline := 0, retries := 0 }
  { served with host := { served.host with reads := [r], tagsQuar := [(6, 0)], readRetries := 1 } }
theorem meets_HostReads : alive reading = true ∧ reading.host.dlUp = true ∧
    (reading.host.reads.find? (fun r => r.tag = (4 : BitVec 14).toNat)).any (fun r => decide (r.deadline ≤ reading.ticks) &&
      decide (r.retries < reading.host.readRetries.toNat) && decide (r.use = .orphan)) = true ∧
    (∃ q ∈ reading.host.tagsQuar, q.1 = (6 : BitVec 14).toNat ∧ q.2 ≤ reading.ticks) := by
  refine ⟨by decide, by decide, by decide +kernel, ⟨_, List.mem_cons_self, by decide⟩⟩

/-- A mirrored pair with its link up, and the link as given. -/
def mirroredWith (v : Viaduct) : State :=
  { served with viaduct := { v with up := true }, pair := { mode := true, present := true, st := .mirrored } }
def frame1 : ViaFrame := { syncs := List.replicate 8 0x7A5C, frameNum := ({} : Viaduct).rxAck + 1, ackNum := 0, nak := false, decodes := true, tagOk := true, reservedMsgs := 0 }
theorem meets_ViaductFrames : alive (mirroredWith {}) = true ∧ (mirroredWith {}).faults.handover = none ∧
    framesFlow (mirroredWith {}) = true ∧ (mirroredWith {}).sec.kxStep ≠ 5 ∧
    ((mirroredWith {}).viaduct.txNum - (mirroredWith {}).viaduct.peerAck).toNat ≤ 64 ∧
    64 < (({ ({} : Viaduct) with txNum := 70, peerAck := 1 } : Viaduct).txNum - 1).toNat ∧
    frame1.frameNum = (mirroredWith {}).viaduct.rxAck + 1 ∧
    ([(⟨3, 0, false, [], 0, 0⟩ : HeldFrame)].find? (fun h => h.num = 3)).isSome = true ∧
    (mirroredWith { fastRetrain := some 0 }).viaduct.fastRetrain = some 0 := by decide +kernel
theorem meets_Training : (∀ st ∈ [1, 2, 3, 4, 5], let s := { served with viaduct := { step := st, stepDeadline := 0 } }
    alive s = true ∧ s.faults.safe = false ∧ s.viaduct.fastRetrain = none ∧ s.viaduct.step ≠ 0 ∧
      s.viaduct.stepDeadline ≤ s.ticks) ∧ ({ restartAt := some 0 } : Viaduct).restartAt = some 0 ∧
    served.sec.minSvn.toNat ≤ (0 : Byte).toNat ∧ (∀ k ∈ [1, 2, 3, 4], ({ kxStep := k } : Security).kxStep = k) ∧
    64 ≤ (List.replicate 63 4 ++ [4]).length := by decide +kernel
theorem meets_Time : (mirroredWith {}).pair.nextSync ≤ { mirroredWith {} with ticks := 5000 }.ticks ∧ sends (mirroredWith {}) = true ∧
    (mirroredWith {}).pair.roleB = false ∧ framesFlow (mirroredWith {}) = true ∧
    (let p : Pair := { roleB := true, timeErr := 70001 }
     p.nextSlew ≤ 5000 ∧ 70000 < p.timeErr ∧ -70001 < (-70000 : Int)) := by decide +kernel
/-- Mirrored, with a journal region, an ACK outstanding, a window open and a window request outstanding. -/
def journaled (u : WinUser) : State :=
  { mirroredWith {} with
    store := lockReady.store
    pair := { (mirroredWith {}).pair with acks := [(5, .other)], winReqs := [(6, u)],
                                          winIn := [(0, { enable := true, read := true, write := true, ctx := 1, size := 1 })] } }
theorem meets_Journal : linked (journaled (.write 1)) = true ∧ sends (journaled (.write 1)) = true ∧
    0 + 64 * 1 ≤ regionLines (journaled (.write 1)) * 64 ∧ (journaled (.write 1)).pair.acks.find? (fun a => a.1 = 5) = some (5, .other) ∧
    (journaled (.write 1)).pair.imageParts = [] ∧ (journaled (.write 1)).pair.nextCursor ≤ 5000 := by decide +kernel
theorem meets_Windows : (windowIn 0 1 0 1 false (journaled (.write 1))).isSome = true ∧ (windowIn 0 1 0 1 true (journaled (.write 1))).isSome = true ∧
    windowIn 1 1 0 1 true (journaled (.write 1)) = none ∧
    (∀ u ∈ [WinUser.write 1, .signal 1 0, .read 1 0 0 0, .engine 3],
      (journaled u).pair.winReqs.find? (fun w => w.1 = 6) = some (6, u)) := by decide +kernel

theorem meets_PairStates :
    let m := mirroredWith {}
    alive m = true ∧ m.faults.safe = false ∧ m.pair.nextBeat ≤ 5000 ∧ m.pair.leaving = false ∧ m.pair.st = .mirrored ∧
    m.viaduct.up = true ∧ m.pair.missed.toNat < 7 ∧ m.viaduct.step ≠ 6 ∧ served.viaduct.up = false ∧ served.pair.present = false ∧
    served.pair.absentSince + 1 + 100 ≤ 5000 ∧ served.pair.st ≠ .mirrored ∧ served.pair.conflict = false ∧
    (match extentAt served 0 with
     | .free => true
     | _ => false) = true ∧
    (dropJournal { m with pair := { m.pair with conflict := true } }).viaduct.up = true ∧
    (dropJournal { served with pair := { conflict := true } }).viaduct.up = false ∧
    (let p : Pair := { st := .pairing, pairWaitBy := 0, slowAt := 0, missed := 7, take := .taking [0] false }
     p.st = .pairing ∧ p.journalKept = false ∧ p.missed.toNat = 7 ∧ p.take = .taking [0] false) := by decide +kernel
theorem meets_PartnerBay : alive served = true ∧ fenceForced served = false ∧ served.pair.pwrOff = false ∧
    (0 : W16).getLsbD 10 = false ∧ (0x400 : W16).getLsbD 10 = true ∧ served.pair.present = false ∧
    (mirroredWith {}).pair.present = true ∧ ({ pwrOff := true } : Pair).pwrOff = true := by decide

theorem meets_HostLink : alive served = true ∧ served.power.phase = .served ∧ served.host.phyUp = true ∧ cfgOpen served = true ∧
    resetBusy served = false ∧ served.host.reads = [] ∧ ({ served.host with phyUp := false } : HostPort).phyUp = false ∧
    ideOn { served with host := { served.host with ideSecure := 1 } } (.cxlIo 0) = true ∧
    ({ served.host with flr := some ⟨3⟩ } : HostPort).flr = some ⟨3⟩ := by decide +kernel
/-- Decoder 0 over the pool region of `stored`, before and after its commit. -/
def decoding (c : Bool) : State :=
  let d : HdmDecoder := { size := 4194304, committed := c }
  let x : Context := { st := .bound, hostmemOn := true }
  { stored with
    host := { served.host with flit256 := true, hdm := [(0, d)], bindings := [(0, { bound := true })], romEnable := true }
    sec := { contexts := [(0, x)] }
    store := { lockReady.store with regions := (2, { valid := true, owner := 1, size := 2, pierCount := 2 }) :: [] } }
theorem meets_Mastering : cfgOpen served = true ∧ served.host.bme = true ∧ served.host.d3hot = false ∧
    bar0Open (decoding false) = true ∧ (hdmGet (decoding false) 0).committed = false ∧
    spanMapped (decoding false).store.regions 65 0 (hdmGet (decoding false) 0).span = true ∧ tryLock (decoding false) = none ∧
    (tryLock { decoding false with store := { (decoding false).store with lock := true } }).isSome = true ∧
    (hdmGet (decoding false) 1).committed = false ∧ served.host.flit256 = false := by decide +kernel
theorem meets_HostAccesses : hostServes (decoding true) = true ∧ (decoding true).host.flit256 = true ∧
    hpaToDpa (decoding true) 64 = some 64 ∧ ioMayAsk lockReady 0 = true ∧ lockReady.coh.posted = [] ∧
    windowBase served = none ∧ hostMay (decoding true) 64 = true ∧ hpaToDpa (decoding true) 8388608 = none ∧
    hostMay { decoding true with sec := {} } 64 = false ∧
    barOpen lockReady = true ∧ windowBase lockReady = some 0 ∧ (decoding true).host.romEnable = true ∧ served.host.romEnable = false ∧
    hostServes { served with faults := { safe := true } } = true ∧ served.host.mse = true ∧ served.host.d3hot = false ∧
    (let s := { served with host := { served.host with flr := some ⟨9⟩ } }
     bar0Open s = true ∧ resetBusy s = true) ∧
    hostServes { served with host := { served.host with mse := false } } = true := by decide +kernel

/-- Line 5 busy with a read of slot 0 in a phase, its agents as given. -/
def homeBusy (ph : TxnPhase) (aw : List Snoop) : State :=
  let t : Txn := { line := 5, requester := .slot 0, req := .rdS, ctx := 0, txn := 0, before := {}, awaiting := aw, data := none, phase := ph }
  { served with coh := { txns := [t], trackInc := [], evict := [] } }
/-- Port 0 UP with an item of context 0 out, so that its requests pass. -/
def chipletUp : State :=
  let it : Item := ⟨1, 0, 1, 0, 0, 100, [], true, none⟩
  let r : Region := { valid := true, owner := 1, size := 2, pierCount := 2 }
  { served with girth := { ports := [(0, { st := .up, items := [it] })] }, store := { regions := [(0, r)] } }
theorem meets_Requests : alive served = true ∧ homeAway served 5 = false ∧ served.coh.retried = [] ∧ busy served 5 = false ∧
    portOf 0 = none ∧ portOf 1 = some 0 ∧ (portGet chipletUp 0).st = .up ∧ (portGet chipletUp 0).txns = [] ∧
    girthNack chipletUp 0 0 5 = none ∧ reqAgent .hostIo = none ∧ busy (homeBusy .ready []) 5 = true ∧
    served.coh.forcedHw = true ∧ (busyTxn (homeBusy .snooping [⟨0, .s, true, 0⟩]) 5).any (fun t => t.awaiting.any (fun x => x.sent)) = true ∧
    (dirFind (dirPut (dirBase served 5) { valid := true, quarter := BitVec.ofNat 2 (ownQuarter 5), tag := dirTag 5, st := .s, presence := 1 } served) 5).any
      (fun e => e.2.has 0) = true := by decide +kernel
theorem meets_Snoops : alive (homeBusy .snooping [⟨0, .s, false, 0⟩]) = true ∧
    (busyTxn (homeBusy .snooping [⟨0, .s, false, 0⟩]) 5).isSome = true ∧ (homeBusy .snooping [⟨7, .s, false, 0⟩]).coh.holds = [] ∧
    served.host.dlUp = true ∧ portTalks (homeBusy .snooping [⟨0, .s, true, 0⟩]) 0 = true ∧ reqOfNum 0 = some (.slot 0) ∧ (reqAgent (.slot 1)).bind portOf = some 0 ∧ (reqAgent (.slot 0)).bind portOf = none ∧
    cacheLink { served with host := { served.host with flit256 := true } } = true ∧
    portTalks chipletUp 1 = true ∧ reqOfNum 500 = none := by decide +kernel
theorem meets_Completions : (busyTxn (homeBusy .ready []) 5).any (fun t => t.phase = .ready) = true ∧
    (busyTxn (homeBusy .granted []) 5).any (fun t => t.phase = .granted && t.requester = .slot 0) = true ∧
    (busyTxn (homeBusy .tracking []) 5).any (fun t => t.phase = .tracking) = true ∧ homeAway served 5 = false ∧
    busy served 5 = false ∧ served.coh.late = [] ∧ portTalks served 0 = true ∧
    ([(⟨5, 0, 0, false, false, false, false⟩ : EvictBuf)].find? (fun b => b.line = 5)).isSome = true ∧
    (trackKey stored 5).isSome = true ∧ trackGet { stored with coh := { track := [(0, 1)] } } 0 ≠ 0 := by decide +kernel
theorem meets_Moves : moveSlots chipletUp = [1, 7, 8] ∧ portTalks chipletUp 1 = true ∧ served.power.done = false ∧
    dcFind served true 5 = none ∧ dcFind served false 5 = none ∧ served.coh.merges = [] ∧ sliceUp served (dcSlice 5) = true ∧
    served.coh.rangeJob = none ∧ (2 ^ 63 : BitVec 64).getLsbD 63 = true ∧ cacheLink { served with host := { served.host with flit256 := true } } = true ∧
    canDrain ⟨0, true, 5, 1, 0, [3], 0, []⟩ served = true ∧ served.coh.trestleLines = [] ∧
    (let d : HdmDecoder := { committed := true, size := 64 }
     let u := { served with host := { served.host with hdm := [(0, d)] }, coh := { served.coh with sweeping := [(0, 0)] } }
     sweepLine u 0 0 = some 0 ∧ homeAway u 0 = false ∧ busy u 0 = false ∧ u.coh.victims = []) ∧
    (let u := { served with coh := { served.coh with sweeping := [(1, 0)] } }
     sweepLine u 1 0 = none ∧ u.coh.sweeping.find? (fun x => x.1 = 1) = some (1, 0) ∧ u.coh.qmoves = []) := by decide +kernel

/-- Engine 0 holds a descriptor of context 0 for 4 KiB at 0, as given. -/
def engineHolds (x : Xfer) : State :=
  let r : Tbl (BitVec 52 × Bool) := [(0, (1, true))]
  { served with xl := { engines := [(0, some x)], walkQ := [0], roots := r } }
def desc0 (op : Byte) : Xfer :=
  { op := op, heat := false, ctx := 0, cls := 1, va := 0, dpa := 0, length := 4096, tag := 0, use := .other, entries := []
    moved := 0, asked := [], waitPrg := none, chunk := false, stopped := false }
/-- A mode for new walks. -/
def inMode (ats walks : Bool) (s : State) : State :=
  { s with host := { s.host with atsEn := ats, priEn := true }, xl := { s.xl with valid := walks } }
def prg0 : Prg := { index := 0, pasid := 0, page := 0, write := false, engines := [0], deadline := 5 }
theorem meets_Translations :
    let a := inMode true false (engineHolds (desc0 1))
    let w := inMode true true (engineHolds (desc0 1))
    (xferGet a 0).isSome = true ∧ (desc0 1).nextPage = some 0 ∧ canRequest a = true ∧ mayWalk a 0 = true ∧ xlMode a = 1 ∧
    xlMode w = 2 ∧ walkerBusy 0 w = false ∧ (tget (fun _ => ((0 : BitVec 52), false)) w.xl.roots 0).2 = true ∧
    (flagOf served.xl.pBit 1).getD true = true ∧ (flagOf served.xl.pBit 0).getD true = false ∧
    (flagOf served.xl.uBit 1).getD true = false ∧ (levelAt served 0).idxLo = 12 ∧ served.xl.flags.getLsbD 2 = false ∧
    [prg0].find? (fun p => p.index = 0) = some prg0 ∧ served.ticks < prg0.deadline ∧ prg0.deadline ≤ (servedAt 5).ticks ∧ served.xl.prgQuar = [] ∧ served.xl.invs = [] ∧ served.xl.invWait = [] ∧ served.host.dlUp = true ∧
    writable served = true ∧ served.host.bindings = [] ∧ served.xl.levels.toNat = 4 := by decide +kernel
/-- The words of a descriptor of 4 KiB with an OP, class 1. -/
def descWord (op : Nat) : BitVec 512 := BitVec.ofNat 512 (op + 2 ^ 32 + 4096 * 2 ^ 192)
theorem meets_Transfers : alive served = true ∧ xferGet served 0 = none ∧ served.faults.resets = [] ∧
    cmdField (descWord 1) 0 1 = 1 ∧ cmdField (descWord 1) 4 1 = 1 ∧ cmdField (descWord 1) 0x18 4 = 4096 ∧
    cmdField (descWord 1) 0x20 32 = 0 ∧ xlMode (inMode true false served) = 1 ∧ served.host.reads = [] ∧ served.pair.winReqs = [] ∧
    (xferGet (engineHolds { desc0 3 with chunk := true }) 0).any (fun x => x.chunk && x.op = 3 && x.toRead = [] && !x.written && x.use = .other) = true ∧ fillsOut served 0 = false ∧
    (let u := engineHolds { desc0 2 with chunk := true }
     canRequest u = true ∧ (xferGet (writeHost { desc0 2 with chunk := true } [] [] u) 0).isSome = true) ∧
    xferGet (failXfer 0 7 (engineHolds { desc0 4 with chunk := true, poison := true })) 0 = none ∧
    served.xl.nextDecay ≤ (servedAt 100000000).ticks ∧ served.xl.hotEn = false ∧ writable served = true := by decide +kernel
/-- The lowest page-table entry of page 0 has been asked for; it comes back as 4007h. -/
theorem test_walk_page_zero : (let s := inMode true true (engineHolds { desc0 1 with walk := some { walker := 0, page := 0, level := 0, at_ := 4096 } })
    (xferGet (walkData 0 0x4007 s) 0).any (fun x => x.entries.any (fun e => e.hpa = 0x4000))) = true := by decide +kernel
theorem meets_Translations_busy_walker : let s := inMode true true (engineHolds (desc0 1))
    let u := { s with xl := { s.xl with
      engines := tset (fun _ => none) s.xl.engines 1 (some { desc0 1 with walk := some { walker := 7, page := 0, level := 0, at_ := 4096 } })
      walkQ := 1 :: s.xl.walkQ } }
    walkerBusy 7 u = true ∧ mayWalk u 0 = true ∧ xlMode u = 2 := by decide +kernel
theorem test_walk_asks : gives (.walk 0 0) (inMode true true (engineHolds (desc0 1)))
    (fun t => t.host.reads.any (fun r => r.addr = 4096 && r.use = .walker 0)) = true := by decide +kernel

/-- Port 0 as given. -/
def portAs (p : GirthPort) : State := { served with girth := { ports := [(0, p)] } }
def startingAt (k : Nat) : State := portAs { st := .init, step := k, stepDeadline := 5 }
def quiescingBy (d : Nat) : State := portAs { st := .quiescing, quiesceBy := some d }
theorem meets_GirthPorts : alive served = true ∧ (portGet (portAs { st := .up }) 0).linked = true ∧ (portGet (startingAt 4) 0).linked = true ∧
    (portGet (startingAt 6) 0).step = 6 ∧ (portGet served 0).st = .off ∧ (portGet served 0).sweepBusy = false ∧
    (portGet (portAs { st := .training, step := 1, pwren := true, stepDeadline := 5 }) 0).pwren = true ∧ served.faults.safe = false ∧
    (startingAt 6).ticks < (portGet (startingAt 6) 0).stepDeadline ∧
    (portGet (portAs { st := .init, step := 6 }) 0).stepDeadline ≤ (portAs { st := .init, step := 6 }).ticks ∧
    (portGet (quiescingBy 5) 0).quiesceBy = some 5 ∧ (quiescingBy 5).ticks < 5 ∧ (0 : Nat) ≤ (quiescingBy 0).ticks ∧
    (portGet (portAs { st := .fenced, sweepBusy := true }) 0).sweepBusy = true ∧ (portGet served 0).present = false := by decide +kernel
theorem meets_ChipletAccesses :
    let w : HostWin := { en := true, base := 0, last := 5 }
    let it : Item := ⟨1, 0, 1, 0, 0, 100, [], true, none⟩
    let s := portAs { st := .up, items := [it], hwin := [w], itemsMax := 4 }
    (portGet s 0).st = .up ∧ (portGet s 0).txns = [] ∧ bmeOn s = true ∧ it.sent = true ∧ it.ctx = 0 ∧
    (dcHostRead 3 0 0 false { served with host := { served.host with flit256 := true } }).isSome = true ∧
    (dcStoreIn 3 false 0 0 0 { s with host := { s.host with flit256 := true } }).isSome = true ∧
    ([{ it with sent := false }].find? (fun t => !t.sent)).isSome = true ∧
    ([it].find? (fun t => t.sent && t.tag = 1)).isSome = true := by decide +kernel
theorem test_port_ready_is_up : gives (.ready 0) (portAs { st := .init, step := 6, stepDeadline := 5, creditIn := true })
    (fun t => (portGet t 0).st = .up) = true := by decide +kernel

/-- Domain `n` as given. -/
def domainAs (n : Nat) (x : Pd) : State := pdSet n x served
def domainIn (n : Nat) (st : PdState) : State := domainAs n { pdGet served n with st := st }
theorem meets_Deck : alive served = true ∧ validUnit 5 = true ∧ unitDomain 5 = some 5 ∧ (pdGet (domainIn 5 .off) 5).st ≠ .on ∧
    served.deck.quarantine = [] ∧
    served.faults.safe = false ∧ (pdGet (domainIn 5 .on) 5).fence = none ∧ offError 5 (domainIn 5 .on) = 0 ∧
    offError 320 (domainIn 320 .on) = 1 ∧ pierInUse stored 0 = true ∧ served.deck.wakeQueue = [] ∧
    quiet 5 (domainIn 5 .closing) = true ∧ (pdGet (domainIn 330 .closing) 330).waiting = none ∧
    (pdGet (stopPier 5 (domainIn 5 .off)) 5).waiting = none := by decide +kernel
theorem meets_BlockResets : let s : State := { served with faults := { resets := [⟨.domain 5, 7, 5⟩] } }
    s.faults.resets.find? (fun r => r.block = .domain 5) = some ⟨.domain 5, 7, 5⟩ ∧ s.ticks < 5 ∧ 5 ≤ (servedAt 5).ticks ∧
    served.faults.sources = [] := by decide +kernel
theorem meets_DeckWaits : (pdGet (domainIn 5 .waking) 5).st = .waking ∧ ((domainIn 5 .off).deck.pds.filter (fun e => e.2.st = .waking)).length < 24 ∧
    ({ served with deck := { reconfBusy := true, pendingMap := [] } } : State).deck.reconfBusy = true := by decide +kernel
theorem meets_Fences :
    let m : BlockMsg := ⟨.domain 5, true, 7⟩
    let s : State := { served with faults := { messages := [m] } }
    s.faults.messages.find? (fun m => m.block = .domain 5 && m.isFence = true && m.source = 7) = some m ∧
    blockFenced (.domain ⟨5, by decide⟩) (domainIn 5 .on) = false ∧ lastQuarter (.domain 5) (domainIn 5 .on) = false ∧
    (pdGet (domainIn 5 .on) 5).fencing = false ∧ (pdGet (domainAs 5 { fence := some (7, 0), st := .closing }) 5).fence = some (7, 0) ∧
    served.faults.resets = [] ∧ served.deck.ops = [] := by decide +kernel

/-- A served part with one session as given, and context 0 as given. -/
def inSession (x : Session) (c : Context) : State :=
  { served with sec := { sessions := [x], conn := 3, contexts := [(0, c)] }, store := { lock := true } }
def session0 (secured : Bool) : Session := ⟨0, secured, true, 7, some 0, none, 0⟩
theorem meets_Spdm :
    let s := inSession (session0 true) { admitted := true }
    s.host.phyUp = true ∧ s.power.phase = .served ∧ s.sec.lifecycle = .deployed ∧ s.sec.conn = 3 ∧
    sessGet s 0 = some (session0 true) ∧ selectedCtx s none = none ∧ s.sec.chunks = [] ∧
    findBelow 16 (fun i => (sessGet s i).isNone) = some 1 ∧ s.host.ideFailed = none ∧
    sessGet (inSession (session0 false) {}) 0 = some (session0 false) ∧ (session0 false).requester = 7 := by decide +kernel
theorem meets_Contexts :
    let s := inSession (session0 true) { admitted := true }
    let o := inSession { session0 true with covered := some (0, List.replicate 12 0) } { admitted := true, st := .created, owner := 7 }
    s.faults.safe = false ∧ (ctxGet s 0).st = .free ∧ ownContext 0 s = true ∧ (tryLock s).isSome = true ∧ waits s = false ∧
    (ctxGet o 0).owner = 7 ∧ attested o { session0 true with covered := some (0, List.replicate 12 0) } 0 = true ∧
    modelOf o 0 = none ∧ loading o 0 = false ∧ served.sec.contexts = [] ∧ writable s = true := by decide +kernel
theorem test_ctx_create : gives (.ctxCreate (some 0) 0 false 0 9) (inSession (session0 true) { admitted := true })
    (fun t => (ctxGet t 0).st = .created && (ctxGet t 0).cred = 9) = true := by decide +kernel

def startUp (n : Nat) : State := let p : Power := { step := n }; { power := p }
theorem meets_Power : (startUp 1).power.phase = .starting ∧ (startUp 1).ticks < stepDue (startUp 1) ∧ (startUp 6).ticks < stepDue (startUp 6) ∧
    served.power.modRstN = true ∧ (powerOn served).power.modRstN = false ∧
    stepDue { startUp 4 with ticks := 2000000 } ≤ 2000000 ∧ autoEnded served = true ∧ served.pair.st ≠ .pairing ∧ served.coh.qmoves = [] ∧
    served.power.done = false ∧ served.coh.sweeping = [] ∧ alive served = true ∧ served.power.pmRead = none ∧ served.power.readings = [] ∧
    served.power.lastReading + 1001 ≤ (servedAt 5000).ticks ∧ served.sec.lifecycle = .deployed := by decide +kernel
theorem test_step_one_ends : gives (.startStepEnd true ⟨0xFF, 0, 0, 750⟩ 0 []) (startUp 1)
    (fun t => t.power.step = 2 && t.power.railOk = 0xFF) = true := by decide +kernel

/-- A booted node with an ID in force. -/
def noded (id : Byte) (m : Milell) : State := { served with milell := { m with nodeId := id, nodeInForce := id, booted := true } }
theorem meets_FieldNetwork : onNetwork (noded 5 {}) = true ∧ canUp (noded 0xFF {}) = true ∧ usdoServed (noded 5 {}) = true ∧
    (noded 5 {}).milell.heartbeatMs ≠ 0 ∧ (noded 5 {}).milell.nextHeartbeat ≤ 0 ∧ (noded 5 {}).faults.safe = false ∧
    (noded 0xFF {}).milell.nodeInForce = 0xFF ∧ (noded 5 {}).milell.segs = [] ∧
    (noded 5 { segs := [⟨3, true, 0x1018, 1, [1, 2], 0⟩] }).milell.segs.find? (fun x => x.client = 3) = some ⟨3, true, 0x1018, 1, [1, 2], 0⟩ := by
  decide +kernel
theorem test_lss_boots : gives (.lssConfigureNodeId 9) (noded 0xFF {}) (fun t => t.milell.nodeInForce = 9) = true := by decide +kernel

/-- A node with one read request of the field network at core 1. -/
def asked : State :=
  let t : Trestle := { doorbell := 1 }
  { noded 5 { usdo := [⟨3, 0x1018, 1, none, false⟩] } with trestle := [(1, t)] }
theorem meets_Registers : bar0Open served = true ∧ (dwGet served 0).busy = false ∧ served.host.phyUp = true ∧ canUp asked = true ∧
    (trestleGet asked 1).last = none ∧ (trestleGet asked 1).doorbell.getLsbD 0 = true ∧ asked.milell.usdo.length = 1 ∧
    ((dictSubs served 0x2004).find? (fun e => e.1 = 1)).isSome = true ∧ dictSubs served 0x1FFF = [] ∧
    (dictSubs served 0x2004).find? (fun e => e.1 = 77) = none := by decide +kernel
theorem test_dict_read : gives (.dictRead .field) asked (fun t => t.milell.usdo = [] && (trestleGet t 1).last = none) = true := by decide +kernel
theorem test_register_write_pace : gives (.registerWrite ⟨.bar0, 0x20008, 4, 0x80000190⟩) served
    (fun t => t.pace.trimEn && t.pace.targetPs = 400) = true := by decide +kernel

theorem meets_R317 : srcDomain 5 = some 5 ∧ (pdGet (domainIn 5 .off) 5).st ≠ .on ∧ (pdGet served 5).st = .on := by decide +kernel
theorem meets_R325 : alive faulty = true ∧ faulty.faults.safe = false ∧ live faulty 5 = false ∧
    live { faulty with faults := { sources := [(5, { srcReset 5 with asserted := 1 })], lock := true } } 5 = true := by decide +kernel
theorem meets_R336 : writable served = true ∧ (ctxGet served 3).st = .free ∧ (ctxGet served 3).admitted = false ∧
    (ctxGet (inSession (session0 true) { st := .created }) 0).st ≠ .free := by decide +kernel
theorem meets_Steps : (match step served with
    | .next t => Memory.wf t.store.cells && Memory.wf t.store.scratch && Memory.wf served.store.cells
    | _ => false) = true := by decide +kernel

/-! ### WellFormed: each check refuses an ill-formed term -/

theorem test_wf_paceUpdate : Instr.wellFormed (.paceUpdate []) = false := by decide
theorem test_wf_paceUpdate_good : Instr.wellFormed (.paceUpdate (List.replicate 16 0)) = true := by decide
theorem test_wf_codebookLoad : Instr.wellFormed (.codebookLoad 0 []) = false := by decide
theorem test_wf_reduce : Instr.wellFormed (.reduce 0 0 [[1, 1]]) = false := by decide
theorem test_wf_arrayStep (o : OperandRead) (h : o.lanes = []) : Instr.wellFormed (.arrayStep 0 none (some o) none) = false := by
  simp [Instr.wellFormed, h]
theorem test_wf_memoryRead (r : MemRequester) : Instr.wellFormed (.memoryRead 0 r [(1, 0), (1, 0)]) = false := by
  simp [Instr.wellFormed]
theorem test_wf_patrolScrub : Instr.wellFormed (.patrolScrub 0 [(1, 0), (1, 0)]) = false := by decide
theorem test_wf_refresh : Instr.wellFormed (.refresh ⟨.unit (.tier 0 0), some 30⟩) = false := by decide
theorem test_wf_journalWrite : Instr.wellFormed (.journalWrite 0 0 (List.replicate 65 0)) = false := by decide
theorem test_wf_journalImage : Instr.wellFormed (.journalImage 0 0 0 0 (List.replicate 65 0)) = false := by decide
theorem test_wf_windowReadData : Instr.wellFormed (.windowReadData 0 0 (List.replicate 65 0)) = false := by decide
theorem test_wf_windowWrite : Instr.wellFormed (.windowWrite 0 0 0 0 0 0 (List.replicate 65 0)) = false := by decide
theorem test_wf_girthFlit : Instr.wellFormed (.girthFlit 0 ⟨0, 0, false, true, 0, 0, [1], false⟩) = false := by decide
theorem test_wf_credit : Instr.wellFormed (.credit 0 [1]) = false := by decide
theorem test_wf_join : Instr.wellFormed (.join 0 5 9 4) = false := by decide
theorem test_wf_bcast : Instr.wellFormed (.bcast 5 4 0) = false := by decide
theorem test_wf_andOp : Instr.wellFormed (.andOp 0 5 9 10 true) = false := by decide
theorem test_wf_snap : Instr.wellFormed (.snap 0 5 9 4) = false := by decide
theorem test_wf_resetOp : Instr.wellFormed (.resetOp 0 5 9 4) = false := by decide
theorem test_wf_registerWrite : Instr.wellFormed (.registerWrite ⟨.bar0, 0, 3, 0⟩) = false := by decide

/-! ### Check code (R126, R127): the generator's roots are 1, α and α^2, so every codeword has the syndromes 0; one symbol in
error is found, two are not corrected -/

theorem test_codeword_clean : (let w := codeword 0x5A5A1234 { ctxTag := 5, epoch := 2, poison := false }
    polyAt 1 w = 0 ∧ polyAt 2 w = 0 ∧ polyAt 4 w = 0) := by decide +kernel
theorem test_one_symbol : checkOut [(7, 0x8001)] = .corrected 7 0x8001 := by decide +kernel
theorem test_two_symbols : checkOut [(3, 1), (20, 0x400)] = .uncorrectable := by decide +kernel

/-- Mirrored and served, with a trim request outstanding until tick `d`. -/
def asking (d : Nat) (n : Nat) : State :=
  { servedAt n with pace := { ({} : Pace) with trimEn := true, request := some (700, d), nextUpdate := 0, nextTrim := 0 } }
theorem meets_PaceViaductAndJournal :
    alive (asking 5 0) = true ∧ (asking 5 0).faults.safe = false ∧ (asking 5 0).pace.request = some (700, 5) ∧
    (asking 5 0).ticks < 5 ∧ 5 ≤ (asking 5 9).ticks ∧ (asking 5 0).pace.nextUpdate ≤ (asking 5 0).ticks ∧
    (let p : Pace := { trimEn := true, stagePs := 450, nextTrim := 0 }
     p.request = none ∧ p.targetPs.toNat + 4 < p.stagePs.toNat ∧ p.vcoreMv.toNat < 800) ∧
    ({ step := 5 } : Viaduct).step = 5 ∧ ({ samples := [] } : Viaduct).samples.length < 63 ∧
    framesFlow (mirroredWith {}) = true ∧ (mirroredWith {}).pair.cursorDirty = [] ∧
    linked (journaled (.read 1 0 0 0)) = true ∧ sends (journaled (.read 1 0 0 0)) = true ∧
    (journaled (.read 1 0 0 0)).pair.winReqs = [(6, .read 1 0 0 0)] ∧ (journaled (.write 1)).pair.winReqs = [(6, .write 1)] ∧
    0 + 64 ≤ regionLines (journaled (.write 1)) * 64 ∧
    (storeFor 1 0 (.window 1) 0 0 false (journaled (.write 1))).coh.posted.length = (journaled (.write 1)).coh.posted.length := by decide +kernel

end Sys2Proof.Tests
end

section
/-!
PROOFS of O55 and O56 (12_fault_collector.md, R317 and R325): sources whose domain is not ON are not sampled, and status
bits clear only while LIVE reads 0.
-/
namespace Sys2Proof.Machine

/-! ### What the registers of a source and its sampling depend on -/

theorem srcGet_congr {s t : State} (h : t.faults = s.faults) (m : Nat) : srcGet t m = srcGet s m := by
  simp only [srcGet, h]

theorem sampled_congr {s t : State} (h : t.deck = s.deck) (n : Nat) : sampled t n = sampled s n := by
  unfold sampled pdGet
  rw [h]

theorem sampled_eq_decide {n d : Nat} (hd : srcDomain n = some d) (s : State) :
    sampled s n = decide ((pdGet s d).st = .on) := by
  simp only [sampled, hd]

/-- A source that is not sampled has LIVE 0, whatever its pairs read. -/
theorem live_eq_false_of_not_sampled {s : State} {n : Nat} (h : sampled s n = false) : live s n = false := by
  simp only [live, h, Bool.and_false]

theorem srcGet_pdSet (d : Nat) (x : Pd) (s : State) (m : Nat) : srcGet (pdSet d x s) m = srcGet s m :=
  srcGet_congr (pdSet_faults d x s) m

theorem srcGet_count (k : Nat) (s : State) (m : Nat) : srcGet (count k s) m = srcGet s m :=
  srcGet_congr (count_faults k s) m

/-! ### A source that is not sampled latches nothing (R317) -/

/-- Only what the sources' pairs read differs: no register that an event writes, and nothing outside the source table. -/
def OnlyAsserted (s t : State) : Prop :=
  t = { s with faults := { s.faults with sources := t.faults.sources } } ∧
    ∀ m, srcGet t m = { srcGet s m with asserted := (srcGet t m).asserted }

theorem OnlyAsserted.refl (s : State) : OnlyAsserted s s := ⟨rfl, fun _ => rfl⟩

theorem onlyAsserted_srcSet (n : Nat) (a : BitVec 3) (s : State) :
    OnlyAsserted s (srcSet n { srcGet s n with asserted := a } s) := by
  refine ⟨rfl, fun m => ?_⟩
  by_cases h : m = n
  · subst h
    rw [srcGet_srcSet_self]
  · rw [srcGet_srcSet_other _ _ h]

theorem OnlyAsserted.sampled_eq {s t : State} (h : OnlyAsserted s t) (n : Nat) : sampled t n = sampled s n :=
  sampled_congr (by rw [h.1]) n

/-- A source that is not sampled latches no event and no wire fault, in any class. -/
theorem latch_of_not_sampled {s : State} {n : Nat} (h : sampled s n = false) (c : FaultClass) (wire : Bool) (detail : Nat) :
    latch n c wire detail s = s := by
  simp [latch, h]

/-- A level source that is not sampled keeps its condition in its pair alone. -/
theorem raiseLevel_of_not_sampled {s : State} {n : Nat} (h : sampled s n = false) (c : FaultClass) (on : Bool) (detail : Nat) :
    OnlyAsserted s (raiseLevel n c on detail s) := by
  unfold raiseLevel
  dsimp only
  split
  · rw [latch_of_not_sampled (by rwa [(onlyAsserted_srcSet n _ s).sampled_eq])]
    exact onlyAsserted_srcSet n _ s
  · split
    · exact onlyAsserted_srcSet n _ s
    · exact .refl s

/-- FAULT_LATCH of a source that is not sampled: nothing, or a change of what its pairs read. -/
theorem exec_faultLatch_of_not_sampled {s : State} {n : Fin 2944} (h : sampled s n = false) (c : FaultClass)
    (what : PairEvent) (detail : W32) :
    ∃ t, exec (.faultLatch n c what detail) s = .next t ∧ OnlyAsserted s t := by
  refine ⟨_, rfl, ?_⟩
  dsimp only
  split
  · exact .refl s
  · split
    · exact onlyAsserted_srcSet n _ s
    · split
      · rw [latch_of_not_sampled (by rwa [(onlyAsserted_srcSet n _ s).sampled_eq])]
        exact onlyAsserted_srcSet n _ s
      · split
        · exact raiseLevel_of_not_sampled h c true _
        · simp only [latch_of_not_sampled h, h, Bool.and_false, Bool.false_eq_true, if_false]
          exact .refl s

/-- Settles O55: whatever reaches the collector from a source of a domain that is not ON changes what its pairs read and
nothing else, and LIVE stays 0. -/
theorem onlyPoweredSourcesAreSampled : Obligations.OnlyPoweredSourcesAreSampled := by
  intro s n d hd
  refine ⟨fun hon => ?_, fun hoff => ?_, fun x hx => ⟨?_, srcGet_pdSet d x s⟩⟩
  · rw [sampled_eq_decide hd, decide_eq_true hon]
  · have hns : sampled s n = false := by rw [sampled_eq_decide hd, decide_eq_false hoff]
    refine ⟨hns, live_eq_false_of_not_sampled hns, fun c what detail => ?_⟩
    obtain ⟨t, he, ht⟩ := exec_faultLatch_of_not_sampled hns c what detail
    refine ⟨t, he, ht.1, live_eq_false_of_not_sampled (by rw [ht.sampled_eq, hns]), fun m => ?_⟩
    rw [ht.2 m]
    exact ⟨rfl, rfl, rfl, rfl, rfl, rfl⟩
  · rw [sampled_eq_decide hd, pdGet_pdSet_self, decide_eq_false hx]

/-! ### Clearing status bits (R325) -/

theorem writable_eq_true {s : State} (ha : alive s = true) (hs : s.faults.safe = false) : writable s = true := by
  simp [writable, ha, hs]

/-- While LIVE reads 0 the bits written as 1 clear in the source, and the emergency message of the last one touches Milell,
the counters and what leaves the block. -/
theorem clearSource_eq {n : Nat} {s : State} (h : live s n = false) (ones : Byte) :
    ∃ m b o, clearSource n ones s =
      { srcSet n ((srcGet s n).clear ones) s with milell := m, obs := b, out := o } := by
  unfold clearSource
  simp only [h, Bool.false_eq_true, if_false]
  split
  · obtain ⟨m, b, o, e, -⟩ := emcy_eq 0 0 [] false (srcSet n ((srcGet s n).clear ones) s)
    exact ⟨m, b, _, e⟩
  · exact ⟨_, _, _, rfl⟩

theorem exec_faultClear_of_not_live {n : Fin 2944} {s : State} (hw : writable s = true) (h : live s n = false) (ones : Byte) :
    exec (.faultClear n ones) s = .next (clearSource n ones s) := by
  show execFaultClear n ones s = _
  simp [execFaultClear, hw, h]

theorem exec_faultClear_of_live {n : Fin 2944} {s : State} (hw : writable s = true) (h : live s n = true) (ones : Byte) :
    exec (.faultClear n ones) s = .next (count 2688 s) := by
  show execFaultClear n ones s = _
  simp [execFaultClear, hw, h]

/-- Settles O56: a write with LIVE 0 is one write of the source's own registers, one with LIVE 1 is counted. -/
theorem statusBitsClearWhileNotLive : Obligations.StatusBitsClearWhileNotLive := by
  refine ⟨fun n ones s ha hs hl => ?_, fun n ones s ha hs hl =>
    ⟨exec_faultClear_of_live (writable_eq_true ha hs) hl ones, srcGet_count 2688 s⟩⟩
  refine ⟨_, exec_faultClear_of_not_live (writable_eq_true ha hs) hl ones, ?_⟩
  obtain ⟨m, b, o, e⟩ := clearSource_eq hl ones
  have hf : (clearSource n ones s).faults = (srcSet n ((srcGet s n).clear ones) s).faults := by rw [e]
  refine ⟨?_, fun k hk => ?_, ?_, ?_⟩
  · rw [srcGet_congr hf, srcGet_srcSet_self]
    rfl
  · rw [srcGet_congr hf, srcGet_srcSet_other _ _ hk]
  · rw [hf]
    rfl
  · rw [e]
    rfl

end Sys2Proof.Machine
end

section
/-!
PROOFS of O57 (13_security.md, R336): a context is admitted before it can be created.
-/
namespace Sys2Proof.Machine

/-! ### Context records -/

theorem ctxGet_congr {s t : State} (h : t.sec = s.sec) (m : Nat) : ctxGet t m = ctxGet s m := by
  simp only [ctxGet, h]

theorem ctxGet_ctxSet_other {n m : Nat} (x : Context) (s : State) (h : m ≠ n) : ctxGet (ctxSet n x s) m = ctxGet s m :=
  tget_tset_other _ _ _ h

/-- A record that changes in no field of Table 13-3 is stored as it is, with the stamp it carries. -/
theorem ctxGet_ctxSet_of_measured_eq {n : Nat} {x : Context} {s : State}
    (h : (ctxGet s n).st = x.st ∧ (ctxGet s n).hostmemOn = x.hostmemOn ∧ (ctxGet s n).rotOpen = x.rotOpen ∧
      (ctxGet s n).epoch = x.epoch ∧ (ctxGet s n).burnishOpen = x.burnishOpen ∧ (ctxGet s n).keyId = x.keyId ∧
      (ctxGet s n).owner = x.owner) : ctxGet (ctxSet n x s) n = x := by
  refine (tget_tset_self _ _ _ _).trans ?_
  obtain ⟨hst, hhost, hrot, hepoch, hburnish, hkey, howner⟩ := h
  simp [hst, hhost, hrot, hepoch, hburnish, hkey, howner]

theorem ctxSet_eq_contexts (n : Nat) (x : Context) (s : State) :
    ctxSet n x s = { s with sec := { s.sec with contexts := (ctxSet n x s).sec.contexts } } := rfl

/-! ### What counting and answering leave of the security root -/

@[simp] theorem countIgnored_sec (off : Nat) (s : State) : (countIgnored off s).sec = s.sec := by
  unfold countIgnored
  split
  · split
    · rfl
    · split <;> rfl
  · split
    · rfl
    · split <;> rfl

@[simp] theorem spdmError_sec (session : SessionId) (what : String) (s : State) : (spdmError session what s).sec = s.sec := rfl

@[simp] theorem vendorRsp_sec (session : SessionId) (code status : Nat) (s : State) :
    (vendorRsp session code status s).sec = s.sec := by
  unfold vendorRsp
  dsimp only
  split <;> rfl

/-- A vendor-defined message leaves the security root alone when both its refusal and its service do: reaching the
responder, and every error on the way, change nothing of it. -/
theorem vendor_sec {session : SessionId} {code : Nat} {refused : State → State} {f : Session → State → State} {s : State}
    (hr : ∀ t, (refused t).sec = t.sec) (hf : ∀ x t, t.sec = s.sec → (f x t).sec = t.sec) :
    (vendor session code refused f s).sec = s.sec := by
  unfold vendor doe
  dsimp only
  have hring : (ringDoorbell 7 0 s).sec = s.sec := ringDoorbell_sec 7 0 s
  split
  · split
    · rw [spdmError_sec, hring]
    · split
      · rw [vendorRsp_sec, hr, hring]
      · split
        · split
          · rw [hf _ _ hring, hring]
          · rw [vendorRsp_sec, hr, hring]
        · rw [vendorRsp_sec, hr, hring]
  · rfl

/-! ### CTX_ADMIT and CTX_CREATE (R336) -/

theorem exec_ctxAdmitWrite {s : State} (hw : writable s = true) (c : Ctx) (v : W64) :
    exec (.ctxAdmitWrite c v) s = .next (ctxAdmit c.val v s) := by
  show execCtxAdmitWrite c v s = _
  rw [execCtxAdmitWrite, if_pos hw]

theorem ctxAdmit_of_free {n : Nat} {s : State} (h : (ctxGet s n).st = .free) (v : W64) :
    ctxAdmit n v s = ctxSet n { ctxGet s n with admitted := v.getLsbD 63, hostmem := v.getLsbD 62 } s :=
  if_neg (fun hne => hne h)

theorem ctxAdmit_of_not_free {n : Nat} {s : State} (h : (ctxGet s n).st ≠ .free) (v : W64) :
    ctxAdmit n v s = countIgnored (0x98000 + 8 * n) s :=
  if_pos h

/-- CTX_CREATE of a context whose ADMIT is 0 is answered, and changes nothing of the security root. -/
theorem execCtxCreate_sec_of_not_admitted {s : State} {n : W16} (h : (ctxGet s n.toNat).admitted = false)
    (session : SessionId) (host : Bool) (rsv : BitVec 47) (cred : W64) :
    ∃ t, execCtxCreate session n host rsv cred s = .next t ∧ t.sec = s.sec := by
  refine ⟨_, rfl, vendor_sec (fun _ => rfl) fun x t ht => ?_⟩
  have hadm : (!(ctxGet t n.toNat).admitted) = true := by rw [ctxGet_congr ht, h]; rfl
  dsimp only
  rw [if_pos hadm]
  split
  · exact vendorRsp_sec session 2 stFormat t
  · split <;> exact vendorRsp_sec session 2 stPerm t

/-- Settles O57: a write of CTX_ADMIT changes the two bits of a free context's record and no other record, and CTX_CREATE
gets no further than its check of ADMIT. -/
theorem contextsAreAdmittedBeforeCreation : Obligations.ContextsAreAdmittedBeforeCreation := by
  refine ⟨fun s c v hw => ⟨fun hfree => ?_, fun hused => ?_⟩, fun s t session n host rsv cred hadm he => ?_⟩
  · refine ⟨_, exec_ctxAdmitWrite hw c v, ?_⟩
    rw [ctxAdmit_of_free hfree]
    exact ⟨ctxGet_ctxSet_of_measured_eq ⟨rfl, rfl, rfl, rfl, rfl, rfl, rfl⟩,
      fun m hm => ctxGet_ctxSet_other _ s hm, ctxSet_eq_contexts _ _ s⟩
  · rw [exec_ctxAdmitWrite hw, ctxAdmit_of_not_free hused]
    exact ⟨rfl, countIgnored_sec _ s⟩
  · obtain ⟨t', he', hsec⟩ := execCtxCreate_sec_of_not_admitted hadm session host rsv cred
    obtain rfl : t' = t := Host.Outcome.next.inj (he'.symm.trans he)
    exact ctxGet_congr hsec _

end Sys2Proof.Machine
end

section
/-!
PROOFS of O58 and O59: what every command keeps of memory's canonical form, the queue, the ticks, the lifecycle and the fused
minimum version.
-/
namespace Sys2Proof.Machine
set_option Elab.async false

/-- From `s` to `t` memory stays canonical, the queue stays as it is, and ticks, lifecycle and fused minimum version move
forward only. -/
structure Keeps (s t : State) : Prop where
  cells : Memory.wf s.store.cells = true → Memory.wf t.store.cells = true
  scratch : Memory.wf s.store.scratch = true → Memory.wf t.store.scratch = true
  pending : t.pending = s.pending
  ticks : s.ticks ≤ t.ticks
  lifecycle : t.sec.lifecycle = s.sec.lifecycle ∨ t.sec.lifecycle = .retired
  minSvn : s.sec.minSvn.toNat ≤ t.sec.minSvn.toNat

/-- The state an operation of a stitch leaves, however it ended. -/
def Ev.state : Ev → State
  | .done _ _ s => s
  | .fault _ _ s => s
  | .wait s => s

/-- The state a page-in leaves, whether or not the pages were there. -/
def Paged.state : Paged → State
  | .ok s => s
  | .waits s => s
  | .noRoom s => s

namespace Keeps

variable {r s t : State}

theorem refl (s : State) : Keeps s s := ⟨id, id, rfl, Nat.le_refl _, .inl rfl, Nat.le_refl _⟩

theorem trans (h : Keeps r s) (k : Keeps s t) : Keeps r t where
  cells := k.cells ∘ h.cells
  scratch := k.scratch ∘ h.scratch
  pending := k.pending.trans h.pending
  ticks := Nat.le_trans h.ticks k.ticks
  lifecycle := by
    rcases k.lifecycle with e | e
    · rw [e]; exact h.lifecycle
    · exact .inr e
  minSvn := Nat.le_trans h.minSvn k.minSvn

/-- A change of other fields keeps what is kept. -/
theorem of_eq (h : Keeps r s) (hc : t.store.cells = s.store.cells := by rfl) (hs : t.store.scratch = s.store.scratch := by rfl)
    (hp : t.pending = s.pending := by rfl) (ht : t.ticks = s.ticks := by rfl)
    (hl : t.sec.lifecycle = s.sec.lifecycle := by rfl) (hm : t.sec.minSvn = s.sec.minSvn := by rfl) : Keeps r t where
  cells := by rw [hc]; exact h.cells
  scratch := by rw [hs]; exact h.scratch
  pending := hp.trans h.pending
  ticks := by rw [ht]; exact h.ticks
  lifecycle := by rw [hl]; exact h.lifecycle
  minSvn := by rw [hm]; exact h.minSvn

section
variable {pace : Pace} {ts : W64} {trestle : Tbl Trestle} {piers : Piers} {store : Store} {service : Service} {pair : Pair}
  {viaduct : Viaduct} {host : HostPort} {coh : Coherence} {xl : Translate} {girth : Girth} {deck : Deck} {faults : Faults}
  {sec : Security} {power : Power} {milell : Milell} {sb : Saddlebag} {obs : Observe} {free : Nat} {out : List Output}

theorem upd (h : Keeps r s) : Keeps r ⟨pace, ts, trestle, piers, s.store, service, pair, viaduct, host, coh, xl, girth, deck,
    faults, s.sec, power, milell, sb, obs, s.ticks, free, out, s.pending⟩ := h.of_eq

theorem updStore (h : Keeps r s) (hc : store.cells = s.store.cells := by rfl) (hs : store.scratch = s.store.scratch := by rfl) :
    Keeps r ⟨pace, ts, trestle, piers, store, service, pair, viaduct, host, coh, xl, girth, deck, faults, s.sec, power, milell,
      sb, obs, s.ticks, free, out, s.pending⟩ := h.of_eq hc hs

theorem updSec (h : Keeps r s) (hl : sec.lifecycle = s.sec.lifecycle := by rfl) (hm : sec.minSvn = s.sec.minSvn := by rfl) :
    Keeps r ⟨pace, ts, trestle, piers, s.store, service, pair, viaduct, host, coh, xl, girth, deck, faults, sec, power, milell,
      sb, obs, s.ticks, free, out, s.pending⟩ := h.of_eq (hl := hl) (hm := hm)

theorem updStoreSec (h : Keeps r s) (hc : store.cells = s.store.cells := by rfl)
    (hs : store.scratch = s.store.scratch := by rfl) (hl : sec.lifecycle = s.sec.lifecycle := by rfl)
    (hm : sec.minSvn = s.sec.minSvn := by rfl) :
    Keeps r ⟨pace, ts, trestle, piers, store, service, pair, viaduct, host, coh, xl, girth, deck, faults, sec, power, milell,
      sb, obs, s.ticks, free, out, s.pending⟩ := h.of_eq hc hs (hl := hl) (hm := hm)

end

theorem of_snd {α : Type} {p : α × State} {a : α} (h : Keeps r p.2) (he : p = (a, t)) : Keeps r t := by
  subst he
  exact h

/-- What every step of a fold keeps, the fold keeps. -/
theorem foldS {α : Type} {l : List α} {f : α → State → State} (h : Keeps r s)
    (hf : ∀ x t, Keeps r t → Keeps r (f x t)) : Keeps r (foldS l f s) :=
  foldS_keeps (P := Keeps r) f hf l s h

theorem ite {c : Prop} [Decidable c] (h1 : Keeps r s) (h2 : Keeps r t) : Keeps r (if c then s else t) := by
  split
  · exact h1
  · exact h2

/-- What every step of a fold keeps of the state its accumulator holds, the fold keeps. -/
theorem foldl_of {α β : Type} (st : β → State) {f : β → α → β} {l : List α} {b : β} (h : Keeps r (st b))
    (hf : ∀ x b, Keeps r (st b) → Keeps r (st (f b x))) : Keeps r (st (l.foldl f b)) := by
  induction l generalizing b with
  | nil => exact h
  | cons x l ih => exact ih (hf x b h)

/-- What every step of a fold over a list and a state keeps, the fold keeps. -/
theorem foldl_snd {α β : Type} {f : β × State → α → β × State} {l : List α} {b : β} (h : Keeps r s)
    (hf : ∀ x b t, Keeps r t → Keeps r (f (b, t) x).2) : Keeps r (l.foldl f (b, s)).2 := by
  induction l generalizing b s with
  | nil => exact h
  | cons x l ih => exact ih (b := (f (b, s) x).1) (hf x b s h)

end Keeps

namespace Keeps
variable {r s t : State}

theorem drawFree (h : Keeps r s) : Keeps r (Machine.drawFree s).2 :=
  h.upd

theorem execPaceUpdate {counts} (h : Keeps r s) : ∃ t, Machine.execPaceUpdate counts s = .next t ∧ Keeps r t :=
  ⟨_, rfl, .ite h.upd.upd h⟩

theorem setPaceTarget {trimEn target} (h : Keeps r s) : Keeps r (Machine.setPaceTarget trimEn target s) :=
  h.upd

theorem execPaceTargetWrite {value} (h : Keeps r s) : ∃ t, Machine.execPaceTargetWrite value s = .next t ∧ Keeps r t :=
  ⟨_, rfl, .ite h.setPaceTarget h⟩

theorem emit {o} (h : Keeps r s) : Keeps r (Machine.emit o s) :=
  h.upd

theorem requestVcore {mv} (h : Keeps r s) : Keeps r (Machine.requestVcore mv s) :=
  h.upd.emit

theorem execTrimInterval (h : Keeps r s) : ∃ t, Machine.execTrimInterval s = .next t ∧ Keeps r t :=
  ⟨_, rfl, .ite (.ite h.upd (.ite h.upd.requestVcore (.ite h.upd.requestVcore h.upd))) h⟩

theorem countN {k n} (h : Keeps r s) : Keeps r (Machine.countN k n s) :=
  h.upd

theorem count {k} (h : Keeps r s) : Keeps r (Machine.count k s) :=
  h.countN

theorem emcySend (h : Keeps r s) : Keeps r (Machine.emcySend s) := by
  unfold Machine.emcySend
  split
  · exact h
  · exact .ite h.upd.emit h

theorem emcy {code source mfg first} (h : Keeps r s) : Keeps r (Machine.emcy code source mfg first s) :=
  .ite h.upd (.ite h.upd.count h.upd.upd.emcySend)

theorem emcyOf {n c fresh wire detail} (h : Keeps r s) : Keeps r (Machine.emcyOf n c fresh wire detail s) :=
  .ite (Keeps.ite h.emcy h).emcy (.ite h.emcy h)

theorem traceTrim (h : Keeps r s) : Keeps r (Machine.traceTrim s) :=
  h.upd.countN

theorem trace {ev unit a b} (h : Keeps r s) : Keeps r (Machine.trace ev unit a b s) :=
  .ite h (.ite h.upd.count h.upd.count.traceTrim)

theorem srcSet {n x} (h : Keeps r s) : Keeps r (Machine.srcSet n x s) :=
  h.upd

theorem latchRegs {n c wire detail} (h : Keeps r s) : Keeps r (Machine.latchRegs n c wire detail s) :=
  .ite h.srcSet.upd h.srcSet

theorem msixSet {v e} (h : Keeps r s) : Keeps r (Machine.msixSet v e s) :=
  h.upd

theorem interrupt {vec} (h : Keeps r s) : Keeps r (Machine.interrupt vec s) :=
  .ite (.ite h.msixSet h.emit) (.ite h.upd.upd.emit h.upd)

theorem chipReset {cause} (h : Keeps r s) : Keeps r (Machine.chipReset cause s) :=
  trace ⟨h.cells, fun _ => rfl, h.pending, h.ticks, h.lifecycle, h.minSvn⟩

theorem handover {next} (h : Keeps r s) : Keeps r (Machine.handover next s) := by
  unfold Machine.handover
  refine .ite ?_ ?_
  · exact h
  · refine .ite ?_ ?_
    · exact h.upd
    · split
      · exact h.chipReset
      · exact h

theorem react {n c r' vec} (h : Keeps r s) : Keeps r (Machine.react n c r' vec s) := by
  unfold Machine.react
  refine .ite ?_ ?_
  · exact h
  · refine .ite ?_ ?_
    · exact (Keeps.ite (Keeps.ite h.interrupt h).upd (.ite h.interrupt h)).handover
    · exact .ite (Keeps.ite h.interrupt h).upd (.ite h.interrupt h)

theorem latch {n cls wire detail} (h : Keeps r s) : Keeps r (Machine.latch n cls wire detail s) :=
  .ite h (.ite h.latchRegs.trace.emcyOf h.latchRegs.trace.emcyOf.react)

theorem raise {n c detail} (h : Keeps r s) : Keeps r (Machine.raise n c detail s) :=
  h.latch

theorem trimLost (h : Keeps r s) : Keeps r (Machine.trimLost s) :=
  h.upd.raise

theorem execTrimAck (h : Keeps r s) : ∃ t, Machine.execTrimAck s = .next t ∧ Keeps r t := by
  refine ⟨_, rfl, ?_⟩
  split
  · exact .ite h.trimLost h.upd
  · exact h

theorem execTrimRefused (h : Keeps r s) : ∃ t, Machine.execTrimRefused s = .next t ∧ Keeps r t := by
  refine ⟨_, rfl, ?_⟩
  split
  · exact .ite h.trimLost h.upd
  · exact h

theorem execTrimTimeout (h : Keeps r s) : ∃ t, Machine.execTrimTimeout s = .next t ∧ Keeps r t := by
  refine ⟨_, rfl, ?_⟩
  split
  · exact .ite h.trimLost h
  · exact h

theorem trestleSet {c t'} (h : Keeps r s) : Keeps r (Machine.trestleSet c t' s) :=
  h.upd

theorem hopFlight {f} (h : Keeps r s) : Keeps r (Machine.hopFlight f s) :=
  .ite h h.upd.countN

theorem admitPacket {p} (h : Keeps r s) : Keeps r (Machine.admitPacket p s) :=
  .ite h.upd h.upd

theorem deckMoves (h : Keeps r s) : Keeps r (Machine.deckMoves s) := by
  unfold Machine.deckMoves
  refine .foldS ?_ fun _ _ h => ?_
  · refine .upd (.foldS ?_ fun _ _ h => ?_)
    · exact h
    · exact h.hopFlight
  · exact h.admitPacket

theorem sendPacket {p reply} (h : Keeps r s) : Keeps r (Machine.sendPacket p reply s) :=
  (Keeps.ite h.deckMoves.count h.deckMoves).upd.admitPacket

theorem sendMsg {m} (h : Keeps r s) : Keeps r (Machine.sendMsg m s) := by
  unfold Machine.sendMsg
  refine .foldS ?_ fun _ _ h => ?_
  · exact h.upd
  · exact h.sendPacket

theorem sendBlock {b isFence n} (h : Keeps r s) : Keeps r (Machine.sendBlock b isFence n s) :=
  .ite h (.ite h.handover (.ite h.upd.sendMsg (.ite h h.sendMsg)))

theorem takeTrap (h : Keeps r s) : Keeps r (Machine.takeTrap s) := by
  unfold Machine.takeTrap
  split
  · exact h
  · split
    · exact h.upd.trestleSet
    · refine .ite ?_ ?_
      · exact h.upd.trestleSet
      · exact .ite h.upd.trestleSet.sendBlock (.ite h.upd.trestleSet.sendBlock h.upd.trestleSet)

theorem bindResult {st} (h : Keeps r s) : Keeps r (Machine.bindResult st s) :=
  h.upd

theorem traceCtx {core ctx code b} (h : Keeps r s) : Keeps r (Machine.traceCtx core ctx code b s) :=
  h.trace

theorem bindingSet {c b} (h : Keeps r s) : Keeps r (Machine.bindingSet c b s) :=
  h.upd

theorem unmapped {req} (h : Keeps r s) : Keeps r (Machine.unmapped req s) :=
  h.raise.count

theorem touch {p a} (h : Keeps r s) : Keeps r (Machine.touch p a s) :=
  h.updStore

theorem putLine {p a d x} (h : Keeps r s) : Keeps r (Machine.putLine p a d x s) :=
  ⟨fun hr => wf_msetN (h.cells hr) _ _, h.scratch, h.pending, h.ticks, h.lifecycle, h.minSvn⟩

theorem writePlace {r' ctx p a l d mask poison} (h : Keeps r s) : Keeps r (Machine.writePlace r' ctx p a l d mask poison s) :=
  .ite h.touch (.ite h.touch.putLine h.touch.putLine)

theorem memWriteFor {ctx dpa req d mask poison} (h : Keeps r s) : Keeps r (Machine.memWriteFor ctx dpa req d mask poison s) := by
  unfold Machine.memWriteFor
  split
  · exact h.unmapped
  · split
    · exact h.count
    · refine .foldS ?_ fun _ _ h => ?_
      · exact h
      · exact h.writePlace

theorem homeCount {dpa} (h : Keeps r s) : Keeps r (Machine.homeCount dpa s) :=
  h.count

theorem storeFor {ctx dpa req d mask poison} (h : Keeps r s) : Keeps r (Machine.storeFor ctx dpa req d mask poison s) := by
  unfold Machine.storeFor
  split
  · exact .ite h.upd h.homeCount.memWriteFor
  · exact h.memWriteFor

theorem pokeBytes {req dpa l} (h : Keeps r s) : Keeps r (Machine.pokeBytes req dpa l s) := by
  unfold Machine.pokeBytes
  refine .foldS ?_ fun _ _ h => ?_
  · exact h
  · exact h.storeFor

theorem jWrite {off l} (h : Keeps r s) : Keeps r (Machine.jWrite off l s) := by
  unfold Machine.jWrite
  split
  · exact h.pokeBytes
  · exact h

theorem sendJournal {m w} (h : Keeps r s) : Keeps r (Machine.sendJournal m w s) :=
  h.upd

theorem mirror {off n w} (h : Keeps r s) : Keeps r (Machine.mirror off n w s) := by
  unfold Machine.mirror
  refine .foldS ?_ fun _ _ h => ?_
  · exact h
  · exact h.sendJournal

theorem jPut {off l w} (h : Keeps r s) : Keeps r (Machine.jPut off l w s) :=
  .ite h.jWrite.mirror h.jWrite

theorem putContext {n} (h : Keeps r s) : Keeps r (Machine.putContext n s) :=
  .ite h h.jPut

theorem issueRead {addr pasid n use retries} (h : Keeps r s) (he : Machine.issueRead addr pasid n use retries s = some t) :
    Keeps r t := by
  obtain ⟨_, _, rfl⟩ := Option.map_eq_some_iff.1 he
  exact h.upd.emit.count

theorem xferSet {e x} (h : Keeps r s) : Keeps r (Machine.xferSet e x s) :=
  h.upd

theorem issueReads {e fuel} (h : Keeps r s) : Keeps r (Machine.issueReads e fuel s) := by
  induction fuel generalizing s with
  | zero => exact h
  | succ fuel ih =>
    unfold Machine.issueReads
    split
    · exact h
    · split
      · exact h
      · refine .ite h ?_
        split
        · exact h
        · rename_i _ he
          exact ih (h.issueRead he).xferSet

theorem xferGot {e l d poison} (h : Keeps r s) : Keeps r (Machine.xferGot e l d poison s) := by
  unfold Machine.xferGot
  split
  · exact h.xferSet
  · exact h

theorem sliceCount {sl i} (h : Keeps r s) : Keeps r (Machine.sliceCount sl i s) :=
  h.count

theorem askLines {e} (h : Keeps r s) : Keeps r (Machine.askLines e s) := by
  unfold Machine.askLines
  split
  · exact h
  · refine .foldS ?_ fun _ _ h => ?_
    · exact h.xferSet
    · refine .ite ?_ ?_
      · exact h
      · split
        · exact h.sliceCount.xferGot
        · exact h.upd.sliceCount

theorem ctxSet {n x} (h : Keeps r s) : Keeps r (Machine.ctxSet n x s) :=
  h.updSec

theorem streamSet {i x} (h : Keeps r s) : Keeps r (Machine.streamSet i x s) :=
  h.upd

theorem freeKv {i} (h : Keeps r s) : Keeps r (Machine.freeKv i s) :=
  (Keeps.ite h h.ctxSet).streamSet

theorem streamMod {i f} (h : Keeps r s) : Keeps r (Machine.streamMod i f s) :=
  h.streamSet

theorem leaveLane {i} (h : Keeps r s) : Keeps r (Machine.leaveLane i s) := by
  unfold Machine.leaveLane
  exact h.upd.streamMod

theorem putIndex {i w} (h : Keeps r s) : Keeps r (Machine.putIndex i w s) :=
  h.jPut

theorem restart {i code} (h : Keeps r s) : Keeps r (Machine.restart i code s) := by
  unfold Machine.restart
  refine .ite ?_ ?_
  · exact h
  · refine .ite ?_ ?_
    · exact h.streamSet.leaveLane.freeKv.streamSet
    · exact h.streamSet.leaveLane.freeKv.streamSet.trace.count.putIndex

theorem setPage {i n k} (h : Keeps r s) : Keeps r (Machine.setPage i n k s) :=
  h.streamMod

theorem putOp {j w} (h : Keeps r s) : Keeps r (Machine.putOp j w s) :=
  .ite h h.jPut

theorem opSet {j x} (h : Keeps r s) : Keeps r (Machine.opSet j x s) :=
  h.upd

theorem opMod {j f} (h : Keeps r s) : Keeps r (Machine.opMod j f s) :=
  h.opSet

theorem opSuspend {j} (h : Keeps r s) : Keeps r (Machine.opSuspend j s) :=
  .ite h.opMod.putOp h

theorem xferLost {u} (h : Keeps r s) : Keeps r (Machine.xferLost u s) := by
  unfold Machine.xferLost
  split
  · exact h.restart
  · split
    · exact h.setPage
    · exact h
  · exact h.opSuspend
  · exact h

theorem dropXfer {e} (h : Keeps r s) : Keeps r (Machine.dropXfer e s) :=
  h.xferSet.upd

theorem failXfer {e code} (h : Keeps r s) : Keeps r (Machine.failXfer e code s) := by
  unfold Machine.failXfer
  split
  · exact h
  · exact h.dropXfer.emit.raise.xferLost

theorem sendWindowWrite {u w ctx off b} (h : Keeps r s) : Keeps r (Machine.sendWindowWrite u w ctx off b s) := by
  unfold Machine.sendWindowWrite
  refine .foldS ?_ fun _ _ h => ?_
  · exact h
  · exact h.upd

theorem xlUnbind {ctx} (h : Keeps r s) : Keeps r (Machine.xlUnbind ctx s) :=
  h.upd

theorem unbindCtx {c} (h : Keeps r s) : Keeps r (Machine.unbindCtx c s) :=
  .ite h.xlUnbind.bindingSet.putContext.traceCtx h

theorem dispatchBit {c b} (h : Keeps r s) : Keeps r (Machine.dispatchBit c b s) :=
  h.trestleSet

theorem pierSet {p x} (h : Keeps r s) : Keeps r (Machine.pierSet p x s) :=
  h.upd

/-- Bytes written to scratch keep it canonical. -/
theorem poke (h : Keeps r s) {a : Nat} {b : List Byte} :
    Keeps r { s with store := { s.store with scratch := msetN s.store.scratch a b } } :=
  ⟨h.cells, fun hr => wf_msetN (h.scratch hr) _ _, h.pending, h.ticks, h.lifecycle, h.minSvn⟩

theorem putCodebook {p entries} (h : Keeps r s) : Keeps r (Machine.putCodebook p entries s) :=
  h.pierSet.poke

theorem execCodebookLoad {pier entries} (h : Keeps r s) : ∃ t, Machine.execCodebookLoad pier entries s = .next t ∧ Keeps r t :=
  ⟨_, rfl, .ite h (.ite h.pierSet h.putCodebook)⟩

theorem portSet {n p} (h : Keeps r s) : Keeps r (Machine.portSet n p s) :=
  h.upd

theorem sendFlit {n h'} (h : Keeps r s) : Keeps r (Machine.sendFlit n h' s) :=
  h.emit

theorem girthFlitOut {n msgs} (h : Keeps r s) : Keeps r (Machine.girthFlitOut n msgs s) :=
  h.portSet.sendFlit.count

theorem girthPump {n fuel} (h : Keeps r s) : Keeps r (Machine.girthPump n fuel s) := by
  induction fuel generalizing s with
  | zero => exact h
  | succ fuel ih =>
    unfold Machine.girthPump
    dsimp only
    split
    · exact h
    · exact ih h.portSet.girthFlitOut

theorem girthSend {n m} (h : Keeps r s) : Keeps r (Machine.girthSend n m s) :=
  .ite h.portSet.girthPump h

theorem abortItems {id} (h : Keeps r s) : Keeps r (Machine.abortItems id s) := by
  unfold Machine.abortItems
  refine .foldS ?_ fun _ _ h => ?_
  · exact h
  · refine .ite ?_ ?_
    · refine .foldS ?_ fun _ _ h => ?_
      · exact h.portSet
      · exact h.girthSend
    · exact h

theorem ringDoorbell {c b} (h : Keeps r s) : Keeps r (Machine.ringDoorbell c b s) :=
  h.trestleSet

theorem ringRunEnd {id} (h : Keeps r s) : Keeps r (Machine.ringRunEnd id s) := by
  unfold Machine.ringRunEnd
  split
  · split
    · exact h
    · exact h.ringDoorbell
  · exact h

theorem sleepAll (h : Keeps r s) : Keeps r (Machine.sleepAll s) :=
  h.updStore

theorem engineWrite {p a c l} (h : Keeps r s) : Keeps r (Machine.engineWrite p a c l s) := by
  unfold Machine.engineWrite
  refine .foldS ?_ fun _ _ h => ?_
  · exact h
  · split
    · dsimp only
      split
      · exact h.unmapped
      · exact h.count
    · dsimp only
      split
      · exact h.unmapped
      · exact .ite h.storeFor h.writePlace

theorem runMod {id f} (h : Keeps r s) : Keeps r (Machine.runMod id f s) :=
  h.upd

theorem qpSet {n q} (h : Keeps r s) : Keeps r (Machine.qpSet n q s) :=
  h.upd

theorem complete {n c} (h : Keeps r s) : Keeps r (Machine.complete n c s) :=
  .ite h.qpSet h

theorem answer {n e status detail handle result} (h : Keeps r s) : Keeps r (Machine.answer n e status detail handle result s) :=
  h.complete

theorem answerAfter {before n e status h'} (h : Keeps r s) : Keeps r (Machine.answerAfter before n e status h' s) :=
  .ite h.upd h.answer

theorem sealRec {i final status reason lane} (h : Keeps r s) : Keeps r (Machine.sealRec i final status reason lane s) :=
  (Keeps.ite h.streamSet.countN.jPut h.streamSet.countN).jPut

theorem sealOpen {i} (h : Keeps r s) : Keeps r (Machine.sealOpen i s) :=
  .ite h h.sealRec

theorem suspChanged {i old} (h : Keeps r s) : Keeps r (Machine.suspChanged i old s) :=
  .ite h (.ite h.trace.putIndex h.trace)

theorem suspend {i bits} (h : Keeps r s) : Keeps r (Machine.suspend i bits s) :=
  .ite h (.ite h.streamSet h.sealOpen.leaveLane.streamSet.suspChanged)

theorem unsuspend {i bits} (h : Keeps r s) : Keeps r (Machine.unsuspend i bits s) :=
  .ite h (.ite h.streamSet.suspChanged.restart h.streamSet.suspChanged)

theorem claim {i n e} (h : Keeps r s) : Keeps r (Machine.claim i n e s) := by
  unfold Machine.claim
  refine .ite ?_ ?_
  · exact h.trace.count.answer
  · exact .ite h.answer (.ite h.answer h.streamSet.unsuspend.putIndex.answerAfter)

theorem endStream {i st reason lane} (h : Keeps r s) : Keeps r (Machine.endStream i st reason lane s) :=
  h.sealRec.leaveLane.freeKv.streamSet.trace.count

theorem streamCmd {i n e} (h : Keeps r s) : Keeps r (Machine.streamCmd i n e s) := by
  unfold Machine.streamCmd
  split
  · exact h.answer
  · exact .ite h.answer (.ite h.answer h.suspend.answerAfter)
  · exact .ite h.answer (.ite h.claim (.ite h.answer h.unsuspend.answerAfter))
  · exact .ite h.answer (.ite h.answer h.endStream.answer)
  · exact .ite h.answer h.streamSet.putIndex.answerAfter
  · exact h

theorem applyCmds {cmds} (h : Keeps r s) : Keeps r (Machine.applyCmds cmds s) := by
  unfold Machine.applyCmds
  refine .foldS ?_ fun _ _ h => ?_
  · exact h
  · split
    · split
      · exact h.streamCmd
      · exact h
      · exact h.answer

theorem askWindows {id i e ds} (h : Keeps r s) : Keeps r (Machine.askWindows id i e ds s) := by
  unfold Machine.askWindows
  refine .foldS ?_ fun _ _ h => ?_
  · exact h
  · refine .foldS ?_ fun _ _ h => ?_
    · exact h
    · refine .ite ?_ ?_
      · exact h
      · split
        · exact h
        · exact h.upd

theorem noteStalled {id} (h : Keeps r s) : Keeps r (Machine.noteStalled id s) := by
  unfold Machine.noteStalled
  split
  · exact h
  · exact h.runMod

theorem finish {id i lanes noCand} (h : Keeps r s) : Keeps r (Machine.finish id i lanes noCand s) :=
  h.runMod.noteStalled

theorem engineAccess {p c a} (h : Keeps r s) : Keeps r (Machine.engineAccess p c a s) := by
  unfold Machine.engineAccess
  split
  · exact h.unmapped
  · refine .ite ?_ ?_
    · exact h
    · refine .ite ?_ ?_
      · exact (Keeps.ite h.homeCount h).touch.raise.count
      · exact .ite (Keeps.ite h.homeCount h).touch.count (Keeps.ite h.homeCount h).touch

theorem accessLines {e role ls} (h : Keeps r s) : Keeps r (Machine.accessLines e role ls s).2 := by
  unfold Machine.accessLines
  refine .foldS ?_ fun _ _ h => ?_
  · exact h
  · exact h.engineAccess

theorem oodAt {p n} (h : Keeps r s) : Keeps r (Machine.oodAt p n s) :=
  h.countN

theorem clashRun {e} (h : Keeps r s) : Keeps r (Machine.clashRun e s) := by
  unfold Machine.clashRun
  refine .ite ?_ ?_
  · exact h
  · refine .foldS ?_ fun _ _ h => ?_
    · exact h.upd
    · exact h.pokeBytes

theorem memWrite {dpa req d mask poison} (h : Keeps r s) : Keeps r (Machine.memWrite dpa req d mask poison s) :=
  h.memWriteFor

theorem execMemoryWrite {dpa req data mask poison} (h : Keeps r s) :
    ∃ t, Machine.execMemoryWrite dpa req data mask poison s = .next t ∧ Keeps r t :=
  ⟨_, rfl, .ite h.memWrite h⟩

theorem countIgnored {off} (h : Keeps r s) : Keeps r (Machine.countIgnored off s) :=
  .ite (.ite h.count (.ite h.count h.count)) (.ite h.count (.ite h.count h))

theorem restamp {i} (h : Keeps r s) : Keeps r (Machine.restamp i s) :=
  h.updSec

theorem regionErr {code n} (h : Keeps r s) : Keeps r (Machine.regionErr code n s) :=
  h.updStore

theorem regionPut {n r'} (h : Keeps r s) : Keeps r (Machine.regionPut n r' s) :=
  h.updStore

theorem regionSet {n v} (h : Keeps r s) : Keeps r (Machine.regionSet n v s) :=
  .ite h.countIgnored h.regionPut.regionErr.restamp

theorem execRegionValidSet {n base} (h : Keeps r s) : ∃ t, Machine.execRegionValidSet n base s = .next t ∧ Keeps r t :=
  ⟨_, rfl, .ite h.regionSet h⟩

theorem regionClear {n} (h : Keeps r s) : Keeps r (Machine.regionClear n s) :=
  .ite h.countIgnored h.regionPut.restamp

theorem execRegionValidClear {n} (h : Keeps r s) : ∃ t, Machine.execRegionValidClear n s = .next t ∧ Keeps r t :=
  ⟨_, rfl, .ite h.regionClear h⟩

theorem lockRefused (h : Keeps r s) : Keeps r (Machine.lockRefused s) :=
  h.regionErr

theorem stackReading {u reading} (h : Keeps r s) : Keeps r (Machine.stackReading u reading s) := by
  unfold Machine.stackReading
  split
  · exact h.updStore
  · exact h

theorem execRefresh {cmd} (h : Keeps r s) : ∃ t, Machine.execRefresh cmd s = .next t ∧ Keeps r t :=
  ⟨_, rfl, .ite h h.updStore.stackReading⟩

theorem execSelfRefreshEntry {unit} (h : Keeps r s) : ∃ t, Machine.execSelfRefreshEntry unit s = .next t ∧ Keeps r t :=
  ⟨_, rfl, .ite h.updStore h⟩

theorem execSelfRefreshExit {unit} (h : Keeps r s) : ∃ t, Machine.execSelfRefreshExit unit s = .next t ∧ Keeps r t :=
  ⟨_, rfl, .ite h.updStore h⟩

theorem aerLog {bit} (h : Keeps r s) : Keeps r (Machine.aerLog bit s) :=
  h.upd

theorem answerUr (h : Keeps r s) : Keeps r (Machine.answerUr s) :=
  h.aerLog.count.emit

theorem refuseAccess {queue bytes} (h : Keeps r s) : Keeps r (Machine.refuseAccess queue bytes s) := by
  unfold Machine.refuseAccess
  refine .ite ?_ ?_
  · exact h
  · refine .ite ?_ ?_
    · exact h.answerUr
    · refine .ite ?_ ?_
      · split
        · exact h.emit
        · exact h
      · refine .ite ?_ ?_
        · split
          · exact h.aerLog.count.emit
          · exact h.aerLog.count
        · exact h

theorem execSqTailWrite {qp be value} (h : Keeps r s) : ∃ t, Machine.execSqTailWrite qp be value s = .next t ∧ Keeps r t :=
  ⟨_, rfl, .ite h.refuseAccess (.ite h.count h.qpSet.ringDoorbell)⟩

theorem takeCmd {n row v} (h : Keeps r s) (he : Machine.takeCmd n row s = some (v, t)) : Keeps r t := by
  unfold Machine.takeCmd at he
  dsimp only at he
  split at he
  · cases he
  · split at he
    · cases he
    · cases he
      exact h.qpSet

theorem jZero {off lines} (h : Keeps r s) : Keeps r (Machine.jZero off lines s) :=
  h.jWrite

theorem cinch {i} (h : Keeps r s) : Keeps r (Machine.cinch i s) :=
  .ite h h.upd.streamSet.complete.trace.count

theorem takeSubmit {n e} (h : Keeps r s) : Keeps r (Machine.takeSubmit n e s) := by
  unfold Machine.takeSubmit
  split
  · dsimp only
    split
    · exact h.upd.drawFree.streamSet.jZero.jPut.putIndex
    · exact h
  · dsimp only
    split
    · exact h.upd.drawFree.streamSet.jZero.jPut.putIndex.cinch
    · exact h

theorem streamCmdSoon {i n e} (h : Keeps r s) : Keeps r (Machine.streamCmdSoon i n e s) := by
  unfold Machine.streamCmdSoon
  refine .ite ?_ ?_
  · exact h.streamCmd
  · split
    · exact h.upd
    · exact .ite h.streamCmd h.upd

theorem takeRoles {ctx} (h : Keeps r s) : Keeps r (Machine.takeRoles ctx s) := by
  unfold Machine.takeRoles
  refine .foldS ?_ fun _ _ h => ?_
  · exact h
  · exact h.pierSet

theorem undoLoad {ctx} (h : Keeps r s) : Keeps r (Machine.undoLoad ctx s) :=
  h.takeRoles.upd

theorem releaseAcks {j} (h : Keeps r s) : Keeps r (Machine.releaseAcks j s) :=
  h.upd

theorem opEndTrace {j} (h : Keeps r s) : Keeps r (Machine.opEndTrace j s) :=
  .ite h.trace (.ite h h.trace)

theorem freeOp {j} (h : Keeps r s) : Keeps r (Machine.freeOp j s) :=
  h.opSet.putOp

theorem endOp {j st status detail index} (h : Keeps r s) : Keeps r (Machine.endOp j st status detail index s) := by
  unfold Machine.endOp
  refine .ite ?_ ?_
  · exact h
  · refine .ite ?_ ?_
    · exact h.opSet.putOp.opEndTrace.releaseAcks.upd.freeOp
    · exact .ite h.opSet.putOp.opEndTrace.releaseAcks.opSet h.opSet.putOp.opEndTrace.releaseAcks

theorem cancelOp {j} (h : Keeps r s) : Keeps r (Machine.cancelOp j s) :=
  (Keeps.ite h.undoLoad (.ite h.updSec.ctxSet h)).endOp

theorem modelSet {ctx m} (h : Keeps r s) : Keeps r (Machine.modelSet ctx m s) :=
  h.upd

theorem unloadCmd {n e} (h : Keeps r s) : Keeps r (Machine.unloadCmd n e s) :=
  .ite h.answer (.ite h.answer h.takeRoles.modelSet.upd.ctxSet.putContext.answerAfter)

theorem slotSet {i k} (h : Keeps r s) : Keeps r (Machine.slotSet i k s) :=
  h.updSec

theorem destroyKeys {ctx} (h : Keeps r s) : Keeps r (Machine.destroyKeys ctx s) :=
  h.slotSet.slotSet.ctxSet

theorem drawKey (h : Keeps r s) : Keeps r (Machine.drawKey s).2 :=
  h.updSec

theorem burnishStart {j t'} (h : Keeps r s) : Keeps r (Machine.burnishStart j t' s) := by
  unfold Machine.burnishStart
  exact (Keeps.ite h.destroyKeys.trace h.destroyKeys.trace.putContext).ctxSet.updSec.updSec.opMod

theorem rotateStart {j ctx} (h : Keeps r s) : Keeps r (Machine.rotateStart j ctx s) := by
  unfold Machine.rotateStart
  exact (Keeps.ite h h.updSec.slotSet.slotSet.ctxSet).ctxSet.putContext.opMod

theorem failLoad {j status reason index} (h : Keeps r s) : Keeps r (Machine.failLoad j status reason index s) :=
  h.undoLoad.endOp

theorem unitDone {j} (h : Keeps r s) : Keeps r (Machine.unitDone j s) :=
  .ite (Keeps.ite h.opMod.upd h.opMod).putOp (.ite h.opMod.upd h.opMod)

theorem writeUnit {ctx m t' u b} (h : Keeps r s) : Keeps r (Machine.writeUnit ctx m t' u b s) := by
  unfold Machine.writeUnit
  split
  · exact h.engineWrite
  · exact h

theorem placeChunk {ctx m k data} (h : Keeps r s) : Keeps r (Machine.placeChunk ctx m k data s) := by
  unfold Machine.placeChunk
  refine .ite ?_ ?_
  · refine .foldS ?_ fun _ _ h => ?_
    · split
      · exact h.writeUnit.writeUnit
      · exact h.writeUnit
    · exact h.writeUnit
  · split
    · exact h.writeUnit.writeUnit
    · exact h.writeUnit

theorem sendChunk {ctx k chunk w} (h : Keeps r s) : Keeps r (Machine.sendChunk ctx k chunk w s) := by
  unfold Machine.sendChunk
  refine .foldS ?_ fun _ _ h => ?_
  · exact h
  · exact h.sendJournal

theorem sendStored {ctx m k w} (h : Keeps r s) : Keeps r (Machine.sendStored ctx m k w s) := by
  unfold Machine.sendStored
  split
  · exact h.sendChunk
  · exact h

theorem sendImage {j ctx m k} (h : Keeps r s) : Keeps r (Machine.sendImage j ctx m k s) := by
  unfold Machine.sendImage
  refine .opMod (.foldS ?_ fun _ _ h => ?_)
  · exact h
  · exact h.sendStored

theorem finishLoad {j} (h : Keeps r s) : Keeps r (Machine.finishLoad j s) := by
  unfold Machine.finishLoad
  refine .foldS ?_ fun _ _ h => ?_
  · exact h.ctxSet.putContext.endOp
  · exact h.unsuspend

theorem endSweep {j} (h : Keeps r s) : Keeps r (Machine.endSweep j s) :=
  .ite h.opMod.putOp h.endOp

theorem burnishEnd {j} (h : Keeps r s) : Keeps r (Machine.burnishEnd j s) :=
  (Keeps.ite h.ctxSet h.ctxSet.updSec).putContext.endSweep

theorem askInvalidate {t' p base n} (h : Keeps r s) : Keeps r (Machine.askInvalidate t' p base n s) := by
  unfold Machine.askInvalidate
  refine .foldS ?_ fun _ _ h => ?_
  · exact h
  · exact .ite h h.upd

theorem rotateEnd {j} (h : Keeps r s) : Keeps r (Machine.rotateEnd j s) :=
  h.slotSet.ctxSet.putContext.endSweep

theorem rotateLine {ctx p a} (h : Keeps r s) : Keeps r (Machine.rotateLine ctx p a s) :=
  .ite h.putLine h

theorem rotateUnit {j} (h : Keeps r s) : Keeps r (Machine.rotateUnit j s) := by
  unfold Machine.rotateUnit
  dsimp only
  split
  · exact h.rotateEnd
  · refine .ite ?_ ?_
    · exact h
    · refine .ite ?_ ?_
      · refine .rotateEnd (.unitDone (.opMod (.ctxSet ?_)))
        refine .ite ?_ ?_
        · exact .ite h h.ctxSet
        · refine .foldS ?_ fun _ _ h => ?_
          · exact h
          · exact h.rotateLine
      · refine .unitDone (.opMod (.ctxSet ?_))
        refine .ite ?_ ?_
        · exact .ite h h.ctxSet
        · refine .foldS ?_ fun _ _ h => ?_
          · exact h
          · exact h.rotateLine

theorem migrateUnit {j} (h : Keeps r s) : Keeps r (Machine.migrateUnit j s) :=
  .ite h (.ite h.opMod.unitDone.endOp h.opMod.unitDone)

theorem queueCinched (h : Keeps r s) : Keeps r (Machine.queueCinched s) := by
  unfold Machine.queueCinched
  refine .foldS ?_ fun _ _ h => ?_
  · exact h
  · exact h.streamMod

theorem launchRaw {i} (h : Keeps r s) : Keeps r (Machine.launchRaw i s) := by
  unfold Machine.launchRaw
  dsimp only
  split
  · exact h.suspend
  · refine .streamMod (.noteStalled (.upd (.foldS ?_ fun _ _ h => ?_)))
    · exact h
    · exact .ite h h.pokeBytes

theorem startReadback {i} (h : Keeps r s) : Keeps r (Machine.startReadback i s) :=
  .ite h.streamMod h

theorem batchMod {b f} (h : Keeps r s) : Keeps r (Machine.batchMod b f s) :=
  h.upd

theorem noCandidate {i} (h : Keeps r s) : Keeps r (Machine.noCandidate i s) :=
  .ite h.raise.endStream h.streamSet.restart

theorem appendToken {i t'} (h : Keeps r s) : Keeps r (Machine.appendToken i t' s) :=
  .ite (Keeps.ite h.sealOpen h).streamSet.sealOpen (Keeps.ite h.sealOpen h).streamSet

theorem takeToken {i t'} (h : Keeps r s) : Keeps r (Machine.takeToken i t' s) := by
  unfold Machine.takeToken
  refine .ite ?_ ?_
  · exact h.endStream
  · exact .ite h.appendToken.endStream (.ite h.appendToken.endStream h.appendToken.streamMod)

theorem processed {i n lane r'} (h : Keeps r s) : Keeps r (Machine.processed i n lane r' s) :=
  .ite h.streamSet (.ite h.streamSet.noCandidate h.streamSet.takeToken)

theorem boundaryOf {i} (h : Keeps r s) : Keeps r (Machine.boundaryOf i s) := by
  unfold Machine.boundaryOf
  refine .ite ?_ ?_
  · exact h
  · refine .ite ?_ ?_
    · exact h.suspend
    · refine .ite ?_ ?_
      · exact h.suspend
      · refine .ite ?_ ?_
        · exact h.suspend
        · refine .ite ?_ ?_
          · exact .ite h.suspend h.leaveLane.streamMod
          · exact .ite (.ite h.leaveLane.streamMod h.leaveLane.streamMod.freeKv.count) h

theorem execRecordFlush {record} (h : Keeps r s) : ∃ t, Machine.execRecordFlush record s = .next t ∧ Keeps r t :=
  ⟨_, rfl, .ite h.sealOpen h⟩

theorem suspendSoon {i bits} (h : Keeps r s) : Keeps r (Machine.suspendSoon i bits s) :=
  .ite h.streamSet h.suspend

theorem ksCount {k i} (h : Keeps r s) : Keeps r (Machine.ksCount k i s) :=
  h.count

theorem overCredit {r' l} (h : Keeps r s) : Keeps r (Machine.overCredit r' l s) := by
  unfold Machine.overCredit
  split
  · exact h.ksCount.ksCount.raise.girthSend
  · exact h.ksCount.ksCount.raise

theorem setTxn {t'} (h : Keeps r s) : Keeps r (Machine.setTxn t' s) :=
  h.upd

theorem settle {t'} (h : Keeps r s) : Keeps r (Machine.settle t' s) :=
  .ite h.setTxn (.ite h.setTxn.upd h.setTxn)

theorem startSnoops {t'} (h : Keeps r s) : Keeps r (Machine.startSnoops t' s) :=
  h.upd.settle

theorem dirPut {k e} (h : Keeps r s) : Keeps r (Machine.dirPut k e s) :=
  h.upd

theorem hostWrite {addr pasid bytes marks} (h : Keeps r s) : Keeps r (Machine.hostWrite addr pasid bytes s marks) :=
  h.emit.countN

theorem flagWritten {n} (h : Keeps r s) : Keeps r (Machine.flagWritten n s) :=
  .ite h (.ite h.qpSet.interrupt h.qpSet)

theorem ringWrite {n b use} (h : Keeps r s) : Keeps r (Machine.ringWrite n b use s) :=
  h.hostWrite.hostWrite.qpSet.flagWritten

theorem execDeadlineCheck {core} (h : Keeps r s) : ∃ t, Machine.execDeadlineCheck core s = .next t ∧ Keeps r t := by
  refine ⟨_, rfl, ?_⟩
  refine .ite ?_ ?_
  · refine .foldS ?_ fun _ _ h => ?_
    · exact h
    · exact h.endStream
  · exact h

theorem spillDone {i n} (h : Keeps r s) : Keeps r (Machine.spillDone i n s) := by
  unfold Machine.spillDone
  dsimp only
  split
  · exact h
  · refine .ite ?_ ?_
    · exact h
    · split
      · exact h.setPage
      · exact .ite h.restart h.ctxSet.setPage.count

theorem execKvSpillDone {record page} (h : Keeps r s) : ∃ t, Machine.execKvSpillDone record page s = .next t ∧ Keeps r t :=
  ⟨_, rfl, .ite h.spillDone h⟩

theorem ackFrames {ack} (h : Keeps r s) : Keeps r (Machine.ackFrames ack s) :=
  .ite h h.upd

theorem raiseLevel {n c on detail} (h : Keeps r s) : Keeps r (Machine.raiseLevel n c on detail s) :=
  .ite h.srcSet.latch (.ite h.srcSet h)

theorem nakFrames (h : Keeps r s) : Keeps r (Machine.nakFrames s) :=
  .ite h (.ite h.upd.raiseLevel h.upd)

theorem execViaductFrame {f} (h : Keeps r s) : ∃ t, Machine.execViaductFrame f s = .next t ∧ Keeps r t := by
  refine ⟨_, rfl, ?_⟩
  refine .ite ?_ ?_
  · exact h
  · refine .ite ?_ ?_
    · refine .foldS ?_ fun _ _ h => ?_
      · exact (Keeps.ite (Keeps.ite h.countN.ackFrames h.countN).nakFrames (.ite h.countN.ackFrames h.countN)).upd.count
      · exact h.count.raise
    · exact (Keeps.ite (Keeps.ite h.countN.ackFrames h.countN).nakFrames (.ite h.countN.ackFrames h.countN)).upd

theorem adapterIdle (h : Keeps r s) : Keeps r (Machine.adapterIdle s) :=
  h.updSec

theorem traceTrain {last} (h : Keeps r s) : Keeps r (Machine.traceTrain last s) :=
  h.trace

theorem setUp {up} (h : Keeps r s) : Keeps r (Machine.setUp up s) :=
  .ite h h.upd.raiseLevel

theorem stepTo {n} (h : Keeps r s) : Keeps r (Machine.stepTo n s) :=
  h.upd

theorem putHeader (h : Keeps r s) : Keeps r (Machine.putHeader s) :=
  h.jWrite

theorem ringHost {c} (h : Keeps r s) : Keeps r (Machine.ringHost c s) :=
  .ite h.upd.interrupt h.upd

theorem chanSet {c x} (h : Keeps r s) : Keeps r (Machine.chanSet c x s) :=
  h.upd

theorem notice {core kind word1} (h : Keeps r s) : Keeps r (Machine.notice core kind word1 s) := by
  unfold Machine.notice
  split
  · dsimp only
    split
    · exact h
    · exact .ite h.upd h.chanSet.upd.ringHost
  · dsimp only
    split
    · exact h
    · exact .ite h.upd h.chanSet.upd.ringHost

theorem setPair {st} (h : Keeps r s) : Keeps r (Machine.setPair st s) :=
  .ite h (.ite h.upd.restamp.trace.notice.interrupt h.upd.restamp.trace.notice)

theorem enterPair {st} (h : Keeps r s) : Keeps r (Machine.enterPair st s) :=
  h.setPair.putHeader

theorem tryPairing (h : Keeps r s) : Keeps r (Machine.tryPairing s) :=
  .ite h.enterPair.upd h

theorem startTraining (h : Keeps r s) : Keeps r (Machine.startTraining s) :=
  .ite h.adapterIdle.tryPairing.stepTo h

theorem releaseOff (h : Keeps r s) : Keeps r (Machine.releaseOff s) := by
  unfold Machine.releaseOff
  refine .foldS ?_ fun _ _ h => ?_
  · exact h.upd
  · exact h.streamMod

theorem createDone {t'} (h : Keeps r s) : Keeps r (Machine.createDone t' s) := by
  unfold Machine.createDone
  refine .foldS ?_ fun _ _ h => ?_
  · exact h.updSec
  · exact h.emit

theorem mirrorDone (h : Keeps r s) : Keeps r (Machine.mirrorDone s) :=
  h.trace.upd.enterPair

theorem partnerOff (h : Keeps r s) : Keeps r (Machine.partnerOff s) :=
  h.upd.setUp.adapterIdle

theorem abortTraining (h : Keeps r s) : Keeps r (Machine.abortTraining s) :=
  h.upd.traceTrain.adapterIdle.upd

theorem newNumbers {key} (h : Keeps r s) : Keeps r (Machine.newNumbers key s) :=
  h.updSec

theorem sendTime {m} (h : Keeps r s) : Keeps r (Machine.sendTime m s) :=
  h.upd

theorem sendEcho (h : Keeps r s) : Keeps r (Machine.sendEcho s) :=
  h.sendTime

theorem execTrainStepTimeout (h : Keeps r s) : ∃ t, Machine.execTrainStepTimeout s = .next t ∧ Keeps r t :=
  ⟨_, rfl, .ite h.abortTraining h⟩

theorem execTrainRestart (h : Keeps r s) : ∃ t, Machine.execTrainRestart s = .next t ∧ Keeps r t := by
  refine ⟨_, rfl, ?_⟩
  split
  · exact .ite h.upd.startTraining h
  · exact h

theorem sendBeat {leaving} (h : Keeps r s) : Keeps r (Machine.sendBeat leaving s) :=
  h.upd

theorem endExchange (h : Keeps r s) : Keeps r (Machine.endExchange s) :=
  .ite h.updSec.updSec.stepTo.newNumbers.sendBeat h

theorem kxRecord {r'} (h : Keeps r s) : Keeps r (Machine.kxRecord r' s) := by
  unfold Machine.kxRecord
  split
  · exact .ite h.updSec h
  · exact .ite h (.ite h.updSec h.raise.abortTraining)
  · exact .ite h (.ite h.updSec h.abortTraining)
  · exact .ite h h.updSec
  · exact .ite h h.updSec.endExchange

theorem shadowUnload {n} (h : Keeps r s) : Keeps r (Machine.shadowUnload n s) :=
  h.undoLoad.ctxSet

theorem startSweep {j x} (h : Keeps r s) : Keeps r (Machine.startSweep j x s) := by
  unfold Machine.startSweep
  exact (Keeps.ite h.burnishStart h.rotateStart).opMod

theorem opArrived {j} (h : Keeps r s) : Keeps r (Machine.opArrived j s) := by
  unfold Machine.opArrived
  refine .ite ?_ ?_
  · exact h
  · split
    · exact .ite h.opSet h
    · exact .ite (.ite h.opSet.startSweep h) (.ite h.cancelOp (.ite h.shadowUnload h))

theorem foreignSet {i v} (h : Keeps r s) : Keeps r (Machine.foreignSet i v s) :=
  h.upd

theorem indexArrived {i} (h : Keeps r s) : Keeps r (Machine.indexArrived i s) :=
  .ite h h.streamSet.foreignSet

theorem replyJournal {m} (h : Keeps r s) : Keeps r (Machine.replyJournal m s) :=
  h.upd

theorem freeIndex {i} (h : Keeps r s) : Keeps r (Machine.freeIndex i s) :=
  h.upd.foreignSet.jWrite

theorem cursorEntry {c} (h : Keeps r s) : Keeps r (Machine.cursorEntry c s) :=
  .ite h (.ite h.freeIndex h.jWrite)

theorem execCursorUpdate {entries} (h : Keeps r s) : ∃ t, Machine.execCursorUpdate entries s = .next t ∧ Keeps r t := by
  refine ⟨_, rfl, ?_⟩
  refine .ite ?_ ?_
  · refine .foldS ?_ fun _ _ h => ?_
    · exact h.ringDoorbell
    · exact h.cursorEntry
  · exact h

theorem execCursorInterval (h : Keeps r s) : ∃ t, Machine.execCursorInterval s = .next t ∧ Keeps r t :=
  ⟨_, rfl, .ite h (.ite h.upd h.upd)⟩

theorem replyWindow {m} (h : Keeps r s) : Keeps r (Machine.replyWindow m s) :=
  h.upd

theorem windowRefused {win} (h : Keeps r s) : Keeps r (Machine.windowRefused win s) :=
  h.raise.count

theorem execWindowWrite {tag win ctx offset firstBe lastBe lines} (h : Keeps r s) :
    ∃ t, Machine.execWindowWrite tag win ctx offset firstBe lastBe lines s = .next t ∧ Keeps r t := by
  refine ⟨_, rfl, ?_⟩
  refine .ite ?_ ?_
  · exact h
  · split
    · exact h.windowRefused.replyWindow
    · refine .ite ?_ ?_
      · refine .replyWindow (.foldS ?_ fun _ _ h => ?_)
        · exact h
        · exact h.storeFor
      · refine .upd (.foldS ?_ fun _ _ h => ?_)
        · exact h
        · exact h.storeFor

theorem execWindowWriteAck {tag _status} (h : Keeps r s) : ∃ t, Machine.execWindowWriteAck tag _status s = .next t ∧ Keeps r t := by
  refine ⟨_, rfl, ?_⟩
  refine .ite ?_ ?_
  · exact h
  · split
    · exact h
    · split
      · exact h.upd.finish
      · exact h.upd

theorem execTimeSyncInterval (h : Keeps r s) : ∃ t, Machine.execTimeSyncInterval s = .next t ∧ Keeps r t :=
  ⟨_, rfl, .ite h (.ite h.upd.sendTime h.upd)⟩

theorem execTimeSync {tSend} (h : Keeps r s) : ∃ t, Machine.execTimeSync tSend s = .next t ∧ Keeps r t :=
  ⟨_, rfl, .ite h h.upd.ringDoorbell⟩

theorem execTsSlew (h : Keeps r s) : ∃ t, Machine.execTsSlew s = .next t ∧ Keeps r t :=
  ⟨_, rfl, .ite h (.ite h.upd (.ite h.upd h))⟩

theorem execTimeEcho {tag tSend} (h : Keeps r s) : ∃ t, Machine.execTimeEcho tag tSend s = .next t ∧ Keeps r t :=
  ⟨_, rfl, .ite h h.upd.ringDoorbell⟩

theorem startExchange (h : Keeps r s) : Keeps r (Machine.startExchange s) :=
  h.upd.updSec

theorem keepIndex {i} (h : Keeps r s) : Keeps r (Machine.keepIndex i s) :=
  h.jWrite

theorem refuse {raise_} (h : Keeps r s) : Keeps r (Machine.refuse raise_ s) :=
  .ite (Keeps.ite h.enterPair h).upd.raise (Keeps.ite h.enterPair h).upd

theorem takeRecord {i x} (h : Keeps r s) : Keeps r (Machine.takeRecord i x s) :=
  h.upd.foreignSet.streamSet.putIndex

theorem linkUpPair {tsNow} (h : Keeps r s) : Keeps r (Machine.linkUpPair tsNow s) :=
  (Keeps.ite h.upd.setUp.upd h.upd.setUp).traceTrain

theorem takeEnd (h : Keeps r s) : Keeps r (Machine.takeEnd s) :=
  h.upd.trace

theorem cleanExtent {i} (h : Keeps r s) : Keeps r (Machine.cleanExtent i s) := by
  unfold Machine.cleanExtent
  split
  · refine .ite ?_ ?_
    · refine .jZero (.foldS ?_ fun _ _ h => ?_)
      · exact h
      · exact h.jZero
    · refine .foldS ?_ fun _ _ h => ?_
      · exact h
      · exact h.jZero
  · exact h

theorem execBHoldoffExpiry (h : Keeps r s) : ∃ t, Machine.execBHoldoffExpiry s = .next t ∧ Keeps r t := by
  refine ⟨_, rfl, ?_⟩
  split
  · exact .ite h.partnerOff.upd h
  · exact h

theorem takeStream {i x recs orderly} (h : Keeps r s) : Keeps r (Machine.takeStream i x recs orderly s) :=
  .ite h.upd.takeRecord h.upd.takeRecord.trace.count

theorem execRemirrorSlow (h : Keeps r s) : ∃ t, Machine.execRemirrorSlow s = .next t ∧ Keeps r t :=
  ⟨_, rfl, .ite h.upd.raise h⟩

theorem pairRelease (h : Keeps r s) : Keeps r (Machine.pairRelease s) := by
  unfold Machine.pairRelease
  refine .ite ?_ ?_
  · refine .foldS ?_ fun _ _ h => ?_
    · exact h.upd
    · exact h.suspend
  · exact h.countIgnored

theorem execPairRelease (h : Keeps r s) : ∃ t, Machine.execPairRelease s = .next t ∧ Keeps r t :=
  ⟨_, rfl, .ite h.pairRelease h⟩

theorem bayEvent {on} (h : Keeps r s) : Keeps r (Machine.bayEvent on s) :=
  .ite h.interrupt h

theorem execPrtPrsntN {level} (h : Keeps r s) : ∃ t, Machine.execPrtPrsntN level s = .next t ∧ Keeps r t :=
  ⟨_, rfl, .ite h (.ite h.upd (.ite h.upd.bayEvent h.upd.bayEvent.startTraining))⟩

theorem execPrtAtnbtnN (h : Keeps r s) : ∃ t, Machine.execPrtAtnbtnN s = .next t ∧ Keeps r t :=
  ⟨_, rfl, .ite h.upd.bayEvent h⟩

theorem execLinkUp {width speed flit256} (h : Keeps r s) : ∃ t, Machine.execLinkUp width speed flit256 s = .next t ∧ Keeps r t :=
  ⟨_, rfl, .ite h h.upd.raiseLevel.trace⟩

theorem resetPorts (h : Keeps r s) : Keeps r (Machine.resetPorts s) :=
  h.upd

theorem endSessions (h : Keeps r s) : Keeps r (Machine.endSessions s) :=
  h.updSec

theorem flushWalks (h : Keeps r s) : Keeps r (Machine.flushWalks s) :=
  h.upd

theorem suspendAll {bits} (h : Keeps r s) : Keeps r (Machine.suspendAll bits s) := by
  unfold Machine.suspendAll
  refine .foldS ?_ fun _ _ h => ?_
  · exact h
  · exact h.suspendSoon

theorem dirUpdate {l e} (h : Keeps r s) : Keeps r (Machine.dirUpdate l e s) := by
  unfold Machine.dirUpdate
  split
  · exact h.dirPut
  · exact h

theorem untrack {l} (h : Keeps r s) : Keeps r (Machine.untrack l s) :=
  .ite h.upd h

theorem routeWrite {m} (h : Keeps r s) : Keeps r (Machine.routeWrite m s) :=
  h.upd

theorem routeChange {qs dest} (h : Keeps r s) : Keeps r (Machine.routeChange qs dest s) :=
  .ite h.upd h.routeWrite

theorem homeWrite {l d mask poison} (h : Keeps r s) : Keeps r (Machine.homeWrite l d mask poison s) :=
  h.memWriteFor

theorem drainEvicts {l} (h : Keeps r s) : Keeps r (Machine.drainEvicts l s) := by
  unfold Machine.drainEvicts
  refine .upd (.foldS ?_ fun _ _ h => ?_)
  · exact h
  · exact h.homeWrite

theorem setLate {l a rsp wb} (h : Keeps r s) : Keeps r (Machine.setLate l a rsp wb s) :=
  h.upd

theorem wbHome {a l} (h : Keeps r s) : Keeps r (Machine.wbHome a l s) := by
  unfold Machine.wbHome
  split
  · exact h
  · exact .ite (.ite h.dirUpdate.untrack h.dirUpdate) h

theorem endFences (h : Keeps r s) : Keeps r (Machine.endFences s) :=
  h.upd

theorem uncommitHdm (h : Keeps r s) : Keeps r (Machine.uncommitHdm s) :=
  h.upd

theorem setPriEnable {v} (h : Keeps r s) : Keeps r (Machine.setPriEnable v s) :=
  h.upd

theorem configReset {keep} (h : Keeps r s) : Keeps r (Machine.configReset keep s) :=
  h.upd.setPriEnable

theorem unbindAll (h : Keeps r s) : Keeps r (Machine.unbindAll s) := by
  unfold Machine.unbindAll
  refine .foldS ?_ fun _ _ h => ?_
  · exact h
  · exact h.unbindCtx

theorem putTwin {n q} (h : Keeps r s) : Keeps r (Machine.putTwin n q s) :=
  h.jPut

theorem clearQueues (h : Keeps r s) : Keeps r (Machine.clearQueues s) := by
  unfold Machine.clearQueues
  refine .upd (.foldS ?_ fun _ _ h => ?_)
  · exact h
  · exact h.putTwin

theorem abandonChunks (h : Keeps r s) : Keeps r (Machine.abandonChunks s) := by
  unfold Machine.abandonChunks
  refine .foldS ?_ fun _ _ h => ?_
  · exact h
  · split
    · exact .ite h.xferSet.upd h
    · exact h

theorem quarantine {t'} (h : Keeps r s) : Keeps r (Machine.quarantine t' s) :=
  h.upd

theorem abandonReads (h : Keeps r s) : Keeps r (Machine.abandonReads s) := by
  unfold Machine.abandonReads
  refine .abandonChunks (.upd (.foldS ?_ fun _ _ h => ?_))
  · exact h
  · exact h.quarantine

theorem bmeStops (h : Keeps r s) : Keeps r (Machine.bmeStops s) := by
  unfold Machine.bmeStops
  refine .foldS ?_ fun _ _ h => ?_
  · exact h
  · exact h.suspendSoon

theorem execBmeClear (h : Keeps r s) : ∃ t, Machine.execBmeClear s = .next t ∧ Keeps r t :=
  ⟨_, rfl, .ite h h.upd.trace.bmeStops⟩

theorem issueWalkRead {e} (h : Keeps r s) : Keeps r (Machine.issueWalkRead e s) := by
  unfold Machine.issueWalkRead
  split
  · exact h
  · split
    · exact h
    · refine .ite ?_ ?_
      · exact h
      · split
        · exact h
        · rename_i he
          exact (h.issueRead he).xferSet

theorem pumpReads (h : Keeps r s) : Keeps r (Machine.pumpReads s) := by
  unfold Machine.pumpReads
  refine .foldS ?_ fun _ _ h => ?_
  · exact h
  · exact h.issueWalkRead.issueReads

theorem sendPending {v} (h : Keeps r s) : Keeps r (Machine.sendPending v s) :=
  .ite h.msixSet.emit h

theorem sendAllPending (h : Keeps r s) : Keeps r (Machine.sendAllPending s) := by
  unfold Machine.sendAllPending
  refine .foldS ?_ fun _ _ h => ?_
  · exact h
  · exact h.sendPending

theorem execD3hotEntry (h : Keeps r s) : ∃ t, Machine.execD3hotEntry s = .next t ∧ Keeps r t :=
  ⟨_, rfl, .ite h (.ite h.upd.bmeStops h.upd)⟩

theorem hdmSet {n d} (h : Keeps r s) : Keeps r (Machine.hdmSet n d s) :=
  h.upd

theorem hostRefused {line req} (h : Keeps r s) : Keeps r (Machine.hostRefused line req s) := by
  unfold Machine.hostRefused
  split
  · exact h.upd.emit
  · exact h
  · exact h.emit

theorem dcPut {k x} (h : Keeps r s) : Keeps r (Machine.dcPut k x s) :=
  h.upd

theorem dcDrop {space line} (h : Keeps r s) : Keeps r (Machine.dcDrop space line s) := by
  unfold Machine.dcDrop
  split
  · exact h.dcPut
  · exact h

theorem execBiconflict {line tag} (h : Keeps r s) : ∃ t, Machine.execBiconflict line tag s = .next t ∧ Keeps r t :=
  ⟨_, rfl, .ite h.emit h⟩

theorem execUnsupportedRequest {r'} (h : Keeps r s) : ∃ t, Machine.execUnsupportedRequest r' s = .next t ∧ Keeps r t := by
  refine ⟨_, rfl, ?_⟩
  refine .ite ?_ ?_
  · exact h
  · split
    · exact h.aerLog.count
    · exact h.aerLog.count.emit
    · exact h.aerLog.count
    · exact h.answerUr

theorem execExpansionRomRead {offset data} (h : Keeps r s) :
    ∃ t, Machine.execExpansionRomRead offset data s = .next t ∧ Keeps r t :=
  ⟨_, rfl, .ite h (.ite h.answerUr h.emit)⟩

theorem execFlashReadTimeout (h : Keeps r s) : ∃ t, Machine.execFlashReadTimeout s = .next t ∧ Keeps r t :=
  ⟨_, rfl, .ite h.aerLog.count.raise.emit h⟩

theorem bindFields {v} (h : Keeps r s) : Keeps r (Machine.bindFields v s) :=
  h.upd

theorem execBindLockoutExpiry {ctx} (h : Keeps r s) : ∃ t, Machine.execBindLockoutExpiry ctx s = .next t ∧ Keeps r t :=
  ⟨_, rfl, .ite h.bindingSet h⟩

theorem armQp {n v} (h : Keeps r s) : Keeps r (Machine.armQp n v s) := by
  unfold Machine.armQp
  refine .ite ?_ ?_
  · exact .ite h.countIgnored h
  · refine .ite ?_ ?_
    · exact (Keeps.ite h.countIgnored h).qpSet
    · refine .foldS ?_ fun _ _ h => ?_
      · exact (Keeps.ite h.countIgnored h).qpSet.putTwin
      · exact h.streamMod.unsuspend

theorem execQpArm {qp word3} (h : Keeps r s) : ∃ t, Machine.execQpArm qp word3 s = .next t ∧ Keeps r t :=
  ⟨_, rfl, .ite h.refuseAccess (.ite h.countIgnored h.armQp)⟩

theorem execQpDisarm {qp} (h : Keeps r s) : ∃ t, Machine.execQpDisarm qp s = .next t ∧ Keeps r t :=
  ⟨_, rfl, .ite h.refuseAccess (.ite h.countIgnored h.qpSet)⟩

theorem execQpDisarmComplete {qp} (h : Keeps r s) : ∃ t, Machine.execQpDisarmComplete qp s = .next t ∧ Keeps r t := by
  refine ⟨_, rfl, ?_⟩
  refine .ite ?_ ?_
  · exact h
  · refine .foldS ?_ fun _ _ h => ?_
    · exact h.qpSet.putTwin
    · exact h.suspendSoon

theorem noteCursor {i release} (h : Keeps r s) : Keeps r (Machine.noteCursor i release s) :=
  .ite h.upd h

theorem freeStream {i} (h : Keeps r s) : Keeps r (Machine.freeStream i s) :=
  h.noteCursor.upd.streamSet.keepIndex

theorem recordDelivered {i h' seq final} (h : Keeps r s) : Keeps r (Machine.recordDelivered i h' seq final s) :=
  .ite h (.ite h.freeStream h.streamSet.keepIndex.noteCursor)

theorem slotDelivered {u} (h : Keeps r s) : Keeps r (Machine.slotDelivered u s) := by
  unfold Machine.slotDelivered
  split
  · exact h.recordDelivered
  · exact .ite h.freeOp h
  · exact h

theorem execCqHeadWrite {qp be value} (h : Keeps r s) : ∃ t, Machine.execCqHeadWrite qp be value s = .next t ∧ Keeps r t := by
  refine ⟨_, rfl, ?_⟩
  refine .ite ?_ ?_
  · exact h.refuseAccess
  · refine .ite ?_ ?_
    · exact h.count
    · refine .ite ?_ ?_
      · exact h.count
      · refine .ite ?_ ?_
        · exact h.count.raise
        · refine .foldS ?_ fun _ _ h => ?_
          · exact h.qpSet
          · exact h.slotDelivered

theorem execCompletionWrite {qp} (h : Keeps r s) : ∃ t, Machine.execCompletionWrite qp s = .next t ∧ Keeps r t := by
  refine ⟨_, rfl, ?_⟩
  refine .ite ?_ ?_
  · exact h
  · split
    · exact h.qpSet.ringWrite
    · refine .ite ?_ ?_
      · exact h
      · split
        · exact h
        · exact h.ringWrite

theorem execCoalTimeout {qp} (h : Keeps r s) : ∃ t, Machine.execCoalTimeout qp s = .next t ∧ Keeps r t :=
  ⟨_, rfl, .ite h.qpSet.interrupt h⟩

theorem execMsixUnmask {vector} (h : Keeps r s) : ∃ t, Machine.execMsixUnmask vector s = .next t ∧ Keeps r t := by
  refine ⟨_, rfl, ?_⟩
  split
  · exact .ite h.refuseAccess (.ite h.countIgnored h.msixSet.sendPending)
  · exact .ite h.upd.sendAllPending h

theorem intxClear {mask} (h : Keeps r s) : Keeps r (Machine.intxClear mask s) :=
  .ite h.upd.emit h.upd

theorem execIntxClear {word ones} (h : Keeps r s) : ∃ t, Machine.execIntxClear word ones s = .next t ∧ Keeps r t :=
  ⟨_, rfl, .ite h.refuseAccess (.ite h.countIgnored h.intxClear)⟩

theorem lateCompletion {t'} (h : Keeps r s) : Keeps r (Machine.lateCompletion t' s) :=
  h.upd.count.raise.pumpReads

theorem dropRead {t'} (h : Keeps r s) : Keeps r (Machine.dropRead t' s) :=
  h.upd

theorem execLateCompletion {tag} (h : Keeps r s) : ∃ t, Machine.execLateCompletion tag s = .next t ∧ Keeps r t :=
  ⟨_, rfl, .ite h.lateCompletion h⟩

theorem execTagQuarantineExpiry {tag} (h : Keeps r s) : ∃ t, Machine.execTagQuarantineExpiry tag s = .next t ∧ Keeps r t :=
  ⟨_, rfl, .ite h.upd.pumpReads h⟩

theorem quiesceIfIdle {n} (h : Keeps r s) : Keeps r (Machine.quiesceIfIdle n s) :=
  .ite h.portSet.girthSend h

theorem dropItem {n tag} (h : Keeps r s) : Keeps r (Machine.dropItem n tag s) :=
  h.portSet.quiesceIfIdle

theorem dcUpdate {space line d mask} (h : Keeps r s) : Keeps r (Machine.dcUpdate space line d mask s) := by
  unfold Machine.dcUpdate
  split
  · exact h.dcPut
  · exact h

theorem drainMerge {m} (h : Keeps r s) : Keeps r (Machine.drainMerge m s) :=
  .ite h.upd.count.upd h.upd.count.emit.dcUpdate

theorem drainWhere {p} (h : Keeps r s) : Keeps r (Machine.drainWhere p s) := by
  unfold Machine.drainWhere
  refine .foldS ?_ fun _ _ h => ?_
  · exact h
  · exact h.drainMerge

theorem dcSnoop {space ln op} (h : Keeps r s) : Keeps r (Machine.dcSnoop space ln op s).2 := by
  unfold Machine.dcSnoop
  split
  · dsimp only
    split
    · exact h.drainWhere
    · split
      · exact h.drainWhere
      · exact h.drainWhere.dcPut
  · dsimp only
    split
    · exact h.drainWhere
    · exact h.drainWhere.dcPut
  · dsimp only
    split <;> exact h.drainWhere
  · dsimp only
    split <;> exact h.drainWhere

theorem strayAnswer {l a isWb} (h : Keeps r s) : Keeps r (Machine.strayAnswer l a isWb s) := by
  unfold Machine.strayAnswer
  split
  · exact h.setLate.ksCount
  · split
    · exact .ite h.raise h
    · exact h

theorem storeSnoop {l op} (h : Keeps r s) : Keeps r (Machine.storeSnoop l op s).2 := by
  unfold Machine.storeSnoop
  split
  · exact h
  · split
    · split
      · dsimp only
        split <;> exact h
      · dsimp only
        split
        · exact h
        · exact h.upd
    · split
      · dsimp only
        split
        · exact h
        · exact h.upd
      · dsimp only
        split
        · exact h
        · exact h.upd
    · split
      · dsimp only
        split <;> exact h
      · dsimp only
        split <;> exact h
    · split
      · dsimp only
        split
        · exact h
        · exact .ite h.upd h
      · dsimp only
        split
        · exact h
        · exact .ite h.upd h

theorem hostSnoop {op line} (h : Keeps r s) : Keeps r (Machine.hostSnoop op line s) :=
  .ite h h.dcSnoop.emit

theorem execFwdData {port route rtxn data poison} (h : Keeps r s) :
    ∃ t, Machine.execFwdData port route rtxn data poison s = .next t ∧ Keeps r t := by
  refine ⟨_, rfl, ?_⟩
  refine .ite ?_ ?_
  · exact h
  · dsimp only
    split
    · exact h.count
    · split
      · exact h.girthSend
      · exact .ite h h.setTxn

theorem dropDraining {m} (h : Keeps r s) : Keeps r (Machine.dropDraining m s) :=
  h.upd

theorem dropPosted {r' l} (h : Keeps r s) : Keeps r (Machine.dropPosted r' l s) := by
  unfold Machine.dropPosted
  split
  · exact h
  · split
    · exact .ite h.upd h.upd.upd
    · exact h.upd

theorem dcInstall {cls x} (h : Keeps r s) : Keeps r (Machine.dcInstall cls x s).2.2 := by
  unfold Machine.dcInstall
  dsimp only
  split
  · exact h.dcPut
  · split
    · exact h
    · exact h.upd.dcPut

theorem endPortTxn {n txn} (h : Keeps r s) : Keeps r (Machine.endPortTxn n txn s) :=
  h.portSet

theorem execGrantHoldExpiry {line} (h : Keeps r s) : ∃ t, Machine.execGrantHoldExpiry line s = .next t ∧ Keeps r t :=
  ⟨_, rfl, h.upd⟩

theorem execWbAck {slot line} (h : Keeps r s) : ∃ t, Machine.execWbAck slot line s = .next t ∧ Keeps r t := by
  refine ⟨_, rfl, ?_⟩
  split
  · split
    · exact h
    · refine .ite ?_ ?_
      · exact h
      · split
        · exact h.drainEvicts.upd.girthSend
        · exact .ite h.drainEvicts.upd.upd (.ite h.drainEvicts.upd.emit h.drainEvicts.upd)
  · split
    · exact h
    · refine .ite ?_ ?_
      · exact h
      · split
        · exact h.drainEvicts.upd.girthSend
        · exact .ite h.drainEvicts.upd.upd (.ite h.drainEvicts.upd.emit h.drainEvicts.upd)

theorem execRetry {r' line} (h : Keeps r s) : ∃ t, Machine.execRetry r' line s = .next t ∧ Keeps r t := by
  refine ⟨_, rfl, ?_⟩
  split
  · exact h
  · split
    · exact h.upd.ksCount.girthSend
    · exact h.upd.ksCount

theorem execGoRetry {line} (h : Keeps r s) : ∃ t, Machine.execGoRetry line s = .next t ∧ Keeps r t := by
  refine ⟨_, rfl, ?_⟩
  dsimp only
  split
  · exact h
  · split
    · exact h.upd.girthSend
    · exact h.upd

theorem execTrackInc {line} (h : Keeps r s) : ∃ t, Machine.execTrackInc line s = .next t ∧ Keeps r t := by
  refine ⟨_, rfl, ?_⟩
  split
  · exact .ite h.upd h
  · exact h

theorem execTrackIncAck {line} (h : Keeps r s) : ∃ t, Machine.execTrackIncAck line s = .next t ∧ Keeps r t := by
  refine ⟨_, rfl, ?_⟩
  split
  · exact .ite h.setTxn h
  · exact h

theorem execTrackDec {line} (h : Keeps r s) : ∃ t, Machine.execTrackDec line s = .next t ∧ Keeps r t := by
  refine ⟨_, rfl, ?_⟩
  split
  · exact .ite h.upd h
  · exact h

theorem tellMode {was} (h : Keeps r s) : Keeps r (Machine.tellMode was s) := by
  unfold Machine.tellMode
  refine .ite ?_ ?_
  · exact h
  · refine .foldS ?_ fun _ _ h => ?_
    · exact h
    · exact .ite h.girthSend h

theorem setForcedHw {v} (h : Keeps r s) : Keeps r (Machine.setForcedHw v s) :=
  h.upd.tellMode

theorem execQmoveSweepEnd {quarter} (h : Keeps r s) : ∃ t, Machine.execQmoveSweepEnd quarter s = .next t ∧ Keeps r t := by
  refine ⟨_, rfl, ?_⟩
  split
  · exact h
  · exact .ite h (.ite h.upd.setForcedHw h.upd)

theorem setForcedSw {v} (h : Keeps r s) : Keeps r (Machine.setForcedSw v s) :=
  h.upd.tellMode

theorem execForcedSwWrite {value} (h : Keeps r s) : ∃ t, Machine.execForcedSwWrite value s = .next t ∧ Keeps r t :=
  ⟨_, rfl, .ite h.setForcedSw h⟩

theorem markFence {cls} (h : Keeps r s) : Keeps r (Machine.markFence cls s) :=
  h.upd

theorem dcFence {cls} (h : Keeps r s) : Keeps r (Machine.dcFence cls s) :=
  h.markFence.drainWhere.endFences

theorem dcRangeWrite {v} (h : Keeps r s) : Keeps r (Machine.dcRangeWrite v s) :=
  .ite h.countIgnored (.ite h.upd h.upd.upd.drainWhere.endFences)

theorem execDcRangeInv {value} (h : Keeps r s) : ∃ t, Machine.execDcRangeInv value s = .next t ∧ Keeps r t :=
  ⟨_, rfl, .ite h.dcRangeWrite h⟩

theorem latePrg {i} (h : Keeps r s) : Keeps r (Machine.latePrg i s) :=
  h.upd.count

theorem prgTimesOut {p} (h : Keeps r s) : Keeps r (Machine.prgTimesOut p s) := by
  unfold Machine.prgTimesOut
  refine .foldS ?_ fun _ _ h => ?_
  · exact h.upd
  · exact h.failXfer

theorem execPrgResponse {index code} (h : Keeps r s) : ∃ t, Machine.execPrgResponse index code s = .next t ∧ Keeps r t := by
  refine ⟨_, rfl, ?_⟩
  refine .ite ?_ ?_
  · exact h
  · refine .ite ?_ ?_
    · exact h.latePrg
    · split
      · exact h
      · refine .ite ?_ ?_
        · exact h.prgTimesOut.latePrg
        · refine .foldS ?_ fun _ _ h => ?_
          · exact h.upd
          · refine .ite ?_ ?_
            · split
              · exact h.xferSet
              · exact h
            · exact h.failXfer

theorem execPriTimeout {index} (h : Keeps r s) : ∃ t, Machine.execPriTimeout index s = .next t ∧ Keeps r t := by
  refine ⟨_, rfl, ?_⟩
  split
  · exact h
  · exact .ite h h.prgTimesOut

theorem execPrgQuarantineExpiry {index} (h : Keeps r s) : ∃ t, Machine.execPrgQuarantineExpiry index s = .next t ∧ Keeps r t :=
  ⟨_, rfl, h.upd⟩

theorem execPriEnable {value} (h : Keeps r s) : ∃ t, Machine.execPriEnable value s = .next t ∧ Keeps r t :=
  ⟨_, rfl, .ite h.setPriEnable h⟩

theorem heatSlot {ctx region} (h : Keeps r s) : Keeps r (Machine.heatSlot s ctx region).2 := by
  unfold Machine.heatSlot
  split
  · exact h
  · split
    · exact h.upd
    · exact h.upd.count.upd

theorem hotReport {h'} (h : Keeps r s) : Keeps r (Machine.hotReport h' s).2 := by
  unfold Machine.hotReport
  dsimp only
  split
  · exact h
  · split
    · exact h.count
    · exact .ite h.hostWrite.hostWrite.upd.interrupt h.hostWrite.hostWrite.upd

theorem doneXfer {e} (h : Keeps r s) : Keeps r (Machine.doneXfer e s) := by
  unfold Machine.doneXfer
  split
  · exact h
  · split
    · exact h.dropXfer.emit.opMod
    · dsimp only
      split
      · exact h.dropXfer.emit.setPage
      · exact h.dropXfer.emit
    · dsimp only
      split
      · exact h.dropXfer.emit.setPage
      · exact h.dropXfer.emit
    · exact h.dropXfer.emit

theorem writeHost {x b ls} (h : Keeps r s) : Keeps r (Machine.writeHost x b ls s) := by
  unfold Machine.writeHost
  refine .foldS ?_ fun _ _ h => ?_
  · exact h
  · exact h.hostWrite

theorem execHeatDecay (h : Keeps r s) : ∃ t, Machine.execHeatDecay s = .next t ∧ Keeps r t :=
  ⟨_, rfl, .ite h h.upd⟩

theorem hotCtlWrite {v} (h : Keeps r s) : Keeps r (Machine.hotCtlWrite v s) :=
  (Keeps.ite h.countIgnored h).upd

theorem execHotRingEnable {value} (h : Keeps r s) : ∃ t, Machine.execHotRingEnable value s = .next t ∧ Keeps r t :=
  ⟨_, rfl, .ite h.hotCtlWrite h⟩

theorem ctxRootSet {n v} (h : Keeps r s) : Keeps r (Machine.ctxRootSet n v s) :=
  h.upd.flushWalks

theorem execCtxRootWrite {ctx value} (h : Keeps r s) : ∃ t, Machine.execCtxRootWrite ctx value s = .next t ∧ Keeps r t :=
  ⟨_, rfl, .ite h.ctxRootSet h⟩

theorem validatePte (h : Keeps r s) : Keeps r (Machine.validatePte s) :=
  h.upd.flushWalks

theorem execPteFormatValidate (h : Keeps r s) : ∃ t, Machine.execPteFormatValidate s = .next t ∧ Keeps r t :=
  ⟨_, rfl, .ite h.validatePte h⟩

theorem setGp {n st} (h : Keeps r s) : Keeps r (Machine.setGp n st s) :=
  .ite h h.portSet.trace

theorem replayFlits {n} (h : Keeps r s) : Keeps r (Machine.replayFlits n s) := by
  unfold Machine.replayFlits
  refine .foldS ?_ fun _ _ h => ?_
  · exact h.portSet
  · exact h.sendFlit.count

theorem nakFlits {n} (h : Keeps r s) : Keeps r (Machine.nakFlits n s) :=
  .ite h.portSet.raise h.replayFlits

theorem startFails {n} (h : Keeps r s) : Keeps r (Machine.startFails n s) :=
  h.portSet.setGp.raise

theorem sendHello {n} (h : Keeps r s) : Keeps r (Machine.sendHello n s) :=
  h.girthSend

theorem portStep {n k bound} (h : Keeps r s) : Keeps r (Machine.portStep n k bound s) :=
  h.portSet

theorem execGirthKeepalive {port} (h : Keeps r s) : ∃ t, Machine.execGirthKeepalive port s = .next t ∧ Keeps r t :=
  ⟨_, rfl, .ite h (.ite h.girthPump.girthFlitOut h.girthPump)⟩

theorem nackPort {n txn reason} (h : Keeps r s) : Keeps r (Machine.nackPort n txn reason s) :=
  h.girthSend.count.raise

theorem execOffloadItemSend {port} (h : Keeps r s) : ∃ t, Machine.execOffloadItemSend port s = .next t ∧ Keeps r t := by
  refine ⟨_, rfl, ?_⟩
  refine .ite ?_ ?_
  · exact h
  · split
    · exact h
    · exact h.portSet.girthSend.count

theorem abortOverdue {n} (h : Keeps r s) : Keeps r (Machine.abortOverdue n s) :=
  .ite h.portSet.raise h

theorem execAbortDone {port tag} (h : Keeps r s) : ∃ t, Machine.execAbortDone port tag s = .next t ∧ Keeps r t :=
  ⟨_, rfl, .ite h (.ite h.abortOverdue.dropItem h.count)⟩

theorem beginCredits {n} (h : Keeps r s) : Keeps r (Machine.beginCredits n s) :=
  h.portStep.girthSend.girthSend

theorem takeHello {n body} (h : Keeps r s) : Keeps r (Machine.takeHello n body s) := by
  unfold Machine.takeHello
  refine .ite ?_ ?_
  · exact h.portSet.startFails
  · exact .ite h.portSet.portStep.girthSend.girthSend.girthSend h.portSet.beginCredits

theorem portUp {n} (h : Keeps r s) : Keeps r (Machine.portUp n s) :=
  .ite h.portSet.setGp h

theorem execChipletError {port code} (h : Keeps r s) : ∃ t, Machine.execChipletError port code s = .next t ∧ Keeps r t :=
  ⟨_, rfl, .ite h.raise h⟩

theorem girthKx {n m} (h : Keeps r s) : Keeps r (Machine.girthKx n m s) := by
  unfold Machine.girthKx
  split
  · exact .ite h.portSet h
  · exact .ite h.portSet h
  · exact .ite h (.ite h.count.portSet.girthSend (.ite h.portSet.girthSend h.startFails))
  · exact .ite h (.ite h.portSet.girthSend h.startFails)
  · exact .ite h h.updSec.updSec.portSet.beginCredits

theorem beginStart {n} (h : Keeps r s) : Keeps r (Machine.beginStart n s) :=
  h.portSet.setGp

theorem gpStart {n} (h : Keeps r s) : Keeps r (Machine.gpStart n s) :=
  .ite h.countIgnored (.ite h.portSet h.beginStart)

theorem execGpStart {port} (h : Keeps r s) : ∃ t, Machine.execGpStart port s = .next t ∧ Keeps r t :=
  ⟨_, rfl, .ite h.gpStart h⟩

theorem execGirthStartTimeout {port} (h : Keeps r s) : ∃ t, Machine.execGirthStartTimeout port s = .next t ∧ Keeps r t :=
  ⟨_, rfl, .ite h.startFails h⟩

theorem gpStop {n} (h : Keeps r s) : Keeps r (Machine.gpStop n s) :=
  .ite h.countIgnored h.portSet.setGp.quiesceIfIdle

theorem execGpStop {port} (h : Keeps r s) : ∃ t, Machine.execGpStop port s = .next t ∧ Keeps r t :=
  ⟨_, rfl, .ite h.gpStop h⟩

theorem execGpPrsntN {port level} (h : Keeps r s) : ∃ t, Machine.execGpPrsntN port level s = .next t ∧ Keeps r t :=
  ⟨_, rfl, .ite h (.ite h.portSet.raise h.portSet)⟩

theorem outsideLost {unit line write} (h : Keeps r s) : Keeps r (Machine.outsideLost unit line write s) := by
  unfold Machine.outsideLost
  refine .ite ?_ ?_
  · exact .ite h.count h.emit
  · refine .ite ?_ ?_
    · exact .ite h.count h
    · refine .ite ?_ ?_
      · exact h.count
      · split
        · exact h.girthSend.girthSend.endPortTxn
        · exact h

theorem execTtagQuarantineExpiry {unit how} (h : Keeps r s) :
    ∃ t, Machine.execTtagQuarantineExpiry unit how s = .next t ∧ Keeps r t :=
  ⟨_, rfl, .ite h (.ite h.upd.count h.upd)⟩

theorem execRouteRetire (h : Keeps r s) : ∃ t, Machine.execRouteRetire s = .next t ∧ Keeps r t := by
  refine ⟨_, rfl, ?_⟩
  refine .ite ?_ ?_
  · exact h
  · dsimp only
    split
    · exact h.upd.trace
    · exact h.upd.trace.upd.routeWrite

theorem pdPut {d p} (h : Keeps r s) : Keeps r (Machine.pdPut d p s) :=
  h.upd

theorem pdSet {d p} (h : Keeps r s) : Keeps r (Machine.pdSet d p s) :=
  .ite h.pdPut h.pdPut.trace

theorem pdRefuse {d code} (h : Keeps r s) : Keeps r (Machine.pdRefuse d code s) :=
  h.pdSet.countIgnored

theorem wakeDomain {d} (h : Keeps r s) : Keeps r (Machine.wakeDomain d s) :=
  .ite h.pdSet h.pdSet.upd

theorem requestOn {d} (h : Keeps r s) : Keeps r (Machine.requestOn d s) :=
  .ite h.pdRefuse (.ite h.pdSet.wakeDomain h.pdSet)

theorem takeReply {src ttag} (h : Keeps r s) : Keeps r (Machine.takeReply src ttag s) :=
  h.upd

theorem landFlight {f} (h : Keeps r s) : Keeps r (Machine.landFlight f s) := by
  unfold Machine.landFlight
  refine .foldS ?_ fun _ _ h => ?_
  · exact h.upd
  · exact h.countN

theorem takePacket {src dest vn ttag} (h : Keeps r s) : Keeps r (Machine.takePacket src dest vn ttag s) := by
  unfold Machine.takePacket
  dsimp only
  split
  · exact h.deckMoves.upd
  · refine .landFlight (.foldS ?_ fun _ _ h => ?_)
    · exact h.deckMoves
    · exact h.landFlight

theorem blockReply {b isFence source} (h : Keeps r s) : Keeps r (Machine.blockReply b isFence source s) :=
  h.sendPacket.takePacket.takeReply.upd.ringDoorbell

theorem fenceEnd {d source} (h : Keeps r s) : Keeps r (Machine.fenceEnd d source s) :=
  h.pdSet.blockReply

theorem resample {d} (h : Keeps r s) : Keeps r (Machine.resample d s) := by
  unfold Machine.resample
  refine .foldS ?_ fun _ _ h => ?_
  · exact h
  · refine .foldS ?_ fun _ _ h => ?_
    · exact h
    · exact .ite h.upd.latch h

theorem nextWake (h : Keeps r s) : Keeps r (Machine.nextWake s) := by
  unfold Machine.nextWake
  split
  · exact h
  · exact h.upd.pdSet

theorem spRelease {o} (h : Keeps r s) : Keeps r (Machine.spRelease o s) :=
  .ite h.upd.upd h.upd

theorem execFaultLatch {source cls what detail} (h : Keeps r s) :
    ∃ t, Machine.execFaultLatch source cls what detail s = .next t ∧ Keeps r t := by
  refine ⟨_, rfl, ?_⟩
  refine .ite ?_ ?_
  · exact h
  · refine .ite ?_ ?_
    · exact h.srcSet
    · exact .ite h.srcSet.latch (.ite h.raiseLevel (.ite h.latch.updSec (.ite h.latch.upd h.latch)))

theorem execFailingBeatSent (h : Keeps r s) : ∃ t, Machine.execFailingBeatSent s = .next t ∧ Keeps r t := by
  refine ⟨_, rfl, ?_⟩
  split
  · exact h
  · split
    · exact h.upd.emit.chipReset
    · exact h.upd.emit

theorem execTrap (h : Keeps r s) : ∃ t, Machine.execTrap s = .next t ∧ Keeps r t :=
  ⟨_, rfl, .ite h.takeTrap h⟩

theorem dropMsg {m} (h : Keeps r s) : Keeps r (Machine.dropMsg m s) := by
  unfold Machine.dropMsg
  refine .upd (.foldS ?_ fun _ _ h => ?_)
  · exact h
  · exact h.takePacket

theorem startRebuild {entry k survivor} (h : Keeps r s) : Keeps r (Machine.startRebuild entry k survivor s) := by
  unfold Machine.startRebuild
  dsimp only
  split
  · exact h.updStore
  · exact h.raise

theorem losePair {lost entry k} (h : Keeps r s) : Keeps r (Machine.losePair lost entry k s) :=
  .ite h (.ite h.updStore h.updStore.startRebuild)

theorem rebuildFor {lost} (h : Keeps r s) : Keeps r (Machine.rebuildFor lost s) := by
  unfold Machine.rebuildFor
  refine .foldS ?_ fun _ _ h => ?_
  · exact h
  · refine .foldS ?_ fun _ _ h => ?_
    · exact h
    · exact h.losePair

theorem startQmove {q} (h : Keeps r s) : Keeps r (Machine.startQmove q s) := by
  unfold Machine.startQmove
  dsimp only
  split
  · exact h
  · refine .foldS ?_ fun _ _ h => ?_
    · exact h.upd.setForcedHw
    · exact .ite h.girthSend h

theorem execFenceDrainTimeout {d} (h : Keeps r s) : ∃ t, Machine.execFenceDrainTimeout d s = .next t ∧ Keeps r t := by
  refine ⟨_, rfl, ?_⟩
  split
  · exact .ite h.fenceEnd h
  · exact h

theorem copyBack {p} (h : Keeps r s) : Keeps r (Machine.copyBack p s) := by
  unfold Machine.copyBack
  refine .foldS ?_ fun _ _ h => ?_
  · exact h
  · refine .foldS ?_ fun _ _ h => ?_
    · exact h
    · exact .ite (.ite h.updStore h) (.ite (.ite h.updStore h) h)

theorem execFenceReply (h : Keeps r s) : ∃ t, Machine.execFenceReply s = .next t ∧ Keeps r t := by
  refine ⟨_, rfl, ?_⟩
  refine .ite ?_ ?_
  · exact h
  · split
    · exact h
    · exact h.dispatchBit.upd.upd.trace.notice

theorem clearSource {n ones} (h : Keeps r s) : Keeps r (Machine.clearSource n ones s) :=
  .ite h (.ite h.srcSet.emcy h.srcSet)

theorem execFaultClear {source ones} (h : Keeps r s) : ∃ t, Machine.execFaultClear source ones s = .next t ∧ Keeps r t :=
  ⟨_, rfl, .ite h (.ite h.count h.clearSource)⟩

theorem fsCfg {n value} (h : Keeps r s) : Keeps r (Machine.fsCfg n value s) :=
  h.srcSet

theorem fsCfgWrite {n value} (h : Keeps r s) : Keeps r (Machine.fsCfgWrite n value s) :=
  .ite h.count (Keeps.ite h.count h).fsCfg.restamp

theorem execFsCfgWrite {source value} (h : Keeps r s) : ∃ t, Machine.execFsCfgWrite source value s = .next t ∧ Keeps r t :=
  ⟨_, rfl, .ite h.fsCfgWrite h⟩

theorem execFcLock (h : Keeps r s) : ∃ t, Machine.execFcLock s = .next t ∧ Keeps r t :=
  ⟨_, rfl, .ite h.upd.restamp h⟩

theorem safeEnter {cause} (h : Keeps r s) : Keeps r (Machine.safeEnter cause s) := by
  unfold Machine.safeEnter
  refine .ite ?_ ?_
  · exact h
  · refine .handover (.foldS ?_ fun _ _ h => ?_)
    · exact h.upd.trace.emcy.updStore
    · exact h.portSet

theorem execFsCfgSweep {parityError} (h : Keeps r s) : ∃ t, Machine.execFsCfgSweep parityError s = .next t ∧ Keeps r t :=
  ⟨_, rfl, .ite (.ite h.upd.safeEnter h.upd) h⟩

theorem execSafeEnter {cause} (h : Keeps r s) : ∃ t, Machine.execSafeEnter cause s = .next t ∧ Keeps r t :=
  ⟨_, rfl, .ite h.safeEnter h⟩

theorem spdm {session r'} (h : Keeps r s) : Keeps r (Machine.spdm session r' s) :=
  h.emit

theorem spdmError {session what} (h : Keeps r s) : Keeps r (Machine.spdmError session what s) :=
  h.spdm.count

theorem setConn {n} (h : Keeps r s) : Keeps r (Machine.setConn n s) :=
  h.updSec

theorem sessPut {x} (h : Keeps r s) : Keeps r (Machine.sessPut x s) :=
  h.updSec

theorem measure {session index signed} (h : Keeps r s) : Keeps r (Machine.measure session index signed s) := by
  unfold Machine.measure
  refine .ite ?_ ?_
  · exact h.spdm
  · refine .ite ?_ ?_
    · split
      · split
        · exact .ite h.spdm.sessPut h.spdm
        · exact h.spdm
      · split
        · exact .ite h.spdm.sessPut h.spdm
        · exact h.spdm
    · exact .ite h.spdmError h.spdm

theorem sessEnd {i} (h : Keeps r s) : Keeps r (Machine.sessEnd i s) :=
  h.updSec

theorem chunkIn {session handle seq last bytes} (h : Keeps r s) : Keeps r (Machine.chunkIn session handle seq last bytes s) :=
  .ite h.updSec.spdmError (Keeps.ite h.updSec h.updSec).spdm

theorem ideGo {stream} (h : Keeps r s) : Keeps r (Machine.ideGo stream s) :=
  h.upd

theorem vendorRsp {session code status} (h : Keeps r s) : Keeps r (Machine.vendorRsp session code status s) :=
  .ite h.spdm h.spdm.count

theorem createCtx {session x n allowHost cred} (h : Keeps r s) : Keeps r (Machine.createCtx session x n allowHost cred s) := by
  unfold Machine.createCtx
  refine .ite ?_ ?_
  · exact h.updSec.updSec.ctxSet.traceCtx.vendorRsp
  · refine .ite ?_ ?_
    · exact h.updSec.updSec.ctxSet.traceCtx.putContext.updSec
    · exact h.updSec.updSec.ctxSet.traceCtx.putContext.vendorRsp

theorem keyRefused {n} (h : Keeps r s) : Keeps r (Machine.keyRefused n s) :=
  h.traceCtx

theorem zeroKeys (h : Keeps r s) : Keeps r (Machine.zeroKeys s) :=
  h.updSec

theorem ctxAdmit {n v} (h : Keeps r s) : Keeps r (Machine.ctxAdmit n v s) :=
  .ite h.countIgnored h.ctxSet

theorem execCtxAdmitWrite {ctx value} (h : Keeps r s) : ∃ t, Machine.execCtxAdmitWrite ctx value s = .next t ∧ Keeps r t :=
  ⟨_, rfl, .ite h.ctxAdmit h⟩

theorem execModRstNFall (h : Keeps r s) : ∃ t, Machine.execModRstNFall s = .next t ∧ Keeps r t :=
  ⟨_, rfl, .ite h.upd.chipReset h⟩

theorem execModRstNRise (h : Keeps r s) : ∃ t, Machine.execModRstNRise s = .next t ∧ Keeps r t :=
  ⟨_, rfl, .ite h h.upd⟩

theorem nextStep (h : Keeps r s) : Keeps r (Machine.nextStep s) :=
  h.upd.trace

theorem railsRead {r'} (h : Keeps r s) : Keeps r (Machine.railsRead r' s) :=
  h.upd

theorem fenceLate {d} (h : Keeps r s) : Keeps r (Machine.fenceLate d s) :=
  .ite h.pdSet.startQmove h.pdSet

theorem bootUp (h : Keeps r s) : Keeps r (Machine.bootUp s) :=
  .ite h.upd.emit h.upd

theorem wakeUnits {lo n} (h : Keeps r s) : Keeps r (Machine.wakeUnits lo n s) :=
  h.updStore

theorem execStartStepTimeout (h : Keeps r s) : ∃ t, Machine.execStartStepTimeout s = .next t ∧ Keeps r t :=
  ⟨_, rfl, .ite h.upd.raise h⟩

theorem pmReadMissed (h : Keeps r s) : Keeps r (Machine.pmReadMissed s) := by
  unfold Machine.pmReadMissed
  split
  · exact .ite h.upd.raise h
  · exact h

theorem execRailAlert {answer} (h : Keeps r s) : ∃ t, Machine.execRailAlert answer s = .next t ∧ Keeps r t := by
  refine ⟨_, rfl, ?_⟩
  refine .ite ?_ ?_
  · exact h
  · split
    · refine .ite ?_ ?_
      · exact .ite h.pmReadMissed.emit h.pmReadMissed
      · exact (Keeps.ite h.pmReadMissed.emit h.pmReadMissed).upd
    · exact (Keeps.ite h.pmReadMissed.emit h.pmReadMissed).railsRead.trace

theorem execPmReadTimeout (h : Keeps r s) : ∃ t, Machine.execPmReadTimeout s = .next t ∧ Keeps r t :=
  ⟨_, rfl, .ite h.pmReadMissed h⟩

theorem thermalMissed (h : Keeps r s) : Keeps r (Machine.thermalMissed s) :=
  .ite h.upd.raise h

theorem execThermalReading {tj} (h : Keeps r s) : ∃ t, Machine.execThermalReading tj s = .next t ∧ Keeps r t :=
  ⟨_, rfl, .ite h h.thermalMissed.upd.raiseLevel.raiseLevel⟩

theorem execThermalTimeout (h : Keeps r s) : ∃ t, Machine.execThermalTimeout s = .next t ∧ Keeps r t :=
  ⟨_, rfl, .ite h.thermalMissed h⟩

theorem execVcoreOutOfRange {mv} (h : Keeps r s) : ∃ t, Machine.execVcoreOutOfRange mv s = .next t ∧ Keeps r t :=
  ⟨_, rfl, .ite h h.raiseLevel⟩

theorem usdoSend {client r'} (h : Keeps r s) : Keeps r (Machine.usdoSend client r' s) :=
  h.emit

theorem usdoAbort {client code} (h : Keeps r s) : Keeps r (Machine.usdoAbort client code s) :=
  h.usdoSend

theorem segDrop {client} (h : Keeps r s) : Keeps r (Machine.segDrop client s) :=
  h.upd

theorem usdoQueue {r'} (h : Keeps r s) : Keeps r (Machine.usdoQueue r' s) :=
  h.upd.ringDoorbell

theorem segOpen {x} (h : Keeps r s) : Keeps r (Machine.segOpen x s) :=
  h.upd

theorem segLost {client} (h : Keeps r s) : Keeps r (Machine.segLost client s) :=
  h.segDrop.usdoAbort

theorem execUsdoSegment {client bytes last} (h : Keeps r s) :
    ∃ t, Machine.execUsdoSegment client bytes last s = .next t ∧ Keeps r t := by
  refine ⟨_, rfl, ?_⟩
  split
  · exact h
  · refine .ite ?_ ?_
    · exact h.segLost
    · refine .ite ?_ ?_
      · exact .ite h.segDrop.ringDoorbell.usdoSend h.segDrop.ringDoorbell.usdoSend.segOpen
      · exact .ite h.segDrop.ringDoorbell.usdoQueue h.segDrop.ringDoorbell.segOpen.usdoSend

theorem execUsdoTimeout {client} (h : Keeps r s) : ∃ t, Machine.execUsdoTimeout client s = .next t ∧ Keeps r t := by
  refine ⟨_, rfl, ?_⟩
  split
  · exact .ite h.segLost h
  · exact h

theorem execClassicCanFrame (h : Keeps r s) : ∃ t, Machine.execClassicCanFrame s = .next t ∧ Keeps r t :=
  ⟨_, rfl, .ite h.count h⟩

theorem nmtGo {st} (h : Keeps r s) : Keeps r (Machine.nmtGo st s) :=
  .ite h.upd.emcySend h

theorem execNmtStart (h : Keeps r s) : ∃ t, Machine.execNmtStart s = .next t ∧ Keeps r t :=
  ⟨_, rfl, h.nmtGo⟩

theorem execNmtStop (h : Keeps r s) : ∃ t, Machine.execNmtStop s = .next t ∧ Keeps r t :=
  ⟨_, rfl, h.nmtGo⟩

theorem execNmtPreOperational (h : Keeps r s) : ∃ t, Machine.execNmtPreOperational s = .next t ∧ Keeps r t :=
  ⟨_, rfl, h.nmtGo⟩

theorem execNmtResetNode (h : Keeps r s) : ∃ t, Machine.execNmtResetNode s = .next t ∧ Keeps r t :=
  ⟨_, rfl, .ite h (.ite h.count h.chipReset)⟩

theorem execNmtResetCommunication (h : Keeps r s) : ∃ t, Machine.execNmtResetCommunication s = .next t ∧ Keeps r t :=
  ⟨_, rfl, .ite h h.upd.bootUp.emcySend⟩

theorem lssAnswer {cmd err} (h : Keeps r s) : Keeps r (Machine.lssAnswer cmd err s) :=
  h.emit

theorem execLssConfigureNodeId {id} (h : Keeps r s) : ∃ t, Machine.execLssConfigureNodeId id s = .next t ∧ Keeps r t :=
  ⟨_, rfl, .ite h (.ite h.lssAnswer (.ite h.upd.lssAnswer.upd.bootUp h.upd.lssAnswer))⟩

theorem nodeIdSet {id} (h : Keeps r s) : Keeps r (Machine.nodeIdSet id s) :=
  h.upd

theorem execLssStoreConfiguration (h : Keeps r s) : ∃ t, Machine.execLssStoreConfiguration s = .next t ∧ Keeps r t :=
  ⟨_, rfl, .ite h (.ite h.lssAnswer h.nodeIdSet.lssAnswer)⟩

theorem execCanHeartbeat (h : Keeps r s) : ∃ t, Machine.execCanHeartbeat s = .next t ∧ Keeps r t :=
  ⟨_, rfl, .ite h.upd.emit h⟩

theorem execEmcyInhibitExpiry (h : Keeps r s) : ∃ t, Machine.execEmcyInhibitExpiry s = .next t ∧ Keeps r t :=
  ⟨_, rfl, .ite h.emcySend h⟩

theorem hwinWrite {n k word w} (h : Keeps r s) : Keeps r (Machine.hwinWrite n k word w s) :=
  h.portSet

theorem regionBaseWrite {n w} (h : Keeps r s) : Keeps r (Machine.regionBaseWrite n w s) := by
  unfold Machine.regionBaseWrite
  refine .ite ?_ ?_
  · exact h.regionSet
  · exact .ite h.countIgnored (.ite h.regionPut.restamp (.ite h.regionClear h.countIgnored))

theorem regionShapeWrite {n w} (h : Keeps r s) : Keeps r (Machine.regionShapeWrite n w s) :=
  .ite h.countIgnored h.regionPut.restamp

theorem wayMaskSet {c v} (h : Keeps r s) : Keeps r (Machine.wayMaskSet c v s) :=
  h.upd

theorem pteWrite {idx sub v} (h : Keeps r s) : Keeps r (Machine.pteWrite idx sub v s) := by
  unfold Machine.pteWrite
  refine .ite ?_ ?_
  · split
    · exact h.flushWalks.upd
    · exact h.flushWalks.upd
    · exact h.flushWalks.upd
    · exact h.flushWalks.upd
    · exact h.flushWalks.upd
    · exact h.flushWalks.upd
    · exact h.flushWalks.upd
    · exact h.flushWalks.upd
    · exact h.flushWalks.upd
    · exact .ite h.flushWalks.validatePte h.flushWalks.upd
  · exact h.flushWalks.upd

theorem winInWrite {n word w} (h : Keeps r s) : Keeps r (Machine.winInWrite n word w s) :=
  h.upd

theorem winOutWrite {n word w} (h : Keeps r s) : Keeps r (Machine.winOutWrite n word w s) :=
  h.upd

theorem sbBind {c receiver code} (h : Keeps r s) : Keeps r (Machine.sbBind c receiver code s) :=
  .ite h.countIgnored (.ite h (.ite h.chanSet h.chanSet))

theorem guarPeriodSet {v} (h : Keeps r s) : Keeps r (Machine.guarPeriodSet v s) :=
  h.upd

theorem deckMarginSet {v} (h : Keeps r s) : Keeps r (Machine.deckMarginSet v s) :=
  h.upd

theorem cohCtlWrite {w} (h : Keeps r s) : Keeps r (Machine.cohCtlWrite w s) :=
  .ite h.setForcedSw h

theorem homeTimeoutSet {v} (h : Keeps r s) : Keeps r (Machine.homeTimeoutSet v s) :=
  h.upd

theorem mergeTicksSet {v} (h : Keeps r s) : Keeps r (Machine.mergeTicksSet v s) :=
  h.upd

theorem pbStsWrite {ones} (h : Keeps r s) : Keeps r (Machine.pbStsWrite ones s) :=
  h.upd

theorem enableRing (h : Keeps r s) : Keeps r (Machine.enableRing s) :=
  .ite h h.upd

theorem snapGo (h : Keeps r s) : Keeps r (Machine.snapGo s) :=
  .ite h.count h.upd

theorem traceCtlWrite {w} (h : Keeps r s) : Keeps r (Machine.traceCtlWrite w s) := by
  unfold Machine.traceCtlWrite
  refine .ite ?_ ?_
  · exact (Keeps.ite h.enableRing h.upd).upd.traceTrim.snapGo
  · exact (Keeps.ite h.enableRing h.upd).upd.traceTrim

theorem bufBaseSet {v} (h : Keeps r s) : Keeps r (Machine.bufBaseSet v s) :=
  .ite h.countIgnored h.upd

theorem bufSizeSet {v} (h : Keeps r s) : Keeps r (Machine.bufSizeSet v s) :=
  .ite h.countIgnored h.upd

theorem dwSet {k x} (h : Keeps r s) : Keeps r (Machine.dwSet k x s) :=
  h.upd

theorem sbTake {c receiver} (h : Keeps r s) : Keeps r (Machine.sbTake c receiver s) :=
  .ite h.upd h.trestleSet

theorem sbAck {c a status detail} (h : Keeps r s) : Keeps r (Machine.sbAck c a status detail s) :=
  .ite h.count h.chanSet.sbTake

theorem core1Done {b} (h : Keeps r s) : Keeps r (Machine.core1Done b s) :=
  .ite h h.trestleSet

theorem sbRing {c receiver} (h : Keeps r s) : Keeps r (Machine.sbRing c receiver s) :=
  .ite h.ringHost h.trestleSet.ringDoorbell

theorem sbGo {c a len} (h : Keeps r s) : Keeps r (Machine.sbGo c a len s) :=
  .ite h.count (.ite h.chanSet h.chanSet.sbRing)

theorem execSbGo {c actor len} (h : Keeps r s) : ∃ t, Machine.execSbGo c actor len s = .next t ∧ Keeps r t :=
  ⟨_, rfl, .ite h.sbGo h⟩

theorem execSbAck {c actor status detail} (h : Keeps r s) : ∃ t, Machine.execSbAck c actor status detail s = .next t ∧ Keeps r t :=
  ⟨_, rfl, .ite h.sbAck h⟩

theorem execSbBind {c receiver code} (h : Keeps r s) : ∃ t, Machine.execSbBind c receiver code s = .next t ∧ Keeps r t :=
  ⟨_, rfl, .ite h.sbBind h⟩

theorem execSbLock (h : Keeps r s) : ∃ t, Machine.execSbLock s = .next t ∧ Keeps r t :=
  ⟨_, rfl, .ite h.upd h⟩

theorem setHostMask {value} (h : Keeps r s) : Keeps r (Machine.setHostMask value s) :=
  .ite h.upd.interrupt h.upd

theorem execSbHostMaskWrite {value} (h : Keeps r s) : ∃ t, Machine.execSbHostMaskWrite value s = .next t ∧ Keeps r t :=
  ⟨_, rfl, .ite h.setHostMask h.refuseAccess⟩

theorem execTraceRecord {event unit a b} (h : Keeps r s) : ∃ t, Machine.execTraceRecord event unit a b s = .next t ∧ Keeps r t :=
  ⟨_, rfl, .ite h.trace h⟩

theorem execTracePortSend (h : Keeps r s) : ∃ t, Machine.execTracePortSend s = .next t ∧ Keeps r t := by
  refine ⟨_, rfl, ?_⟩
  split
  · exact .ite h.upd.emit.count.traceTrim h
  · exact h

theorem execTraceRingWrite (h : Keeps r s) : ∃ t, Machine.execTraceRingWrite s = .next t ∧ Keeps r t := by
  refine ⟨_, rfl, ?_⟩
  split
  · exact .ite h.upd.hostWrite.hostWrite.count.traceTrim h
  · exact h

theorem execTraceBufEnable (h : Keeps r s) : ∃ t, Machine.execTraceBufEnable s = .next t ∧ Keeps r t :=
  ⟨_, rfl, .ite h.enableRing h⟩

theorem execSnapGo (h : Keeps r s) : ∃ t, Machine.execSnapGo s = .next t ∧ Keeps r t :=
  ⟨_, rfl, .ite h.snapGo h⟩

theorem execSnapshotEnd (h : Keeps r s) : ∃ t, Machine.execSnapshotEnd s = .next t ∧ Keeps r t :=
  ⟨_, rfl, .ite h.upd.count.trace h⟩

theorem msixCtlWrite {v} (h : Keeps r s) : Keeps r (Machine.msixCtlWrite v s) :=
  h.upd.sendAllPending

theorem cfgWrite {off mask v} (h : Keeps r s) : Keeps r (Machine.cfgWrite off mask v s) :=
  h.upd

theorem msixWrite {v word w} (h : Keeps r s) : Keeps r (Machine.msixWrite v word w s) :=
  .ite h.countIgnored (.ite h.msixSet h.msixSet.sendPending)

theorem lfsrSet {slice v} (h : Keeps r s) : Keeps r (Machine.lfsrSet slice v s) :=
  h.upd

theorem bar0Cache {q w} (h : Keeps r s) : Keeps r (Machine.bar0Cache q w s) := by
  unfold Machine.bar0Cache
  refine .ite ?_ ?_
  · exact h
  · refine .ite ?_ ?_
    · exact h.cohCtlWrite
    · refine .ite ?_ ?_
      · exact h.homeTimeoutSet
      · refine .ite ?_ ?_
        · exact h.mergeTicksSet
        · exact .ite h.wayMaskSet (.ite h.lfsrSet (.ite h.dcRangeWrite (.ite h.upd h)))

theorem hotBaseWrite {w} (h : Keeps r s) : Keeps r (Machine.hotBaseWrite w s) :=
  .ite h.countIgnored h.upd

theorem bar0Xl {q w} (h : Keeps r s) : Keeps r (Machine.bar0Xl q w s) := by
  unfold Machine.bar0Xl
  refine .ite ?_ ?_
  · exact h.hotBaseWrite
  · exact .ite (.ite h.hotCtlWrite h) (.ite (.ite h.upd h) (.ite h.ctxRootSet h))

theorem sbChannelWrite {c off w} (h : Keeps r s) : Keeps r (Machine.sbChannelWrite c off w s) := by
  unfold Machine.sbChannelWrite
  refine .ite ?_ ?_
  · exact h
  · refine .ite ?_ ?_
    · exact .ite h.chanSet h.count
    · exact .ite (.ite h.sbGo (.ite h.chanSet h.count)) (.ite h.sbAck (.ite h.count h))

theorem sbBindWrite {c w} (h : Keeps r s) : Keeps r (Machine.sbBindWrite c w s) :=
  .ite (Keeps.ite h.sbBind h).sbBind (.ite h.sbBind h)

theorem bar0Sb {q w} (h : Keeps r s) : Keeps r (Machine.bar0Sb q w s) := by
  unfold Machine.bar0Sb
  refine .ite ?_ ?_
  · exact h.sbChannelWrite.sbChannelWrite
  · refine .ite ?_ ?_
    · exact h.sbBindWrite
    · exact .ite (.ite h.upd h) (.ite h.upd (.ite (.ite h.setHostMask h) (.ite h.upd h)))

theorem eventEnWrite {k w} (h : Keeps r s) : Keeps r (Machine.eventEnWrite k w s) :=
  h.upd

theorem bar0Trace {q w} (h : Keeps r s) : Keeps r (Machine.bar0Trace q w s) := by
  unfold Machine.bar0Trace
  refine .ite ?_ ?_
  · exact .ite h.traceCtlWrite h
  · exact .ite h.bufBaseSet (.ite (.ite h.bufSizeSet h) (.ite h.eventEnWrite h))

theorem fsStsWrite {n w} (h : Keeps r s) : Keeps r (Machine.fsStsWrite n w s) :=
  .ite h (.ite h.count h.clearSource)

theorem execViaductFrameSend (h : Keeps r s) : ∃ t, Machine.execViaductFrameSend s = .next t ∧ Keeps r t := by
  refine ⟨_, rfl, ?_⟩
  refine .ite ?_ ?_
  · exact h
  · split
    · split
      · exact h.upd.emit.count
      · exact h.upd
    · exact .ite h.emit h.upd.emit.count.endExchange

theorem execCanErrorState {e tec rxec} (h : Keeps r s) : ∃ t, Machine.execCanErrorState e tec rxec s = .next t ∧ Keeps r t :=
  ⟨_, rfl, .ite h h.upd.raiseLevel.raiseLevel⟩

theorem checkLine {p a errs} (h : Keeps r s) : Keeps r (Machine.checkLine p a errs s) := by
  have counted : ∀ {x : Prop} [Decidable x] {t : State}, Keeps r t →
      Keeps r ((if x then Machine.count (4 * p + 3) else id) t) := by
    intro x _ t h
    split
    · exact h.count
    · exact h
  unfold Machine.checkLine
  dsimp only [Machine.drawFree]
  split
  · refine counted ?_
    split
    · exact h
    · exact h.upd.putLine
  · refine counted (.raise ?_)
    split
    · exact h
    · exact h.upd.putLine
  · exact h.upd.putLine.raise

theorem readPlace {r' req p a l errs} (h : Keeps r s) : Keeps r (Machine.readPlace r' req p a l errs s).2 := by
  unfold Machine.readPlace
  dsimp only
  split
  · exact h.touch.checkLine.raise.count
  · exact h.touch.checkLine

theorem memRead {dpa req errs} (h : Keeps r s) : Keeps r (Machine.memRead dpa req errs s).2 := by
  unfold Machine.memRead
  split
  · exact h.unmapped
  · split
    · exact h
    · exact h.readPlace
    · dsimp only
      split
      · exact h.readPlace
      · exact h.readPlace.readPlace.putLine

theorem readLine {req dpa} (h : Keeps r s) : Keeps r (Machine.readLine req dpa s).2 :=
  (Keeps.ite h.homeCount h).memRead

theorem Xfer_hdmLines {e x} (h : Keeps r s) : Keeps r (Machine.Xfer.hdmLines e x s).2 := by
  refine foldl_snd h fun l b t ht => ?_
  dsimp only
  split
  · exact ht
  · exact ht.readLine

theorem sendChunkLines {e w} (h : Keeps r s) : Keeps r (Machine.sendChunkLines e w s) := by
  unfold Machine.sendChunkLines
  split
  · exact h
  · exact .ite h.xferSet.Xfer_hdmLines.failXfer h.xferSet.Xfer_hdmLines.sendWindowWrite

theorem startChunk {e} (h : Keeps r s) : Keeps r (Machine.startChunk e s) := by
  unfold Machine.startChunk
  split
  · exact h
  · refine .ite ?_ ?_
    · exact h
    · refine .ite ?_ ?_
      · exact .ite h (.ite h.xferSet.issueReads.askLines h.xferSet.issueReads)
      · split
        · exact h
        · refine .ite ?_ ?_
          · exact h
          · refine .ite ?_ ?_
            · exact .ite h.askLines h.askLines.sendChunkLines
            · refine .ite ?_ ?_
              · exact h.sendChunkLines
              · refine .foldS ?_ fun _ _ h => ?_
                · exact h.xferSet
                · exact h.upd

theorem resumeEngines (h : Keeps r s) : Keeps r (Machine.resumeEngines s) := by
  unfold Machine.resumeEngines
  refine .foldS ?_ fun _ _ h => ?_
  · exact h
  · split
    · exact h
    · exact .ite h h.xferSet.startChunk

theorem bindCtx {c pasid cred} (h : Keeps r s) : Keeps r (Machine.bindCtx c pasid cred s) := by
  unfold Machine.bindCtx
  refine .ite ?_ ?_
  · exact h.bindResult
  · refine .ite ?_ ?_
    · exact h.bindResult
    · refine .ite ?_ ?_
      · exact h.bindingSet.bindResult.count.traceCtx
      · exact h.bindResult.bindingSet.putContext.traceCtx.resumeEngines

theorem serveBind {r'} (h : Keeps r s) : Keeps r (Machine.serveBind r' s) := by
  unfold Machine.serveBind
  split
  · exact h.upd.bindCtx
  · exact .ite h.upd.bindResult h.upd.bindResult.unbindCtx

theorem runHandler {c b} (h : Keeps r s) : Keeps r (Machine.runHandler c b s) := by
  unfold Machine.runHandler
  split
  · exact h.serveBind
  · exact h

theorem execTrestleDispatch {core} (h : Keeps r s) : ∃ t, Machine.execTrestleDispatch core s = .next t ∧ Keeps r t := by
  refine ⟨_, rfl, ?_⟩
  refine .ite ?_ ?_
  · exact h
  · refine .ite ?_ ?_
    · exact h.takeTrap
    · split
      · exact h
      · exact h.dispatchBit.runHandler

theorem execArrayStep {pier weight operand rowDst} (h : Keeps r s) :
    ∃ t, Machine.execArrayStep pier weight operand rowDst s = .next t ∧ Keeps r t := by
  refine ⟨_, rfl, .ite h ?_⟩
  dsimp only
  split
  · cases rowDst with
    | none =>
      split
      · exact h.count.pierSet.putCodebook
      · exact h.count.pierSet
    | some d =>
      split
      · exact h.count.poke.pierSet.putCodebook
      · exact h.count.poke.pierSet
  · exact .ite h h.pierSet
  · exact h

theorem sleepIfQuiet (h : Keeps r s) : Keeps r (Machine.sleepIfQuiet s) := by
  unfold Machine.sleepIfQuiet
  have h1 := h.sleepAll
  generalize Machine.sleepAll s = u at h1 ⊢
  exact .ite h1.updStore h

theorem dropRun {id} (h : Keeps r s) : Keeps r (Machine.dropRun id s) :=
  h.ringRunEnd.upd.sleepIfQuiet

theorem writeBytes {e d role o b} (h : Keeps r s) : Keeps r (Machine.writeBytes e d role o b s) := by
  unfold Machine.writeBytes
  split
  · exact h.engineWrite
  · exact h.engineWrite
  · exact h.poke
  · exact h.pokeBytes
  · exact h.runMod
  · split
    · exact h.sendWindowWrite
    · exact h
  · exact h

theorem scribbleRun {e} (h : Keeps r s) : Keeps r (Machine.scribbleRun e s) := by
  unfold Machine.scribbleRun
  refine .foldS ?_ fun _ _ h => ?_
  · exact h.upd
  · refine .ite ?_ ?_
    · refine .foldS ?_ fun _ _ h => ?_
      · exact h
      · refine .foldS ?_ fun _ _ h => ?_
        · exact h
        · exact h.writeBytes
    · exact h

theorem dropPrefill {i} (h : Keeps r s) : Keeps r (Machine.dropPrefill i s) := by
  unfold Machine.dropPrefill
  split
  · exact h.abortItems.dropRun
  · exact h

theorem restartFrom {id code i} (h : Keeps r s) : Keeps r (Machine.restartFrom id code i s) :=
  h.streamMod.dropPrefill.restart

theorem loadCodebook {e d role} (h : Keeps r s) : Keeps r (Machine.loadCodebook e d role s) := by
  unfold Machine.loadCodebook
  dsimp only
  generalize engineBytes _ _ _ _ _ = b
  split
  · exact h
  · exact ⟨h.cells, fun hr => wf_msetN (h.scratch hr) _ _, h.pending, h.ticks, h.lifecycle, h.minSvn⟩

theorem readRun {req dpa n} (h : Keeps r s) : Keeps r (Machine.readRun req dpa n s).2.2 := by
  unfold Machine.readRun
  dsimp only
  generalize ([] : List Byte) = l, false = b
  induction List.range _ generalizing l b s with
  | nil => exact h
  | cons i is ih => exact ih h.readLine _ _

theorem accessSlot {e d} (h : Keeps r s) : Keeps r (Machine.accessSlot e d s).2 :=
  foldl_snd h fun _ _ _ ht => ht.readRun

theorem readOperands {e ds} (h : Keeps r s) : Keeps r (Machine.readOperands e ds s).2 := by
  refine foldl_snd h fun d b t ht => ?_
  split
  · exact ht.accessSlot
  · exact foldl_snd ht fun _ _ _ hu => hu.accessLines

theorem writeDense {e d pier idx b} (h : Keeps r s) : Keeps r (Machine.writeDense e d pier idx b s) := by
  unfold Machine.writeDense
  refine .foldS ?_ fun _ _ h => ?_
  · exact h
  · exact h.writeBytes

theorem writeF32 {e d pier idx acc v} (h : Keeps r s) : Keeps r (Machine.writeF32 e d pier idx acc v s) := by
  unfold Machine.writeF32
  exact h.writeDense

theorem writeOwn {e d role idx acc v} (h : Keeps r s) : Keeps r (Machine.writeOwn e d role idx acc v s) :=
  .ite h.writeF32 h

theorem matmulRole {e st w x dst bias cols role} (h : Keeps r s) : Keeps r (Machine.matmulRole e st w x dst bias cols role s) := by
  unfold Machine.matmulRole
  refine .countN (.foldS ?_ fun _ _ h => ?_)
  · exact h.loadCodebook
  · refine .foldS ?_ fun _ _ h => ?_
    · exact h
    · exact h.writeOwn

theorem writeRaw {e d pier idx blk} (h : Keeps r s) : Keeps r (Machine.writeRaw e d pier idx blk s) := by
  unfold Machine.writeRaw
  refine .foldS ?_ fun _ _ h => ?_
  · exact h
  · exact .ite h.writeBytes.writeBytes.writeBytes.writeBytes h.writeBytes.writeBytes

theorem writeAll {e d pier acc f} (h : Keeps r s) : Keeps r (Machine.writeAll e d pier acc f s) := by
  unfold Machine.writeAll
  refine .ite ?_ ?_
  · refine .foldS ?_ fun _ _ h => ?_
    · exact h
    · refine .foldS ?_ fun _ _ h => ?_
      · exact h
      · exact .ite h h.writeRaw
  · refine .foldS ?_ fun _ _ h => ?_
    · exact h
    · split
      · exact h.writeF32
      · exact h

theorem writeLc12Part {e d pier idx b} (h : Keeps r s) : Keeps r (Machine.writeLc12Part e d pier idx b s) := by
  unfold Machine.writeLc12Part
  refine .foldS ?_ fun _ _ h => ?_
  · exact h
  · exact h.writeBytes.writeBytes

theorem moveRun {e a dst acc src tgt n old} (h : Keeps r s) : Keeps r (Machine.moveRun e a dst acc src tgt n old s) := by
  unfold Machine.moveRun
  refine .ite ?_ ?_
  · refine .foldS ?_ fun _ _ h => ?_
    · exact h
    · exact h.writeLc12Part
  · refine .ite ?_ ?_
    · refine .foldS ?_ fun _ _ h => ?_
      · exact h
      · exact h.writeRaw
    · refine .ite ?_ ?_
      · refine .foldS ?_ fun _ _ h => ?_
        · exact h
        · exact h.writeRaw
      · refine .ite ?_ ?_
        · refine .foldS ?_ fun _ _ h => ?_
          · exact h
          · exact h.writeDense
        · refine .foldS ?_ fun _ _ h => ?_
          · exact h
          · exact h.writeDense

theorem collect {e a dst acc} (h : Keeps r s) : Keeps r (Machine.collect e a dst acc s) :=
  h.moveRun

theorem zeroColumn {e dst acc dest} (h : Keeps r s) : Keeps r (Machine.zeroColumn e dst acc dest s) := by
  unfold Machine.zeroColumn
  refine .ite ?_ ?_
  · refine .foldS ?_ fun _ _ h => ?_
    · exact h
    · exact h.writeLc12Part
  · refine .ite ?_ ?_
    · refine .foldS ?_ fun _ _ h => ?_
      · exact h
      · exact h.writeRaw
    · refine .foldS ?_ fun _ _ h => ?_
      · exact h
      · exact h.writeDense

theorem copyColumn {e a dst acc from_ dest old} (h : Keeps r s) : Keeps r (Machine.copyColumn e a dst acc from_ dest old s) :=
  h.moveRun

theorem execRawRunEnd {run} (h : Keeps r s) : ∃ t, Machine.execRawRunEnd run s = .next t ∧ Keeps r t := by
  refine ⟨_, rfl, ?_⟩
  split
  · exact h
  · split
    · refine .ite ?_ ?_
      · exact h
      · refine .ite ?_ ?_
        · exact (Keeps.ite h.clashRun.dropRun.endStream h.clashRun.dropRun.endStream).applyCmds
        · refine .ite ?_ ?_
          · refine .ite ?_ ?_
            · exact (Keeps.ite h.dropRun.streamMod.applyCmds.suspend h.dropRun.streamMod.applyCmds).streamSet
            · exact .ite h.dropRun.streamMod.applyCmds.suspend h.dropRun.streamMod.applyCmds
          · exact h
    · exact h

theorem tryLock (h : Keeps r s) (he : Machine.tryLock s = some t) : Keeps r t := by
  unfold Machine.tryLock at he
  split at he
  · cases he; exact h
  · split at he
    · cases he; exact h.updStore.restamp
    · cases he

/-- Bytes taken out of memory keep it canonical. -/
theorem copyLines {p a q b n} (h : Keeps r s) : Keeps r (Machine.copyLines p a q b n s) :=
  foldS ⟨fun hr => tblWf_filter _ (h.cells hr), h.scratch, h.pending, h.ticks, h.lifecycle, h.minSvn⟩
    fun _ _ ht => ht.putLine

theorem copySeats {b} (h : Keeps r s) : Keeps r (Machine.copySeats b s) :=
  .ite h.copyLines h.copyLines.copyLines

theorem execMirrorRebuildEnd (h : Keeps r s) : ∃ t, Machine.execMirrorRebuildEnd s = .next t ∧ Keeps r t := by
  refine ⟨_, rfl, ?_⟩
  split
  · exact h
  · exact .ite h.updStore.copySeats (h.updStore.copySeats.updStore rfl rfl)

theorem execPatrolScrub {pier errs} (h : Keeps r s) : ∃ t, Machine.execPatrolScrub pier errs s = .next t ∧ Keeps r t :=
  ⟨_, rfl, .ite h h.touch.checkLine.updStore⟩

theorem winTouch {off n} (h : Keeps r s) : Keeps r (Machine.winTouch off n s) := by
  unfold Machine.winTouch
  split
  · exact h.readRun
  · exact h

theorem execSqFetch {qp} (h : Keeps r s) : ∃ t, Machine.execSqFetch qp s = .next t ∧ Keeps r t :=
  ⟨_, rfl, .ite h h.winTouch.upd.dispatchBit.qpSet⟩

theorem submitCmd {n e} (h : Keeps r s) : Keeps r (Machine.submitCmd n e s) := by
  unfold Machine.submitCmd
  split
  · exact h.count.answer
  · exact h.winTouch.takeSubmit

theorem opCmd {j op v} (h : Keeps r s) (he : Machine.opCmd j op s = some (v, t)) : Keeps r t := by
  unfold Machine.opCmd at he
  dsimp only at he
  split at he
  · cases he; exact h
  · split at he
    · split at he
      · cases he
      · cases he; exact h.opSet.putOp
    · cases he; exact h
  · split at he
    · cases he; exact h.opSet
    · cases he; exact h
  · split at he
    · cases he; exact h.cancelOp
    · cases he; exact h
  · cases he; exact h

theorem opCmdFrom {j n e} (h : Keeps r s) : Keeps r (Machine.opCmdFrom j n e s) := by
  unfold Machine.opCmdFrom
  refine .ite ?_ ?_
  · exact h.trace.count.answer
  · split
    · rename_i he
      exact (h.opCmd he).answer
    · exact h.opSet

theorem handleCmd {n e} (h : Keeps r s) : Keeps r (Machine.handleCmd n e s) := by
  unfold Machine.handleCmd
  refine .ite ?_ ?_
  · exact h.answer
  · split
    · exact h.streamCmdSoon
    · exact h.opCmdFrom
    · exact h.answer

theorem startOp {x v} (h : Keeps r s) (he : Machine.startOp x s = some (v, t)) : Keeps r t := by
  obtain ⟨_, _, he⟩ := Option.map_eq_some_iff.1 he
  cases he
  exact .putOp (.ite h.drawFree.opSet h.drawFree.opSet.trace)

theorem scrubPage {t' p base n} (h : Keeps r s) (he : Machine.scrubPage t' p base n s = some t) : Keeps r t := by
  unfold Machine.scrubPage at he
  dsimp only at he
  split at he
  · cases he
  · cases he
    refine .foldS ?_ fun _ _ ht => ht.putLine
    split
    · exact h.updSec
    · exact h.drawKey.updSec

theorem burnishUnit {j} (h : Keeps r s) : Keeps r (Machine.burnishUnit j s) := by
  unfold Machine.burnishUnit
  dsimp only
  split
  · exact h.burnishEnd
  · refine .ite ?_ ?_
    · exact .ite h.jZero.opMod.burnishEnd h.jZero.opMod
    · split
      · refine .ite ?_ ?_
        · rename_i he
          exact (h.scrubPage he).unitDone.opMod.burnishEnd
        · rename_i he
          exact (h.scrubPage he).unitDone.opMod
      · exact h.askInvalidate

theorem boundary {b B r'} (h : Keeps r s) : Keeps r (Machine.boundary b B r' s) := by
  unfold Machine.boundary
  refine .foldS ?_ fun _ _ h => ?_
  · refine .applyCmds (.batchMod ?_)
    split
    · refine .foldS ?_ fun _ _ h => ?_
      · exact h.batchMod.dropRun
      · exact h.processed
    · exact h
  · exact h.boundaryOf

theorem answerHeld {j} (h : Keeps r s) : Keeps r (Machine.answerHeld j s) := by
  unfold Machine.answerHeld
  refine .foldS ?_ fun _ _ h => ?_
  · exact h.opMod
  · exact h.opCmdFrom

theorem ackDone {w status} (h : Keeps r s) : Keeps r (Machine.ackDone w status s) := by
  unfold Machine.ackDone
  split
  · exact h.cinch
  · exact h
  · exact h
  · refine .ite ?_ ?_
    · exact h
    · refine .ite ?_ ?_
      · exact .ite h.endOp.answerHeld h
      · exact .ite h.failLoad.answerHeld (.ite h.finishLoad.answerHeld h)
  · exact .ite h.failLoad.answerHeld h
  · exact .ite h.mirrorDone h
  · exact h.complete

theorem loseAcks (h : Keeps r s) : Keeps r (Machine.loseAcks s) := by
  unfold Machine.loseAcks
  refine .foldS ?_ fun _ _ h => ?_
  · exact h.upd
  · exact h.ackDone.createDone

theorem execJournalAck {tag status} (h : Keeps r s) : ∃ t, Machine.execJournalAck tag status s = .next t ∧ Keeps r t := by
  refine ⟨_, rfl, ?_⟩
  refine .ite ?_ ?_
  · exact h
  · dsimp only
    split
    · exact h.ringDoorbell
    · exact h.ringDoorbell.upd.ackDone.createDone

theorem discardJournal (h : Keeps r s) : Keeps r (Machine.discardJournal s) := by
  unfold Machine.discardJournal
  refine .foldS ?_ fun _ _ h => ?_
  · refine .putHeader (.jWrite (.updSec (.foldS ?_ fun _ _ h => ?_)))
    · refine .foldS ?_ fun _ _ h => ?_
      · exact h
      · exact h.abortItems.dropRun
    · exact h.takeRoles.unbindCtx
  · exact h.keepIndex

theorem dropJournal (h : Keeps r s) : Keeps r (Machine.dropJournal s) :=
  .ite h.discardJournal.upd h.discardJournal

theorem execPairWaitExpiry (h : Keeps r s) : ∃ t, Machine.execPairWaitExpiry s = .next t ∧ Keeps r t :=
  ⟨_, rfl, .ite (.ite h.enterPair.dropJournal h.enterPair) h⟩

theorem pairDiscard (h : Keeps r s) : Keeps r (Machine.pairDiscard s) :=
  .ite (.ite h.dropJournal.sendBeat h.dropJournal.startTraining) h.countIgnored

theorem execPairDiscard (h : Keeps r s) : ∃ t, Machine.execPairDiscard s = .next t ∧ Keeps r t :=
  ⟨_, rfl, .ite h.pairDiscard h⟩

theorem pumpEngines (h : Keeps r s) : Keeps r (Machine.pumpEngines s) := by
  unfold Machine.pumpEngines
  refine .foldS ?_ fun _ _ h => ?_
  · exact h
  · exact h.startChunk

theorem bmeStarts (h : Keeps r s) : Keeps r (Machine.bmeStarts s) := by
  unfold Machine.bmeStarts
  refine .pumpEngines (.pumpReads (.sendAllPending (.foldS ?_ fun _ _ h => ?_)))
  · exact h
  · exact h.unsuspend

theorem execBmeSet (h : Keeps r s) : ∃ t, Machine.execBmeSet s = .next t ∧ Keeps r t :=
  ⟨_, rfl, .ite h (.ite h.upd.trace h.upd.trace.bmeStarts)⟩

theorem execHdmCommit {n} (h : Keeps r s) : ∃ t, Machine.execHdmCommit n s = .next t ∧ Keeps r t := by
  refine ⟨_, rfl, ?_⟩
  refine .ite ?_ ?_
  · exact h
  · refine .ite ?_ ?_
    · exact .ite h.countIgnored h
    · refine .ite ?_ ?_
      · exact h.hdmSet.count
      · split
        · exact h.lockRefused.hdmSet.count
        · rename_i he
          exact (h.tryLock he).hdmSet

theorem bindRequest {r'} (h : Keeps r s) : Keeps r (Machine.bindRequest r' s) :=
  .ite h.dispatchBit.serveBind h.upd.ringDoorbell

theorem bindWrite {value unbind} (h : Keeps r s) : Keeps r (Machine.bindWrite value unbind s) := by
  unfold Machine.bindWrite
  refine .ite ?_ ?_
  · exact h.refuseAccess
  · exact .ite h.countIgnored (.ite h.bindFields.bindResult h.bindFields.bindRequest)

theorem execCtxBind {value} (h : Keeps r s) : ∃ t, Machine.execCtxBind value s = .next t ∧ Keeps r t :=
  ⟨_, rfl, h.bindWrite⟩

theorem execCtxUnbind {value} (h : Keeps r s) : ∃ t, Machine.execCtxUnbind value s = .next t ∧ Keeps r t :=
  ⟨_, rfl, h.bindWrite⟩

theorem resolvePage {e t'} (h : Keeps r s) : Keeps r (Machine.resolvePage e t' s) := by
  unfold Machine.resolvePage
  split
  · exact h
  · exact h.xferSet.startChunk

theorem homeRead {l} (h : Keeps r s) : Keeps r (Machine.homeRead l s).2 :=
  h.drainEvicts.memRead

theorem execTransferDescriptor {engine desc} (h : Keeps r s) :
    ∃ t, Machine.execTransferDescriptor engine desc s = .next t ∧ Keeps r t :=
  ⟨_, rfl, .ite h (.ite h.emit (Keeps.ite h.xferSet.upd h.xferSet).startChunk)⟩

theorem losePierKv {p} (h : Keeps r s) : Keeps r (Machine.losePierKv p s) := by
  unfold Machine.losePierKv
  refine .foldS ?_ fun _ _ h => ?_
  · exact h
  · exact .ite h.dropPrefill.restart h

theorem reloadCodebook {p} (h : Keeps r s) : Keeps r (Machine.reloadCodebook p s) := by
  unfold Machine.reloadCodebook
  dsimp only
  split
  · exact h
  · split
    · exact h.loadCodebook
    · exact h

theorem startDiscard (h : Keeps r s) : Keeps r (Machine.startDiscard s) :=
  h.discardJournal.upd

theorem pairCtlWrite {w} (h : Keeps r s) : Keeps r (Machine.pairCtlWrite w s) :=
  .ite (Keeps.ite h.upd.pairRelease h.upd).pairDiscard (.ite h.upd.pairRelease h.upd)

theorem ctxBindWrite {w} (h : Keeps r s) : Keeps r (Machine.ctxBindWrite w s) :=
  .ite h.bindWrite (.ite h.countIgnored h.bindFields)

theorem bar0Host {q w} (h : Keeps r s) : Keeps r (Machine.bar0Host q w s) :=
  .ite h.ctxBindWrite (.ite h.upd (.ite (.ite h.countIgnored h.intxClear) h))

theorem haltRun {id stitch code pier} (h : Keeps r s) : Keeps r (Machine.haltRun id stitch code pier s) := by
  have h1 : Keeps r (Machine.abortItems id
      { s with piers := { s.piers with excs := s.piers.excs ++ [(id, stitch, code, pier)] } }) := h.upd.abortItems
  unfold Machine.haltRun
  split
  · exact h
  · rename_i run _
    dsimp only
    generalize Machine.abortItems _ _ = s1 at h1 ⊢
    have h2 : Keeps r (Machine.dropRun id (match envOf s1 run with
        | some e => Machine.scribbleRun e s1
        | none => s1)) := by
      refine .dropRun ?_
      split
      · exact h1.scribbleRun
      · exact h1
    generalize Machine.dropRun _ _ = s2 at h2 ⊢
    split
    · exact h2.upd.foldS fun _ _ ht => ht.restartFrom
    · exact h2.restartFrom
    · exact .ite h2.applyCmds h2.restartFrom.applyCmds

theorem execSkiveFrameDecode {pier slot stitch header scales payload} (h : Keeps r s) :
    ∃ t, Machine.execSkiveFrameDecode pier slot stitch header scales payload s = .next t ∧ Keeps r t := by
  refine ⟨_, rfl, ?_⟩
  refine .ite ?_ ?_
  · exact h
  · split
    · exact h.pierSet
    · split
      · split
        · split
          · dsimp only
            split
            · exact h.pierSet.raise.haltRun
            · exact h.pierSet.raise
          · dsimp only
            split
            · exact h.pierSet.raise.haltRun
            · exact h.pierSet.raise
        · split
          · dsimp only
            split
            · exact h.pierSet.raise.haltRun
            · exact h.pierSet.raise
          · dsimp only
            split
            · exact h.pierSet.raise.haltRun
            · exact h.pierSet.raise
      · split
        · dsimp only
          split
          · exact h.pierSet.raise.haltRun
          · exact h.pierSet.raise
        · dsimp only
          split
          · exact h.pierSet.raise.haltRun
          · exact h.pierSet.raise

theorem withCodebooks {e ds k} (h : Keeps r s) (hk : ∀ {t}, Keeps r t → Keeps r (k t).state) :
    Keeps r (Machine.withCodebooks e ds s k).state := by
  have fold : ∀ (jobs : List (TDesc × Nat)) (ev : Ev), Keeps r ev.state → Keeps r (jobs.foldl (fun (ev : Ev) (d, q) =>
      match ev with
      | .done l c s =>
        let p := e.actual q
        if holdsCodebook e d q s then .done l c s
        else if (tget (fun _ => {}) s.piers.piers p : PierSt).held.any (fun w => w.fmt = .lc12) then .wait s
        else
          let (bad, s1) := Machine.accessLines e q (linesOf (e.localOf 0 q d.codebook) 16384) s
          if bad then .fault 2 p s1 else .done l c (Machine.loadCodebook e d q s1)
      | ev => ev) ev).state := by
    intro jobs
    induction jobs with
    | nil => exact fun _ h => h
    | cons j jobs ih =>
      intro ev hev
      refine ih _ ?_
      dsimp only
      split
      · split
        · exact hev
        · split
          · exact hev
          · split
            · exact hev.accessLines
            · exact hev.accessLines.loadCodebook
      · exact hev
  unfold Machine.withCodebooks
  dsimp only
  have hf := fold ((ds.filter (·.dtype = 8)).flatMap (fun d => (e.ordered d.piers).map (fun q => (d, q)))) (.done 0 0 s) h
  revert hf
  generalize List.foldl _ _ _ = ev
  intro hf
  split
  · exact hk hf
  · exact hf

theorem gate {e ds k} (h : Keeps r s) (hk : ∀ {t}, Keeps r t → Keeps r (k t).state) :
    Keeps r (Machine.gate e ds s k).state := by
  refine h.withCodebooks fun {t} ht => ?_
  have ho := ht.readOperands (e := e) (ds := ds)
  revert ho
  generalize Machine.readOperands e ds t = o
  obtain ⟨_ | q, s1⟩ := o
  · intro ho
    dsimp only
    split
    · exact ho
    · exact hk ho
  · exact id

theorem evalMatmul {e st} (h : Keeps r s) : Keeps r (Machine.evalMatmul e st s).state := by
  unfold Machine.evalMatmul
  split
  · refine h.gate fun {u} hu => ?_
    dsimp only
    split
    · exact hu
    · exact hu.gate fun hv => hv.foldS fun _ _ hw => hw.matmulRole
  · exact h

theorem Ev_andThen {ev f} (h : Keeps r ev.state) (hf : ∀ {t}, Keeps r t → Keeps r (f t).state) :
    Keeps r (Machine.Ev.andThen ev f).state := by
  unfold Machine.Ev.andThen
  split
  · split
    · rename_i he
      have hd := hf (t := _) h
      rw [Machine.Ev.state, he] at hd
      exact hd
    · exact hf h
  · exact h

theorem attendUnit {e st q kv len dst stats role unit} (h : Keeps r s) :
    Keeps r (Machine.attendUnit e st q kv len dst stats role unit s).state := by
  unfold Machine.attendUnit
  dsimp only [Machine.drawFree]
  split
  · exact h.accessLines.accessLines
  · split
    · exact h.accessLines.accessLines
    · split
      · exact h.accessLines.accessLines.accessLines
      · refine h.accessLines.accessLines.accessLines.foldS fun hd u hu => .oodAt ?_
        split
        · exact (hu.upd.foldS fun _ _ hv => hv.writeOwn).writeOwn.writeOwn
        · exact hu.upd.foldS fun _ _ hv => hv.writeOwn

theorem evalAttend {e st} (h : Keeps r s) : Keeps r (Machine.evalAttend e st s).state := by
  unfold Machine.evalAttend
  split
  · exact h.gate fun ht => foldl_of Ev.state ht fun _ _ hu =>
      foldl_of Ev.state hu fun _ _ hv => hv.Ev_andThen fun hw => hw.attendUnit
  · exact h

theorem evalNorm {e st} (h : Keeps r s) : Keeps r (Machine.evalNorm e st s).state := by
  unfold Machine.evalNorm
  split
  · refine .gate ?_ ?_
    · exact h
    · intro _ h
      refine .foldS ?_ fun _ _ h => ?_
      · exact h
      · refine .foldS ?_ fun _ _ h => ?_
        · exact h.writeAll
        · exact h.oodAt
  · exact h

theorem evalElem {e st} (h : Keeps r s) : Keeps r (Machine.evalElem e st s).state := by
  unfold Machine.evalElem
  split
  · refine .gate ?_ ?_
    · exact h
    · intro _ h
      refine .foldS ?_ fun _ _ h => ?_
      · refine .foldS ?_ fun _ _ h => ?_
        · exact h
        · refine .ite ?_ ?_
          · refine .foldS ?_ fun _ _ h => ?_
            · exact h
            · exact h.writeDense
          · exact h.writeAll
      · refine .foldS ?_ fun _ _ h => ?_
        · exact h
        · exact h.oodAt
  · exact h

theorem evalReduce {e st arrival} (h : Keeps r s) : Keeps r (Machine.evalReduce e st arrival s).state := by
  unfold Machine.evalReduce
  split
  · refine .gate ?_ ?_
    · exact h
    · intro _ h
      refine .foldS ?_ fun _ _ h => ?_
      · exact h
      · split
        · refine .foldS ?_ fun _ _ h => ?_
          · exact h.writeAll
          · exact h.oodAt
        · exact h.writeAll
  · exact h

theorem evalRoute {e st} (h : Keeps r s) : Keeps r (Machine.evalRoute e st s).state := by
  unfold Machine.evalRoute
  split
  · refine .gate ?_ ?_
    · exact h
    · intro _ h
      refine .oodAt (.foldS ?_ fun _ _ h => ?_)
      · refine .foldS ?_ fun _ _ h => ?_
        · exact h.upd
        · refine .foldS ?_ fun _ _ h => ?_
          · exact h
          · exact h.writeDense
      · exact h.writeDense
  · exact h

theorem evalSample {e st} (h : Keeps r s) : Keeps r (Machine.evalSample e st s).state := by
  unfold Machine.evalSample
  split
  · refine .gate ?_ ?_
    · exact h
    · intro _ h
      refine .foldS ?_ fun _ _ h => ?_
      · exact h
      · exact h.writeDense.oodAt
  · exact h

theorem evalGather {e st} (h : Keeps r s) : Keeps r (Machine.evalGather e st s).state := by
  unfold Machine.evalGather
  split
  · split
    · exact h.gate fun ht => ht.collect
    · split
      · exact h
      · refine h.gate fun ht => ht.foldS fun _ _ hu => ?_
        split
        · exact hu.zeroColumn
        · exact hu.copyColumn
  · exact h

theorem appendUnit {e k v pos kv role unit} (h : Keeps r s) :
    Keeps r (Machine.appendUnit e k v pos kv role unit s).state := by
  unfold Machine.appendUnit
  dsimp only
  split
  · split
    · exact h.accessLines.accessLines
    · exact h.accessLines.accessLines
  · split
    · exact h.accessLines.accessLines
    · split
      · exact h.accessLines.accessLines
      · exact h.accessLines.accessLines.engineWrite.countN.engineWrite.countN

theorem evalScatter {e st} (h : Keeps r s) : Keeps r (Machine.evalScatter e st s).state := by
  unfold Machine.evalScatter
  split
  · split
    · exact h.gate fun ht => ht.foldS fun _ _ hu => hu.copyColumn
    · split
      · exact h
      · split
        · exact h.gate fun ht => ht.foldS fun _ _ hu => hu.copyColumn
        · split
          · exact h
          · exact h.gate fun ht => foldl_of Ev.state ht fun _ _ hu => hu.Ev_andThen fun hv => hv.appendUnit
  · exact h

theorem runOffload {id i} (h : Keeps r s) : Keeps r (Machine.runOffload id i s) := by
  unfold Machine.runOffload
  split
  · exact h
  · exact .ite h.finish (.ite h.haltRun h.portSet.runMod)

theorem execOffload {run idx} (h : Keeps r s) : ∃ t, Machine.execOffload run idx s = .next t ∧ Keeps r t :=
  ⟨_, rfl, h.runOffload⟩

theorem evalBarrier {e st joined} (h : Keeps r s) : Keeps r (Machine.evalBarrier e st joined s).state := by
  unfold Machine.evalBarrier
  split
  · exact h
  · split
    · exact h
    · split
      · exact h
      · refine h.gate fun ht => ?_
        split
        · exact ht
        · exact ht

theorem runSignal {id i joined} (h : Keeps r s) : Keeps r (Machine.runSignal id i joined s) := by
  unfold Machine.runSignal
  split
  · exact h
  · refine .ite ?_ ?_
    · exact h.haltRun
    · refine .ite ?_ ?_
      · exact h
      · split
        · exact h
        · split
          · exact .ite h.sendWindowWrite h.haltRun
          · refine .finish (.foldS ?_ fun _ _ h => ?_)
            · exact h
            · exact h.writeBytes

theorem execSignal {run stitch} (h : Keeps r s) : ∃ t, Machine.execSignal run stitch s = .next t ∧ Keeps r t :=
  ⟨_, rfl, h.runSignal⟩

theorem execHalt {run stitch code pier} (h : Keeps r s) : ∃ t, Machine.execHalt run stitch code pier s = .next t ∧ Keeps r t :=
  ⟨_, rfl, .ite h.haltRun h⟩

theorem execStitchTimeout {run idx pier} (h : Keeps r s) : ∃ t, Machine.execStitchTimeout run idx pier s = .next t ∧ Keeps r t := by
  refine ⟨_, rfl, ?_⟩
  split
  · exact h
  · split
    · exact h
    · exact .ite h.haltRun h

theorem execOffloadTimeout {port tag} (h : Keeps r s) : ∃ t, Machine.execOffloadTimeout port tag s = .next t ∧ Keeps r t := by
  refine ⟨_, rfl, ?_⟩
  split
  · exact h
  · exact .ite h.haltRun h

theorem haltAt {run stitch code} (h : Keeps r s) : Keeps r (Machine.haltAt run stitch code s) := by
  unfold Machine.haltAt
  exact h.haltRun

theorem windowLost {u} (h : Keeps r s) : Keeps r (Machine.windowLost u s) := by
  unfold Machine.windowLost
  split
  · exact h.failXfer
  · exact h.haltAt
  · exact h.haltAt
  · exact h.haltAt

theorem loseWindows (h : Keeps r s) : Keeps r (Machine.loseWindows s) := by
  unfold Machine.loseWindows
  refine .foldS ?_ fun _ _ h => ?_
  · exact h.upd
  · exact h.windowLost

theorem leavePair (h : Keeps r s) : Keeps r (Machine.leavePair s) := by
  unfold Machine.leavePair
  refine .loseWindows (.loseAcks (.upd (.foldS ?_ fun _ _ h => ?_)))
  · exact h.releaseOff.enterPair
  · exact h.opMod

theorem partnerLost {cause} (h : Keeps r s) : Keeps r (Machine.partnerLost cause s) := by
  unfold Machine.partnerLost
  refine .ite ?_ ?_
  · exact h
  · refine .ite ?_ ?_
    · exact .ite h.trace.leavePair.upd.raise.raise h.trace.leavePair.upd.raise
    · refine .ite ?_ ?_
      · exact (Keeps.ite h.trace.leavePair.upd.raise.raise h.trace.leavePair.upd.raise).upd
      · exact (Keeps.ite h.trace.leavePair.upd.raise.raise h.trace.leavePair.upd.raise).partnerOff.upd

theorem linkDown (h : Keeps r s) : Keeps r (Machine.linkDown s) :=
  h.setUp.traceTrain.adapterIdle.partnerLost.startTraining

theorem retrainFails (h : Keeps r s) : Keeps r (Machine.retrainFails s) :=
  .ite h.upd.raiseLevel.linkDown h.upd.raiseLevel.upd.abortTraining

theorem execFastRetrainTimeout (h : Keeps r s) : ∃ t, Machine.execFastRetrainTimeout s = .next t ∧ Keeps r t := by
  refine ⟨_, rfl, ?_⟩
  split
  · exact .ite h.retrainFails h
  · exact h

theorem execWindowReadData {tag status lines} (h : Keeps r s) :
    ∃ t, Machine.execWindowReadData tag status lines s = .next t ∧ Keeps r t := by
  refine ⟨_, rfl, ?_⟩
  refine .ite ?_ ?_
  · exact h
  · split
    · exact h
    · split
      · dsimp only
        split
        · exact h.upd.xferSet
        · exact h.upd
      · exact .ite h.upd.haltAt h.upd.runMod
      · exact h.upd
      · exact h.upd

theorem execHeartbeatInterval (h : Keeps r s) : ∃ t, Machine.execHeartbeatInterval s = .next t ∧ Keeps r t := by
  refine ⟨_, rfl, ?_⟩
  refine .ite ?_ ?_
  · exact h
  · refine .ite ?_ ?_
    · exact h.upd.ringDoorbell
    · refine .ite ?_ ?_
      · exact h.upd.ringDoorbell.upd.sendBeat.discardJournal.enterPair
      · refine .ite ?_ ?_
        · exact h.upd.ringDoorbell.sendBeat
        · exact .ite h.upd.ringDoorbell.sendBeat.upd.partnerLost h.upd.ringDoorbell.sendBeat.upd

theorem execPresenceLossTimeout (h : Keeps r s) : ∃ t, Machine.execPresenceLossTimeout s = .next t ∧ Keeps r t :=
  ⟨_, rfl, .ite h.setUp.adapterIdle.partnerLost h⟩

theorem pbCtlSet {v} (h : Keeps r s) : Keeps r (Machine.pbCtlSet v s) :=
  .ite h.upd.partnerOff.partnerLost (.ite h.upd.startTraining h.upd)

theorem execPbCtlWrite {value} (h : Keeps r s) : ∃ t, Machine.execPbCtlWrite value s = .next t ∧ Keeps r t :=
  ⟨_, rfl, .ite h.pbCtlSet h⟩

theorem releaseCmp {n tag status} (h : Keeps r s) : Keeps r (Machine.releaseCmp n tag status s) := by
  unfold Machine.releaseCmp
  split
  · exact h
  · exact .ite h.dropItem.count (.ite h.dropItem.finish h.dropItem.haltRun)

theorem releaseCmps (h : Keeps r s) : Keeps r (Machine.releaseCmps s) := by
  unfold Machine.releaseCmps
  refine .foldS ?_ fun _ _ h => ?_
  · exact h
  · refine .foldS ?_ fun _ _ h => ?_
    · exact h
    · exact .ite h.releaseCmp h

theorem execDcFence {cls} (h : Keeps r s) : ∃ t, Machine.execDcFence cls s = .next t ∧ Keeps r t :=
  ⟨_, rfl, .ite h.dcFence.releaseCmps h⟩

theorem execMergeTimeout {slice space line} (h : Keeps r s) :
    ∃ t, Machine.execMergeTimeout slice space line s = .next t ∧ Keeps r t := by
  refine ⟨_, rfl, ?_⟩
  split
  · exact .ite h.drainMerge.endFences.releaseCmps h
  · exact h

theorem itemOverdue {n tag} (h : Keeps r s) : Keeps r (Machine.itemOverdue n tag s) := by
  unfold Machine.itemOverdue
  split
  · exact .ite h.haltRun h
  · exact h

theorem execOffloadCmp {port tag status} (h : Keeps r s) : ∃ t, Machine.execOffloadCmp port tag status s = .next t ∧ Keeps r t := by
  refine ⟨_, rfl, ?_⟩
  refine .ite ?_ ?_
  · exact h
  · dsimp only
    split
    · exact h.itemOverdue.count
    · refine .ite ?_ ?_
      · exact h.itemOverdue.releaseCmp
      · exact .ite h.itemOverdue.count h.itemOverdue.portSet.dcFence.releaseCmps

theorem losePierRuns {p} (h : Keeps r s) : Keeps r (Machine.losePierRuns p s) := by
  unfold Machine.losePierRuns
  refine .foldS ?_ fun _ _ h => ?_
  · exact h
  · split
    · exact h
    · exact .ite h.haltRun h

theorem execMemoryRead {dpa req errs} (h : Keeps r s) : ∃ t, Machine.execMemoryRead dpa req errs s = .next t ∧ Keeps r t := by
  refine ⟨_, rfl, ?_⟩
  refine .ite ?_ ?_
  · exact h
  · split
    · split
      · refine .ite ?_ ?_
        · rename_i he
          exact h.memRead.of_snd he
        · dsimp only
          split
          · rename_i he _ _ _ _
            exact (h.memRead.of_snd he).haltRun
          · rename_i he _ _
            exact h.memRead.of_snd he
      · rename_i he _ _
        exact h.memRead.of_snd he

theorem withCmd {n row f} (h : Keeps r s) (hf : ∀ {y t}, Keeps r t → Keeps r (f y t)) : Keeps r (Machine.withCmd n row f s) := by
  unfold Machine.withCmd
  split
  · rename_i he
    exact hf (h.takeCmd he)
  · exact h

theorem execSubmit {qp} (h : Keeps r s) : ∃ t, Machine.execSubmit qp s = .next t ∧ Keeps r t := by
  refine ⟨_, rfl, ?_⟩
  refine .withCmd ?_ ?_
  · exact h
  · intro _ _ h
    exact h.submitCmd

theorem execSuspend {qp} (h : Keeps r s) : ∃ t, Machine.execSuspend qp s = .next t ∧ Keeps r t := by
  refine ⟨_, rfl, ?_⟩
  refine .withCmd ?_ ?_
  · exact h
  · intro _ _ h
    exact h.handleCmd

theorem execResume {qp} (h : Keeps r s) : ∃ t, Machine.execResume qp s = .next t ∧ Keeps r t := by
  refine ⟨_, rfl, ?_⟩
  refine .withCmd ?_ ?_
  · exact h
  · intro _ _ h
    exact h.handleCmd

theorem execCancel {qp} (h : Keeps r s) : ∃ t, Machine.execCancel qp s = .next t ∧ Keeps r t := by
  refine ⟨_, rfl, ?_⟩
  refine .withCmd ?_ ?_
  · exact h
  · intro _ _ h
    exact h.handleCmd

theorem execQuery {qp} (h : Keeps r s) : ∃ t, Machine.execQuery qp s = .next t ∧ Keeps r t := by
  refine ⟨_, rfl, ?_⟩
  refine .withCmd ?_ ?_
  · exact h
  · intro _ _ h
    exact h.handleCmd

theorem execSetPriority {qp} (h : Keeps r s) : ∃ t, Machine.execSetPriority qp s = .next t ∧ Keeps r t := by
  refine ⟨_, rfl, ?_⟩
  refine .withCmd ?_ ?_
  · exact h
  · intro _ _ h
    exact h.handleCmd

theorem acceptOp {n e x then_} (h : Keeps r s) (hf : ∀ {y t}, Keeps r t → Keeps r (then_ y t)) :
    Keeps r (Machine.acceptOp n e x then_ s) := by
  unfold Machine.acceptOp
  split
  · exact h.answer
  · rename_i he
    exact hf (h.startOp he).answerAfter

theorem loadModelCmd {n e} (h : Keeps r s) : Keeps r (Machine.loadModelCmd n e s) := by
  unfold Machine.loadModelCmd
  split
  · exact h.answer
  · refine .ite ?_ ?_
    · exact h.answer
    · split
      · exact h.lockRefused.answer
      · refine .acceptOp ?_ ?_
        · rename_i he
          exact h.tryLock he
        · intro _ _ h
          exact h

theorem execLoadModel {qp} (h : Keeps r s) : ∃ t, Machine.execLoadModel qp s = .next t ∧ Keeps r t := by
  refine ⟨_, rfl, ?_⟩
  refine .withCmd ?_ ?_
  · exact h
  · intro _ _ h
    exact h.loadModelCmd

theorem execUnload {qp} (h : Keeps r s) : ∃ t, Machine.execUnload qp s = .next t ∧ Keeps r t := by
  refine ⟨_, rfl, ?_⟩
  refine .withCmd ?_ ?_
  · exact h
  · intro _ _ h
    exact h.unloadCmd

theorem burnishCmd {n e} (h : Keeps r s) : Keeps r (Machine.burnishCmd n e s) := by
  unfold Machine.burnishCmd
  refine .ite ?_ ?_
  · exact h.answer
  · refine .ite ?_ ?_
    · exact h.answer
    · refine .ite ?_ ?_
      · exact h.answer
      · refine .acceptOp ?_ ?_
        · exact h
        · intro _ _ h
          exact h.burnishStart

theorem execBurnish {qp} (h : Keeps r s) : ∃ t, Machine.execBurnish qp s = .next t ∧ Keeps r t := by
  refine ⟨_, rfl, ?_⟩
  refine .withCmd ?_ ?_
  · exact h
  · intro _ _ h
    exact h.burnishCmd

theorem rotateCmd {n e} (h : Keeps r s) : Keeps r (Machine.rotateCmd n e s) := by
  unfold Machine.rotateCmd
  refine .ite ?_ ?_
  · exact h.answer
  · refine .ite ?_ ?_
    · exact h.answer
    · refine .acceptOp ?_ ?_
      · exact h
      · intro _ _ h
        exact h.rotateStart

theorem execRotateKey {qp} (h : Keeps r s) : ∃ t, Machine.execRotateKey qp s = .next t ∧ Keeps r t := by
  refine ⟨_, rfl, ?_⟩
  refine .withCmd ?_ ?_
  · exact h
  · intro _ _ h
    exact h.rotateCmd

theorem migrateCmd {n e} (h : Keeps r s) : Keeps r (Machine.migrateCmd n e s) := by
  unfold Machine.migrateCmd
  refine .ite ?_ ?_
  · exact h.answer
  · refine .ite ?_ ?_
    · exact h.answer
    · refine .acceptOp ?_ ?_
      · exact h
      · intro _ _ h
        exact h

theorem execMigrate {qp} (h : Keeps r s) : ∃ t, Machine.execMigrate qp s = .next t ∧ Keeps r t := by
  refine ⟨_, rfl, ?_⟩
  refine .withCmd ?_ ?_
  · exact h
  · intro _ _ h
    exact h.migrateCmd

/-- Places taken in turn from the pool keep what is kept. -/
theorem reserve {α β : Type} {l : List α} {f : α → β × State → Option (β × State)} {acc : Option (β × State)} {v : β}
    (hf : ∀ {x b t c u}, Keeps r t → f x (b, t) = some (c, u) → Keeps r u) (h : ∀ b t, acc = some (b, t) → Keeps r t)
    (he : l.foldl (fun acc x => acc.bind (f x)) acc = some (v, t)) : Keeps r t := by
  induction l generalizing acc with
  | nil => exact h v t he
  | cons x l ih =>
    refine ih (fun b u hu => ?_) he
    obtain ⟨⟨c, w⟩, hc, hw⟩ := Option.bind_eq_some_iff.1 hu
    exact hf (h c w hc) hw

theorem reserveImage {ctx m v} (h : Keeps r s) (he : Machine.reserveImage ctx m s = some (v, t)) : Keeps r t := by
  unfold Machine.reserveImage at he
  obtain ⟨⟨img, s1⟩, h1, he⟩ := Option.bind_eq_some_iff.1 he
  obtain ⟨⟨tbl, s2⟩, h2, he⟩ := Option.map_eq_some_iff.1 he
  cases he
  have place : ∀ {c q n b : Nat} {t u : State} {x y : Tbl Nat}, Keeps r t →
      (poolPlace t.freeCtr q n { t with freeCtr := t.freeCtr + 1 }).map (fun a =>
        (tset (fun _ => 0) x b a, ({ t with freeCtr := t.freeCtr + 1, piers := { t.piers with pool := t.piers.pool ++ [(c, q, a, n)] } } : State))) =
        some (y, u) → Keeps r u := by
    intro c q n b t u x y ht hu
    obtain ⟨_, _, hu⟩ := Option.map_eq_some_iff.1 hu
    cases hu
    exact ht.upd
  have hs1 : Keeps r s1 := reserve (fun ht hu => place ht hu) (fun b t hb => by cases hb; exact h) h1
  exact reserve (fun ht hu => place ht hu) (fun b t hb => by cases hb; exact hs1) h2

theorem giveRole {ctx idx p role q v} (h : Keeps r s) (he : Machine.giveRole ctx idx p role q s = .ok (v, t)) : Keeps r t := by
  unfold Machine.giveRole at he
  dsimp only at he
  split at he
  · cases he
  · split at he
    · cases he
    · cases he
      exact h.pierSet

theorem foldl_option {α : Type} {l : List α} {f : α → State → Option State} {acc : Option State}
    (hf : ∀ {x t u}, Keeps r t → f x t = some u → Keeps r u) (h : ∀ t, acc = some t → Keeps r t)
    (he : l.foldl (fun acc x => acc.bind (f x)) acc = some t) : Keeps r t := by
  induction l generalizing acc with
  | nil => exact h t he
  | cons x l ih =>
    refine ih (fun u hu => ?_) he
    obtain ⟨w, hw, hu⟩ := Option.bind_eq_some_iff.1 hu
    exact hf (h w hw) hu

theorem deployAt {ctx m role q base} (h : Keeps r s) (he : Machine.deployAt ctx m role q base s = some t) : Keeps r t := by
  refine foldl_option (fun {x u w} hu hw => ?_) (fun u hu => ?_) he
  · obtain ⟨_, _, rfl⟩ := Option.map_eq_some_iff.1 hw
    exact hu.engineWrite
  · cases hu
    exact h

theorem restorePortion {ctx m role q v} (h : Keeps r s) (he : Machine.restorePortion ctx m role q s = some (v, t)) : Keeps r t := by
  unfold Machine.restorePortion at he
  dsimp only [Machine.drawFree] at he
  split at he
  · cases he
    exact h
  · obtain ⟨_, _, he⟩ := Option.bind_eq_some_iff.1 he
    obtain ⟨_, hd, he⟩ := Option.map_eq_some_iff.1 he
    cases he
    exact h.upd.deployAt hd

theorem tryPiers {ctx idx p role m qs v w} (h : Keeps r s) (he : Machine.tryPiers ctx idx p role m s qs = .ok (v, w, t)) :
    Keeps r t := by
  induction qs with
  | nil => cases he
  | cons q qs ih =>
    unfold Machine.tryPiers at he
    split at he
    · split at he
      · cases he
      · exact ih he
    · rename_i hg
      split at he
      · exact ih he
      · rename_i hp
        cases he
        exact (h.giveRole hg).restorePortion hp

theorem placeOne {ctx idx p role m v w} (h : Keeps r s) (he : Machine.placeOne ctx idx p role m s = .ok (v, w, t)) : Keeps r t :=
  h.tryPiers he

theorem placeAll {ctx idx p m rs v w} (h : Keeps r s) (he : Machine.placeAll ctx idx p m s rs = .ok (v, w, t)) : Keeps r t := by
  induction rs generalizing p m s with
  | nil => cases he; exact h
  | cons q rs ih =>
    unfold Machine.placeAll at he
    split at he
    · cases he
    · rename_i ho
      exact ih (h.placeOne ho) he

theorem bindAll {ctx m ps v} (h : Keeps r s) (he : Machine.bindAll ctx m s ps = .ok (v, t)) : Keeps r t := by
  induction ps generalizing m s with
  | nil => cases he; exact h
  | cons p ps ih =>
    unfold Machine.bindAll at he
    dsimp only at he
    split at he
    · cases he
    · rename_i ho
      split at he
      · cases he
      · exact ih (h.placeAll ho).modelSet he

theorem bindImage {ctx m v} (h : Keeps r s) (he : Machine.bindImage ctx m s = .ok (v, t)) : Keeps r t := by
  unfold Machine.bindImage at he
  dsimp only at he
  split at he
  · cases he
  · split at he
    · cases he
    · split at he
      · cases he
      · split at he
        · cases he
        · split at he
          · cases he
          · rename_i hb
            cases he
            exact h.modelSet.bindAll hb

theorem deployAll {ctx m} (h : Keeps r s) (he : Machine.deployAll ctx m s = some t) : Keeps r t :=
  foldl_option (fun hu hw => hu.deployAt hw) (fun u hu => by cases hu; exact h) he

theorem spillVictim {e} (h : Keeps r s) (he : Machine.spillVictim e s = some t) : Keeps r t := by
  unfold Machine.spillVictim at he
  split at he
  · cases he
  · split at he
    · cases he
      exact h
    · obtain ⟨_, _, rfl⟩ := Option.map_eq_some_iff.1 he
      exact h.streamMod

theorem pageIn {i p lane len} (h : Keeps r s) : Keeps r (Machine.pageIn i p lane len s).state := by
  unfold Machine.pageIn
  dsimp only [Machine.drawFree]
  split
  · exact h.startReadback
  · refine foldl_of Paged.state h fun want st ht => ?_
    split
    · split
      · exact ht
      · split
        · exact ht.upd
        · split
          · exact ht.upd.copyLines.setPage
          · exact ht.upd.streamSet
    · exact ht

theorem refill {b ctx lane p} (h : Keeps r s) : Keeps r (Machine.refill b ctx lane p s) := by
  refine foldl_snd h fun i acc u hu => ?_
  dsimp only
  split
  · exact hu
  · have hp := hu.pageIn (i := i) (p := p) (lane := lane) (len := nextLen (streamGet u i))
    split
    all_goals rename_i w he; rw [he] at hp; have hw : Keeps r w := hp
    · dsimp only
      exact hw.streamMod.batchMod
    · exact hw
    · cases hv : Machine.spillVictim (some i) w with
      | none => exact hw
      | some v => exact hw.spillVictim hv

theorem refillAll {b} (h : Keeps r s) : Keeps r (Machine.refillAll b s) := by
  unfold Machine.refillAll
  split
  · exact h
  · split
    · exact h
    · refine .foldS ?_ fun _ _ h => ?_
      · exact h
      · exact h.refill

theorem putLists {fresh p ctx lanes d k role v w} (h : Keeps r s)
    (he : Machine.putLists fresh p ctx lanes d k role s = some (v, w, t)) : Keeps r t := by
  unfold Machine.putLists at he
  dsimp only at he
  split at he
  · cases he
  · cases he
    exact h.engineWrite

theorem launch {kind ctx idx p lanes v} (h : Keeps r s) (he : Machine.launch kind ctx idx p lanes s = some (v, t)) :
    Keeps r t := by
  unfold Machine.launch at he
  dsimp only [Machine.drawFree] at he
  obtain ⟨⟨run, u⟩, hu, he⟩ := Option.map_eq_some_iff.1 he
  cases he
  refine .noteStalled (Keeps.upd (s := u) ?_)
  have fold : ∀ (jobs : List (TDesc × Nat × Nat)) (acc : Option (Run × State)),
      (∀ x w, acc = some (x, w) → Keeps r w) → ∀ x w, jobs.foldl (fun (acc : Option (Run × State)) (d, k, role) =>
        match acc with
        | none => none
        | some (r, s) =>
          let (m, s) := Machine.drawFree s
          (Machine.putLists m p ctx (lanes.map (fun l => l.map (·.1))) d k role s).map (fun (a, len, s) =>
            let e := (ctx, tget (fun q => q) p.subst role, a, len)
            ({ r with kvBase := tset (fun _ => 0) r.kvBase (512 * d.idx + role) a, kvAlloc := r.kvAlloc ++ [e] },
             { s with piers := { s.piers with pool := s.piers.pool ++ [e] } }))) acc = some (x, w) → Keeps r w := by
    intro jobs
    induction jobs with
    | nil => exact fun acc ha x w hw => ha x w hw
    | cons j jobs ih =>
      intro acc ha
      refine ih _ fun x w hw => ?_
      obtain _ | ⟨y, z⟩ := acc
      · cases hw
      · obtain ⟨_, hp, hw⟩ := Option.map_eq_some_iff.1 hw
        cases hw
        exact ((ha y z rfl).drawFree.putLists hp).upd
  exact fold _ _ (fun x w hw => by cases hw; exact h.upd) _ _ hu

theorem makeRoom {b ctx} (h : Keeps r s) : Keeps r (Machine.makeRoom b ctx s) := by
  unfold Machine.makeRoom
  split
  · rename_i he
    exact h.spillVictim he
  · split
    · exact h
    · split
      · exact .ite h.leaveLane.streamMod h.leaveLane.streamMod.freeKv.count
      · exact h.streamMod

theorem pageLanes {b p fuel} (h : Keeps r s) : Keeps r (Machine.pageLanes b p fuel s).2 := by
  induction fuel generalizing s with
  | zero => exact h
  | succ fuel ih =>
    unfold Machine.pageLanes
    extract_lets lanes work out
    have hout : Keeps r out.2 := by
      refine foldl_snd h fun w acc u hu => ?_
      dsimp only
      split
      · exact hu
      · have hp := hu.pageIn (i := w.2) (p := p) (lane := w.1) (len := nextLen (streamGet u w.2))
        split
        all_goals rename_i v he; rw [he] at hp; have hv : Keeps r v := hp
        · exact hv
        · exact hv
        · exact hv.makeRoom
    split
    · exact hout
    · split
      · exact hout
      · exact ih hout

theorem homeRequest {r' l acc} (h : Keeps r s) (hf : ∀ {t}, Keeps r t → Keeps r (acc t)) :
    Keeps r (Machine.homeRequest r' l acc s) := by
  unfold Machine.homeRequest
  split
  · exact .ite (hf h.upd) h
  · exact .ite h.overCredit (.ite h.upd (hf h))

theorem dirRoom {l} (h : Keeps r s) (he : Machine.dirRoom l s = some t) : Keeps r t := by
  unfold Machine.dirRoom at he
  dsimp only at he
  split at he
  · cases he
    exact h.dirPut
  · split at he
    · cases he
    · split at he
      · cases he
        exact h.dirPut.upd
      · split at he
        · cases he
          exact h.dirPut.upd
        · cases he

theorem tryStart {t'} (h : Keeps r s) : Keeps r (Machine.tryStart t' s) := by
  unfold Machine.tryStart
  refine .ite ?_ ?_
  · exact h
  · refine .ite ?_ ?_
    · exact h
    · refine .ite ?_ ?_
      · exact h.startSnoops
      · split
        · exact h
        · refine .ite ?_ ?_
          · rename_i he
            exact h.dirRoom he
          · rename_i he
            exact (h.dirRoom he).startSnoops

theorem accept {r' ctx l req txn} (h : Keeps r s) : Keeps r (Machine.accept r' ctx l req txn s) :=
  h.upd.ksCount.tryStart

theorem atHome {h'} (h : Keeps r s) : Keeps r (Machine.atHome h' s) := by
  unfold Machine.atHome
  refine .ite ?_ ?_
  · exact .ite h h.upd
  · refine .homeRequest ?_ ?_
    · exact h
    · intro _ h
      exact h.accept

theorem cohRequest {r' ctx l req txn op} (h : Keeps r s) : Keeps r (Machine.cohRequest r' ctx l req txn op s) := by
  unfold Machine.cohRequest
  split
  · exact h.atHome
  · refine .ite ?_ ?_
    · exact h
    · refine .ite ?_ ?_
      · exact h.atHome
      · refine .ite ?_ ?_
        · exact h.raise
        · split
          · exact h.girthSend.count.raise
          · exact h.portSet.atHome

theorem flushAll {lines} (h : Keeps r s) : Keeps r (Machine.flushAll lines s) := by
  unfold Machine.flushAll
  refine .foldS ?_ fun _ _ h => ?_
  · exact h
  · exact .ite h.cohRequest h

theorem execRecordWrite {record} (h : Keeps r s) : ∃ t, Machine.execRecordWrite record s = .next t ∧ Keeps r t := by
  refine ⟨_, rfl, ?_⟩
  split
  · split
    · dsimp only
      split
      · exact h
      · exact h.suspendSoon
    · dsimp only
      split <;> exact h
  · dsimp only
    split
    · exact h
    · exact .ite h (.ite h.flushAll h.streamSet.count.ringWrite)

theorem readbackDone {i n tagOk} (h : Keeps r s) : Keeps r (Machine.readbackDone i n tagOk s) := by
  unfold Machine.readbackDone
  split
  · dsimp only
    split
    · exact h
    · exact .ite h h.count.restart
  · split
    · dsimp only
      split
      · exact h
      · refine .ite ?_ ?_
        · exact h
        · split
          · rename_i he _ _ _ _ _
            exact (h.drawFree.of_snd he).setPage
          · rename_i he _ _ _ _ _ _
            exact (h.drawFree.of_snd he).ctxSet.engineWrite.setPage.count

theorem execKvReadbackDone {record page tagOk} (h : Keeps r s) :
    ∃ t, Machine.execKvReadbackDone record page tagOk s = .next t ∧ Keeps r t :=
  ⟨_, rfl, .ite h.readbackDone h⟩

theorem inTrainStep {f} (h : Keeps r s) (hf : ∀ {t}, Keeps r t → Keeps r (f t)) : Keeps r (Machine.inTrainStep f s) :=
  .ite h.abortTraining (hf h)

theorem execTrainStepDone {reversed} (h : Keeps r s) : ∃ t, Machine.execTrainStepDone reversed s = .next t ∧ Keeps r t := by
  refine ⟨_, rfl, ?_⟩
  refine .ite ?_ ?_
  · exact h
  · refine .ite ?_ ?_
    · exact h.retrainFails
    · refine .ite ?_ ?_
      · exact h.upd.raiseLevel
      · refine .ite ?_ ?_
        · refine .inTrainStep ?_ ?_
          · exact h
          · intro _ h
            exact h.stepTo
        · refine .ite ?_ ?_
          · refine .inTrainStep ?_ ?_
            · exact h
            · intro _ h
              exact h.stepTo.newNumbers
          · refine .ite ?_ ?_
            · refine .inTrainStep ?_ ?_
              · exact h
              · intro _ h
                exact h.stepTo.upd.sendEcho
            · exact h

theorem execPairKxRecord {r'} (h : Keeps r s) : ∃ t, Machine.execPairKxRecord r' s = .next t ∧ Keeps r t := by
  refine ⟨_, rfl, ?_⟩
  refine .ite ?_ ?_
  · refine .inTrainStep ?_ ?_
    · exact h
    · intro _ h
      exact h.kxRecord
  · exact h

theorem windowLines {ctx dpa n} (h : Keeps r s) : Keeps r (Machine.windowLines ctx dpa n s).2.2 := by
  induction n generalizing dpa s with
  | zero => exact h
  | succ n ih => exact ih h.readLine

theorem execWindowRead {tag win ctx offset lines} (h : Keeps r s) :
    ∃ t, Machine.execWindowRead tag win ctx offset lines s = .next t ∧ Keeps r t := by
  refine ⟨_, rfl, ?_⟩
  refine .ite ?_ ?_
  · exact h
  · split
    · exact h.windowRefused.replyWindow
    · exact h.windowLines.replyWindow

theorem execTimeEchoReply {_tag _tSend roundTripPs} (h : Keeps r s) :
    ∃ t, Machine.execTimeEchoReply _tag _tSend roundTripPs s = .next t ∧ Keeps r t := by
  refine ⟨_, rfl, ?_⟩
  refine .ite ?_ ?_
  · exact h
  · refine .inTrainStep ?_ ?_
    · exact h
    · intro _ h
      exact .ite h.upd.ringDoorbell.sendEcho h.upd.ringDoorbell.upd.stepTo.startExchange

theorem jTouch {off n} (h : Keeps r s) : Keeps r (Machine.jTouch off n s) := by
  have key : ∀ (j : Option Region) (f : Region → State), (∀ x, Keeps r (f x)) →
      Keeps r (match j with
        | some x => f x
        | none => s) := by
    intro j f hf
    cases j with
    | none => exact h
    | some x => exact hf x
  exact key (jRegion s) (fun x => (Machine.readRun .service (x.baseB + off) n s).2.2) fun _ => h.readRun

theorem copyLines64 {off lines} (h : Keeps r s) : Keeps r (Machine.copyLines64 off lines s) :=
  (Keeps.ite h h.jTouch.mirror).upd

theorem copyExtent {i} (h : Keeps r s) : Keeps r (Machine.copyExtent i s) := by
  unfold Machine.copyExtent
  split
  · refine .copyLines64 (.copyLines64 (.copyLines64 (.foldS ?_ fun _ _ h => ?_)))
    · exact h
    · exact h.copyLines64
  · exact h

theorem startCopy (h : Keeps r s) : Keeps r (Machine.startCopy s) := by
  unfold Machine.startCopy
  refine .upd (.foldS ?_ fun _ _ h => ?_)
  · refine .copyLines64 (.foldS ?_ fun _ _ h => ?_)
    · exact h.upd
    · refine .upd (.foldS ?_ fun _ _ h => ?_)
      · exact h
      · exact h.sendStored
  · exact h.copyExtent

theorem recoverContext {n} (h : Keeps r s) : Keeps r (Machine.recoverContext n s) :=
  .ite h.ctxSet.jTouch h

theorem extentTouch {i x recs} (h : Keeps r s) : Keeps r (Machine.extentTouch i x recs s) := by
  unfold Machine.extentTouch
  refine .foldS ?_ fun _ _ h => ?_
  · exact h.jTouch.jTouch
  · exact h.jTouch

theorem recoverStream {i x recs} (h : Keeps r s) : Keeps r (Machine.recoverStream i x recs s) :=
  .ite h.extentTouch.jPut.takeRecord.endStream h.extentTouch.jPut.takeRecord

theorem takeOp {own j} (h : Keeps r s) : Keeps r (Machine.takeOp own j s) := by
  unfold Machine.takeOp
  split
  · exact h
  · refine .ite ?_ ?_
    · exact h
    · refine .putOp (.upd ?_)
      refine .ite ?_ ?_
      · refine .upd ?_
        refine .ite ?_ ?_
        · exact h.jTouch.opSet
        · refine .ite ?_ ?_
          · exact .ite h.jTouch.opSet h.jTouch.opSet.startSweep
          · exact (Keeps.ite h.jTouch.shadowUnload h.jTouch).opSet
      · refine .ite ?_ ?_
        · exact h.jTouch.opSet
        · refine .ite ?_ ?_
          · exact .ite h.jTouch.opSet h.jTouch.opSet.startSweep
          · exact (Keeps.ite h.jTouch.shadowUnload h.jTouch).opSet

theorem execStreamTakeover {record} (h : Keeps r s) : ∃ t, Machine.execStreamTakeover record s = .next t ∧ Keeps r t := by
  refine ⟨_, rfl, ?_⟩
  split
  · refine .ite ?_ ?_
    · exact h
    · refine .ite ?_ ?_
      · refine .takeEnd ?_
        split
        · exact .ite h.extentTouch.takeStream h.freeIndex
        · exact h.freeIndex.count
        · exact h
      · refine .upd ?_
        split
        · exact .ite h.extentTouch.takeStream h.freeIndex
        · exact h.freeIndex.count
        · exact h
  · exact h

theorem markStale {p ats} (h : Keeps r s) : Keeps r (Machine.markStale p ats s).2 := by
  refine foldl_snd h fun e acc u hu => ?_
  dsimp only
  split
  · exact hu
  · exact hu.xferSet

theorem xlHostEvent (h : Keeps r s) : Keeps r (Machine.xlHostEvent s) := by
  unfold Machine.xlHostEvent
  refine .upd (.foldS ?_ fun _ _ h => ?_)
  · exact h.flushWalks.markStale
  · split
    · exact .ite h.xferSet h
    · exact h

theorem hostEvent (h : Keeps r s) : Keeps r (Machine.hostEvent s) :=
  h.endSessions.resetPorts.updStore.suspendAll.xlHostEvent

theorem wakeWaiting (h : Keeps r s) : Keeps r (Machine.wakeWaiting s) := by
  unfold Machine.wakeWaiting
  refine .foldS ?_ fun _ _ h => ?_
  · exact h
  · exact h.tryStart

theorem cevictHome {a l} (h : Keeps r s) : Keeps r (Machine.cevictHome a l s) := by
  unfold Machine.cevictHome
  split
  · exact h
  · exact .ite h (Keeps.ite h.dirUpdate.untrack h.dirUpdate).wakeWaiting

theorem cacheEvicts {l} (h : Keeps r s) : Keeps r (Machine.cacheEvicts l s) := by
  unfold Machine.cacheEvicts
  refine .ite ?_ ?_
  · exact h
  · refine .ite ?_ ?_
    · exact h.upd
    · refine .homeRequest ?_ ?_
      · exact h
      · intro _ h
        exact h.ksCount.cevictHome

theorem dcInvalidate {p} (h : Keeps r s) : Keeps r (Machine.dcInvalidate p s).2 := by
  unfold Machine.dcInvalidate
  refine .ite ?_ ?_
  · refine .foldS ?_ fun _ _ h => ?_
    · exact h.upd
    · exact h.cacheEvicts
  · exact h.upd

theorem endMove {m} (h : Keeps r s) : Keeps r (Machine.endMove m s) := by
  unfold Machine.endMove
  refine .ite ?_ ?_
  · exact h
  · refine .foldS ?_ fun _ _ h => ?_
    · exact h.upd.routeChange
    · exact h.atHome

theorem endMoves (h : Keeps r s) : Keeps r (Machine.endMoves s) := by
  unfold Machine.endMoves
  refine .foldS ?_ fun _ _ h => ?_
  · exact h
  · exact h.endMove

theorem endVictim {l} (h : Keeps r s) : Keeps r (Machine.endVictim l s) := by
  unfold Machine.endVictim
  split
  · exact h
  · refine .ite ?_ ?_
    · exact h
    · split
      · dsimp only
        split
        · exact (Keeps.ite h.upd.startSnoops h.upd).wakeWaiting
        · exact h.upd.wakeWaiting
      · dsimp only
        split
        · exact (Keeps.ite h.upd.untrack.startSnoops h.upd.untrack).wakeWaiting
        · exact h.upd.untrack.wakeWaiting

theorem silentSlot {l a isLate} (h : Keeps r s) : Keeps r (Machine.silentSlot l a isLate s) := by
  unfold Machine.silentSlot
  split
  · dsimp only
    split
    · refine .ite ?_ ?_
      · exact h.drainEvicts.homeWrite.raise.setLate.settle
      · exact h.drainEvicts.homeWrite.raise.setLate.upd.endVictim
    · exact h.drainEvicts.homeWrite.raise.setLate.upd.endVictim
  · dsimp only
    split
    · exact .ite h.drainEvicts.homeWrite.raise.settle h.drainEvicts.homeWrite.raise.upd.endVictim
    · exact h.drainEvicts.homeWrite.raise.upd.endVictim

theorem victimAnswers {v a r' waits} (h : Keeps r s) : Keeps r (Machine.victimAnswers v a r' waits s) := by
  unfold Machine.victimAnswers
  refine .endVictim ?_
  split
  · exact h.upd.homeWrite
  · exact h.upd.homeWrite
  · exact h.upd

theorem finishTxn {l hold} (h : Keeps r s) : Keeps r (Machine.finishTxn l hold s) := by
  unfold Machine.finishTxn
  refine .wakeWaiting (.upd (.foldS ?_ fun _ _ h => ?_))
  · exact h.upd
  · exact h.wbHome

theorem settleSlot {a poison} (h : Keeps r s) : Keeps r (Machine.settleSlot a poison s) := by
  unfold Machine.settleSlot
  refine .foldS ?_ fun _ _ h => ?_
  · refine .foldS ?_ fun _ _ h => ?_
    · refine .foldS ?_ fun _ _ h => ?_
      · exact h
      · refine .ite ?_ ?_
        · exact h.silentSlot
        · split
          · exact h.settle
          · exact h
    · exact .ite h.silentSlot h.upd.victimAnswers
  · exact h.finishTxn

theorem sweepSlot {a poison} (h : Keeps r s) : Keeps r (Machine.sweepSlot a poison s) := by
  unfold Machine.sweepSlot
  refine .endMoves (.foldS ?_ fun _ _ h => ?_)
  · exact h.upd.settleSlot
  · exact .ite (Keeps.ite h.homeWrite h).dirPut.untrack (Keeps.ite h.homeWrite h).dirPut

theorem dropHostLines (h : Keeps r s) : Keeps r (Machine.dropHostLines s) :=
  h.dcInvalidate.upd.endFences.sweepSlot

theorem cxlStateReset (h : Keeps r s) : Keeps r (Machine.cxlStateReset s) :=
  h.uncommitHdm.dropHostLines.upd

theorem zeroWindow (h : Keeps r s) : Keeps r (Machine.zeroWindow s) :=
  ⟨fun hr => tblWf_filter _ (h.cells hr), h.scratch, h.pending, h.ticks, h.lifecycle, h.minSvn⟩

theorem clearStep (h : Keeps r s) : Keeps r (Machine.clearStep s) :=
  h.clearQueues.unbindAll.zeroWindow

theorem dropEffects {code} (h : Keeps r s) : Keeps r (Machine.dropEffects code s) :=
  h.trace.upd.hostEvent.abandonChunks.clearStep.configReset.cxlStateReset.sleepIfQuiet

theorem linkFalls {code} (h : Keeps r s) : Keeps r (Machine.linkFalls code s) :=
  (Keeps.ite h.upd.raiseLevel.trace h.upd).dropEffects

theorem execLinkRetrain {ok} (h : Keeps r s) : ∃ t, Machine.execLinkRetrain ok s = .next t ∧ Keeps r t :=
  ⟨_, rfl, .ite h.linkFalls h⟩

theorem execLinkDrop (h : Keeps r s) : ∃ t, Machine.execLinkDrop s = .next t ∧ Keeps r t :=
  ⟨_, rfl, .ite h.linkFalls h⟩

theorem execPerst (h : Keeps r s) : ∃ t, Machine.execPerst s = .next t ∧ Keeps r t :=
  ⟨_, rfl, .ite h.upd.linkFalls h⟩

theorem execHotReset (h : Keeps r s) : ∃ t, Machine.execHotReset s = .next t ∧ Keeps r t :=
  ⟨_, rfl, .ite h.linkFalls h⟩

theorem resetBegins {code} (h : Keeps r s) : Keeps r (Machine.resetBegins code s) :=
  h.trace.hostEvent.sleepIfQuiet

theorem execCxlReset (h : Keeps r s) : ∃ t, Machine.execCxlReset s = .next t ∧ Keeps r t :=
  ⟨_, rfl, .ite h h.upd.resetBegins⟩

theorem execFlr (h : Keeps r s) : ∃ t, Machine.execFlr s = .next t ∧ Keeps r t :=
  ⟨_, rfl, .ite h h.upd.resetBegins⟩

theorem execFlrComplete (h : Keeps r s) : ∃ t, Machine.execFlrComplete s = .next t ∧ Keeps r t := by
  refine ⟨_, rfl, ?_⟩
  split
  · exact h
  · exact .ite h h.abandonReads.clearStep.configReset.upd

theorem wbArrives {slot line data poison} (h : Keeps r s) : Keeps r (Machine.wbArrives slot line data poison s) := by
  unfold Machine.wbArrives
  refine .ite ?_ ?_
  · exact h
  · refine .ite ?_ ?_
    · exact h.upd
    · refine .ite ?_ ?_
      · split
        · exact h.setLate.ksCount.girthSend
        · exact h.setLate.ksCount
      · refine .ite ?_ ?_
        · split
          · exact h.upd.upd.settle
          · exact h.upd.upd.upd.drainEvicts.endVictim
        · split
          · refine .ite ?_ ?_
            · dsimp only
              split
              · exact h.upd
              · exact h.upd.wbHome.upd
            · exact h
          · refine .ite ?_ ?_
            · exact h.overCredit
            · refine .ite ?_ ?_
              · exact h.upd
              · dsimp only
                split
                · exact h.upd
                · exact h.wbHome.upd

theorem evictArrives {slot line} (h : Keeps r s) : Keeps r (Machine.evictArrives slot line s) := by
  unfold Machine.evictArrives
  refine .ite ?_ ?_
  · exact h
  · refine .homeRequest ?_ ?_
    · exact .ite h.upd (.ite h.upd.dcDrop h)
    · intro _ h
      exact h.ksCount.cevictHome

theorem hostReq {line ctx req} (h : Keeps r s) : Keeps r (Machine.hostReq line ctx req s) := by
  unfold Machine.hostReq
  split
  · exact h.cohRequest
  · exact h.cohRequest
  · exact h.cohRequest
  · exact h.cohRequest
  · exact h.wbArrives
  · exact h.evictArrives

theorem execHostMemAccess {hpa req} (h : Keeps r s) : ∃ t, Machine.execHostMemAccess hpa req s = .next t ∧ Keeps r t := by
  refine ⟨_, rfl, ?_⟩
  refine .ite ?_ ?_
  · exact h
  · refine .ite ?_ ?_
    · exact h.hostRefused
    · split
      · exact .ite h.hostReq h.hostRefused.count.raise
      · exact h.hostRefused.count.raise

theorem ioWrite {l d m} (h : Keeps r s) : Keeps r (Machine.ioWrite l d m s) :=
  .ite h.upd h.upd.cohRequest

theorem ioRead {l} (h : Keeps r s) : Keeps r (Machine.ioRead l s) :=
  .ite h.upd h.upd.cohRequest

theorem execBar4Access {offset write} (h : Keeps r s) : ∃ t, Machine.execBar4Access offset write s = .next t ∧ Keeps r t := by
  refine ⟨_, rfl, ?_⟩
  refine .ite ?_ ?_
  · exact h.refuseAccess
  · split
    · exact h.unmapped
    · exact h.unmapped.emit
    · exact h.ioWrite
    · exact h.ioRead

theorem execIdeFailure {stream} (h : Keeps r s) : ∃ t, Machine.execIdeFailure stream s = .next t ∧ Keeps r t :=
  ⟨_, rfl, .ite h h.upd.raise.dropEffects⟩

theorem execRdS {slot ctx line txn} (h : Keeps r s) : ∃ t, Machine.execRdS slot ctx line txn s = .next t ∧ Keeps r t :=
  ⟨_, rfl, .ite h.cohRequest h⟩

theorem execRdX {slot ctx line txn} (h : Keeps r s) : ∃ t, Machine.execRdX slot ctx line txn s = .next t ∧ Keeps r t :=
  ⟨_, rfl, .ite h.cohRequest h⟩

theorem execUpg {slot ctx line txn} (h : Keeps r s) : ∃ t, Machine.execUpg slot ctx line txn s = .next t ∧ Keeps r t :=
  ⟨_, rfl, .ite h.cohRequest h⟩

theorem execRdCur {r' ctx line txn} (h : Keeps r s) : ∃ t, Machine.execRdCur r' ctx line txn s = .next t ∧ Keeps r t :=
  ⟨_, rfl, .ite h.cohRequest h⟩

theorem execWb {slot line data poison} (h : Keeps r s) : ∃ t, Machine.execWb slot line data poison s = .next t ∧ Keeps r t :=
  ⟨_, rfl, h.wbArrives.releaseCmps⟩

theorem execCevict {slot line} (h : Keeps r s) : ∃ t, Machine.execCevict slot line s = .next t ∧ Keeps r t :=
  ⟨_, rfl, h.evictArrives⟩

theorem execWrInv {r' ctx line data mask poison txn} (h : Keeps r s) :
    ∃ t, Machine.execWrInv r' ctx line data mask poison txn s = .next t ∧ Keeps r t := by
  refine ⟨_, rfl, ?_⟩
  refine .ite ?_ ?_
  · exact h
  · refine .ite ?_ ?_
    · split
      · exact h.cohRequest
      · exact h
    · split
      · exact .ite h h.cohRequest
      · exact h.cohRequest

theorem execFlush {line} (h : Keeps r s) : ∃ t, Machine.execFlush line s = .next t ∧ Keeps r t :=
  ⟨_, rfl, .ite h.cohRequest h⟩

theorem respond {l a r'} (h : Keeps r s) : Keeps r (Machine.respond l a r' s) := by
  unfold Machine.respond
  split
  · refine .ite ?_ ?_
    · exact (Keeps.ite h.upd h).settle
    · split
      · exact h.victimAnswers
      · exact h.strayAnswer
  · dsimp only
    split
    · exact h.victimAnswers
    · exact h.strayAnswer

theorem agentAnswers {a l r'} (h : Keeps r s) : Keeps r (Machine.agentAnswers a l r' s) :=
  .ite (Keeps.ite h.silentSlot h).respond h

theorem execRspI {slot line} (h : Keeps r s) : ∃ t, Machine.execRspI slot line s = .next t ∧ Keeps r t :=
  ⟨_, rfl, h.agentAnswers⟩

theorem execRspIWb {slot line} (h : Keeps r s) : ∃ t, Machine.execRspIWb slot line s = .next t ∧ Keeps r t :=
  ⟨_, rfl, h.agentAnswers⟩

theorem execRspS {slot line dirty poison} (h : Keeps r s) : ∃ t, Machine.execRspS slot line dirty poison s = .next t ∧ Keeps r t :=
  ⟨_, rfl, h.agentAnswers⟩

theorem execRspFwd {slot line data dirty poison} (h : Keeps r s) :
    ∃ t, Machine.execRspFwd slot line data dirty poison s = .next t ∧ Keeps r t :=
  ⟨_, rfl, h.agentAnswers⟩

theorem execGrantAck {slot line} (h : Keeps r s) : ∃ t, Machine.execGrantAck slot line s = .next t ∧ Keeps r t := by
  refine ⟨_, rfl, ?_⟩
  split
  · refine .ite ?_ ?_
    · refine .finishTxn ?_
      split
      · exact h.endPortTxn
      · exact h
    · exact h
  · split
    · refine .ite ?_ ?_
      · refine .foldS ?_ fun _ _ h => ?_
        · exact h
        · exact h.endPortTxn
      · exact h
    · exact h

theorem execHomeTimeout {slot line} (h : Keeps r s) : ∃ t, Machine.execHomeTimeout slot line s = .next t ∧ Keeps r t :=
  ⟨_, rfl, .ite h.silentSlot h⟩

theorem execHomeMoveDone {slot quarter} (h : Keeps r s) : ∃ t, Machine.execHomeMoveDone slot quarter s = .next t ∧ Keeps r t := by
  refine ⟨_, rfl, ?_⟩
  split
  · exact h
  · refine .ite ?_ ?_
    · exact h
    · refine .endMoves (.upd ?_)
      refine .ite ?_ ?_
      · exact h.upd
      · refine .ite ?_ ?_
        · refine .upd (.foldS ?_ fun _ _ h => ?_)
          · exact h
          · exact h.homeWrite
        · exact h

theorem execDcRangeInvEnd (h : Keeps r s) : ∃ t, Machine.execDcRangeInvEnd s = .next t ∧ Keeps r t := by
  refine ⟨_, rfl, ?_⟩
  split
  · exact h
  · refine .ite ?_ ?_
    · exact h
    · refine .ite ?_ ?_
      · exact h.drainWhere.endFences.releaseCmps
      · refine .upd ?_
        refine .ite ?_ ?_
        · refine .foldS ?_ fun _ _ h => ?_
          · exact h.drainWhere.endFences.releaseCmps.upd
          · exact h.cacheEvicts
        · exact h.drainWhere.endFences.releaseCmps.upd

theorem fencePort {n} (h : Keeps r s) : Keeps r (Machine.fencePort n s) := by
  unfold Machine.fencePort
  refine .ite ?_ ?_
  · exact h
  · refine .foldS ?_ fun _ _ h => ?_
    · exact h.portSet.setGp.settleSlot
    · exact .ite h h.haltRun

theorem linkFailure {n} (h : Keeps r s) : Keeps r (Machine.linkFailure n s) :=
  h.raise.fencePort

theorem inStep {n f} (h : Keeps r s) (hf : ∀ {t}, Keeps r t → Keeps r (f t)) : Keeps r (Machine.inStep n f s) :=
  .ite h.startFails (hf h)

theorem girthFlit {n f} (h : Keeps r s) : Keeps r (Machine.girthFlit n f s) := by
  unfold Machine.girthFlit
  refine .ite ?_ ?_
  · refine .girthPump ?_
    refine .ite ?_ ?_
    · refine .inStep ?_ ?_
      · refine .ite ?_ ?_
        · exact (Keeps.ite (Keeps.ite h.portSet h).nakFlits (.ite h.portSet h)).portSet.count.raise
        · exact (Keeps.ite (Keeps.ite h.portSet h).nakFlits (.ite h.portSet h)).portSet.count
      · intro _ h
        exact h.portStep.sendHello
    · refine .ite ?_ ?_
      · exact (Keeps.ite (Keeps.ite h.portSet h).nakFlits (.ite h.portSet h)).portSet.count.raise
      · exact (Keeps.ite (Keeps.ite h.portSet h).nakFlits (.ite h.portSet h)).portSet.count
  · exact (Keeps.ite (Keeps.ite h.portSet h).nakFlits (.ite h.portSet h)).portSet

theorem execGirthFlit {port f} (h : Keeps r s) : ∃ t, Machine.execGirthFlit port f s = .next t ∧ Keeps r t :=
  ⟨_, rfl, .ite (.ite h.linkFailure h.girthFlit) h⟩

theorem execGirthLinkIdleTimeout {port} (h : Keeps r s) : ∃ t, Machine.execGirthLinkIdleTimeout port s = .next t ∧ Keeps r t :=
  ⟨_, rfl, .ite h.linkFailure h⟩

theorem execGirthRetrainEnd {port ok} (h : Keeps r s) : ∃ t, Machine.execGirthRetrainEnd port ok s = .next t ∧ Keeps r t :=
  ⟨_, rfl, .ite h (.ite h.portSet.replayFlits h.portSet.linkFailure)⟩

theorem quiesceFails {n} (h : Keeps r s) : Keeps r (Machine.quiesceFails n s) :=
  h.raise.fencePort

theorem execAbortTicksExpiry {port} (h : Keeps r s) : ∃ t, Machine.execAbortTicksExpiry port s = .next t ∧ Keeps r t :=
  ⟨_, rfl, .ite h (.ite h.quiesceFails h.abortOverdue)⟩

theorem execHello {port body} (h : Keeps r s) : ∃ t, Machine.execHello port body s = .next t ∧ Keeps r t := by
  refine ⟨_, rfl, ?_⟩
  refine .ite ?_ ?_
  · exact h
  · refine .inStep ?_ ?_
    · exact h
    · intro _ h
      exact h.takeHello

theorem execCredit {port counts} (h : Keeps r s) : ∃ t, Machine.execCredit port counts s = .next t ∧ Keeps r t := by
  refine ⟨_, rfl, ?_⟩
  refine .ite ?_ ?_
  · exact h
  · refine .inStep ?_ ?_
    · exact h
    · intro _ h
      exact .ite h.raise h.portSet.girthSend.portUp

theorem execReady {port} (h : Keeps r s) : ∃ t, Machine.execReady port s = .next t ∧ Keeps r t := by
  refine ⟨_, rfl, ?_⟩
  refine .ite ?_ ?_
  · exact h
  · refine .inStep ?_ ?_
    · exact h
    · intro _ h
      exact h.portSet.portUp

theorem execQuiesceDone {port} (h : Keeps r s) : ∃ t, Machine.execQuiesceDone port s = .next t ∧ Keeps r t :=
  ⟨_, rfl, .ite h (.ite h.quiesceFails h.portSet.setGp.settleSlot)⟩

theorem execGirthKeyExchange {port m} (h : Keeps r s) : ∃ t, Machine.execGirthKeyExchange port m s = .next t ∧ Keeps r t := by
  refine ⟨_, rfl, ?_⟩
  refine .ite ?_ ?_
  · refine .inStep ?_ ?_
    · exact h
    · intro _ h
      exact h.girthKx
  · exact h

theorem execGpPwrgd {port} (h : Keeps r s) : ∃ t, Machine.execGpPwrgd port s = .next t ∧ Keeps r t := by
  refine ⟨_, rfl, ?_⟩
  refine .ite ?_ ?_
  · exact h
  · refine .ite ?_ ?_
    · refine .inStep ?_ ?_
      · exact h.portSet
      · intro _ h
        exact h.portStep
    · exact h.portSet

theorem execGirthTrainDone {port} (h : Keeps r s) : ∃ t, Machine.execGirthTrainDone port s = .next t ∧ Keeps r t := by
  refine ⟨_, rfl, ?_⟩
  refine .ite ?_ ?_
  · exact h
  · refine .inStep ?_ ?_
    · exact h
    · intro _ h
      exact h.portSet.portStep.setGp.girthFlitOut

theorem execGpFence {port} (h : Keeps r s) : ∃ t, Machine.execGpFence port s = .next t ∧ Keeps r t :=
  ⟨_, rfl, .ite h.fencePort h⟩

theorem execGirthSweepEnd {port} (h : Keeps r s) : ∃ t, Machine.execGirthSweepEnd port s = .next t ∧ Keeps r t := by
  refine ⟨_, rfl, ?_⟩
  refine .ite ?_ ?_
  · exact h
  · refine .ite ?_ ?_
    · exact (Keeps.ite h.portSet.sweepSlot.setGp h.portSet.sweepSlot).beginStart
    · exact .ite h.portSet.sweepSlot.setGp h.portSet.sweepSlot

theorem keystoneLost {k dest line write} (h : Keeps r s) : Keeps r (Machine.keystoneLost k dest line write s) := by
  unfold Machine.keystoneLost
  refine .ite ?_ ?_
  · exact .ite h.respond h
  · refine .ite ?_ ?_
    · exact h.upd.ksCount
    · split
      · exact h.setTxn
      · exact h

theorem deckOutcome {unit dest line write resent} (h : Keeps r s) :
    Keeps r (Machine.deckOutcome unit dest line write resent s) := by
  unfold Machine.deckOutcome
  refine .ite ?_ ?_
  · exact h
  · refine .ite ?_ ?_
    · split
      · exact h.haltRun
      · exact h
    · refine .ite ?_ ?_
      · exact h.keystoneLost
      · refine .ite ?_ ?_
        · split
          · split
            · exact h.upd.xferGot
            · exact h.upd.emit
          · exact h
        · exact .ite h (.ite h.failXfer (.ite h.outsideLost h))

theorem execDeckTimeout {unit ttag dest line write resent} (h : Keeps r s) :
    ∃ t, Machine.execDeckTimeout unit ttag dest line write resent s = .next t ∧ Keeps r t :=
  ⟨_, rfl, .ite h h.raise.upd.deckOutcome⟩

theorem execDomainOff {unit ttag dest line write resent} (h : Keeps r s) :
    ∃ t, Machine.execDomainOff unit ttag dest line write resent s = .next t ∧ Keeps r t :=
  ⟨_, rfl, .ite h.deckOutcome h⟩

theorem closeCache {d} (h : Keeps r s) : Keeps r (Machine.closeCache d s) :=
  h.drainWhere.endFences.dcInvalidate

theorem closeDomain {d} (h : Keeps r s) : Keeps r (Machine.closeDomain d s) :=
  .ite h.pdSet.closeCache h.pdSet

theorem requestOff {d} (h : Keeps r s) : Keeps r (Machine.requestOff d s) :=
  .ite h.pdRefuse (.ite h.pdSet.closeDomain h.pdSet)

theorem pdWrite {d off} (h : Keeps r s) : Keeps r (Machine.pdWrite d off s) :=
  .ite h.pdSet (.ite h.requestOff h.requestOn)

theorem execPdReqOff {d} (h : Keeps r s) : ∃ t, Machine.execPdReqOff d s = .next t ∧ Keeps r t :=
  ⟨_, rfl, .ite h.pdWrite h⟩

theorem execPdReqOn {d} (h : Keeps r s) : ∃ t, Machine.execPdReqOn d s = .next t ∧ Keeps r t :=
  ⟨_, rfl, .ite h.pdWrite h⟩

theorem transitionEnd {d} (h : Keeps r s) : Keeps r (Machine.transitionEnd d s) := by
  unfold Machine.transitionEnd
  dsimp only
  split
  · exact h.pdSet.requestOff
  · exact h.pdSet.requestOn
  · exact h.pdSet

theorem clearPier {p} (h : Keeps r s) : Keeps r (Machine.clearPier p s) :=
  .pierSet ⟨h.cells, fun hr => tblWf_filter _ (h.scratch hr), h.pending, h.ticks, h.lifecycle, h.minSvn⟩

theorem stopPier {p} (h : Keeps r s) : Keeps r (Machine.stopPier p s) :=
  h.losePierRuns.losePierKv.clearPier.updStore

theorem execDomainPowerDrop {d} (h : Keeps r s) : ∃ t, Machine.execDomainPowerDrop d s = .next t ∧ Keeps r t := by
  refine ⟨_, rfl, ?_⟩
  refine .ite ?_ ?_
  · exact h
  · split
    · exact h.fenceEnd
    · exact (Keeps.ite h.pdSet.stopPier h.pdSet).transitionEnd

theorem execDomainWakeEnd {d} (h : Keeps r s) : ∃ t, Machine.execDomainWakeEnd d s = .next t ∧ Keeps r t :=
  ⟨_, rfl, .ite h h.pdSet.nextWake.resample.transitionEnd⟩

theorem resetBlock {b source} (h : Keeps r s) : Keeps r (Machine.resetBlock b source s) := by
  unfold Machine.resetBlock
  split
  · exact .ite h h.upd.pdSet.stopPier
  · split
    · exact h.upd.dropXfer.xferLost
    · exact h.upd
  · exact h

theorem execBlkrst {b source} (h : Keeps r s) : ∃ t, Machine.execBlkrst b source s = .next t ∧ Keeps r t := by
  refine ⟨_, rfl, ?_⟩
  split
  · exact h
  · exact .ite h (.ite h.dropMsg h.dropMsg.resetBlock)

theorem doe {f} (h : Keeps r s) (hf : ∀ {t}, Keeps r t → Keeps r (f t)) : Keeps r (Machine.doe f s) :=
  .ite (hf h.ringDoorbell) h

theorem execGetVersion {session} (h : Keeps r s) : ∃ t, Machine.execGetVersion session s = .next t ∧ Keeps r t := by
  refine ⟨_, rfl, ?_⟩
  refine .doe ?_ ?_
  · exact h
  · intro _ h
    exact .ite h.spdmError h.setConn.spdm

theorem connect {session need dest r'} (h : Keeps r s) : Keeps r (Machine.connect session need dest r' s) := by
  unfold Machine.connect
  refine .doe ?_ ?_
  · exact h
  · intro _ h
    exact .ite h.spdmError (.ite h.spdmError h.setConn.spdm)

theorem execGetCapabilities {session} (h : Keeps r s) : ∃ t, Machine.execGetCapabilities session s = .next t ∧ Keeps r t :=
  ⟨_, rfl, h.connect⟩

theorem execNegotiateAlgorithms {session} (h : Keeps r s) : ∃ t, Machine.execNegotiateAlgorithms session s = .next t ∧ Keeps r t :=
  ⟨_, rfl, h.connect⟩

theorem serve {session f} (h : Keeps r s) (hf : ∀ {t}, Keeps r t → Keeps r (f t)) : Keeps r (Machine.serve session f s) := by
  unfold Machine.serve
  refine .doe ?_ ?_
  · exact h
  · intro _ h
    refine .ite ?_ ?_
    · exact h.spdmError
    · split
      · exact .ite h.spdmError (hf h)
      · split
        · exact h.spdmError
        · exact .ite (hf h) h.spdmError

theorem execGetDigests {session} (h : Keeps r s) : ∃ t, Machine.execGetDigests session s = .next t ∧ Keeps r t := by
  refine ⟨_, rfl, ?_⟩
  refine .serve ?_ ?_
  · exact h
  · intro _ h
    exact h.spdm

theorem execGetCertificate {session offset length} (h : Keeps r s) :
    ∃ t, Machine.execGetCertificate session offset length s = .next t ∧ Keeps r t := by
  refine ⟨_, rfl, ?_⟩
  refine .serve ?_ ?_
  · exact h
  · intro _ h
    exact h.spdm

theorem serveOpen {session f} (h : Keeps r s) (hf : ∀ {t}, Keeps r t → Keeps r (f t)) :
    Keeps r (Machine.serveOpen session f s) := by
  unfold Machine.serveOpen
  refine .serve ?_ ?_
  · exact h
  · intro _ h
    exact .ite h.spdmError (hf h)

theorem execChallenge {session nonce} (h : Keeps r s) : ∃ t, Machine.execChallenge session nonce s = .next t ∧ Keeps r t := by
  refine ⟨_, rfl, ?_⟩
  refine .serveOpen ?_ ?_
  · exact h
  · intro _ h
    exact h.spdm

theorem execGetMeasurements {session index signed} (h : Keeps r s) :
    ∃ t, Machine.execGetMeasurements session index signed s = .next t ∧ Keeps r t := by
  refine ⟨_, rfl, ?_⟩
  refine .serve ?_ ?_
  · exact h
  · intro _ h
    exact h.measure

theorem execKeyExchange {mutualAuth} (h : Keeps r s) : ∃ t, Machine.execKeyExchange mutualAuth s = .next t ∧ Keeps r t := by
  refine ⟨_, rfl, ?_⟩
  refine .serveOpen ?_ ?_
  · exact h
  · intro _ h
    split
    · exact h.spdmError
    · exact .ite h.updSec.spdm.spdm h.updSec.spdm

theorem execFinish {session ok requesterKey} (h : Keeps r s) :
    ∃ t, Machine.execFinish session ok requesterKey s = .next t ∧ Keeps r t := by
  refine ⟨_, rfl, ?_⟩
  refine .doe ?_ ?_
  · exact h
  · intro _ h
    split
    · exact h.spdmError
    · exact .ite h.spdmError (.ite h.sessPut.spdm h.sessEnd.spdmError)

theorem serveSecured {session f} (h : Keeps r s) (hf : ∀ {y t}, Keeps r t → Keeps r (f y t)) :
    Keeps r (Machine.serveSecured session f s) := by
  unfold Machine.serveSecured
  refine .serve ?_ ?_
  · exact h
  · intro _ h
    split
    · exact hf h
    · exact h.spdmError

theorem execHeartbeat {session} (h : Keeps r s) : ∃ t, Machine.execHeartbeat session s = .next t ∧ Keeps r t := by
  refine ⟨_, rfl, ?_⟩
  refine .serveSecured ?_ ?_
  · exact h
  · intro _ _ h
    exact h.spdm

theorem execKeyUpdate {session} (h : Keeps r s) : ∃ t, Machine.execKeyUpdate session s = .next t ∧ Keeps r t := by
  refine ⟨_, rfl, ?_⟩
  refine .serveSecured ?_ ?_
  · exact h
  · intro _ _ h
    exact h.sessPut.spdm

theorem execEndSession {session} (h : Keeps r s) : ∃ t, Machine.execEndSession session s = .next t ∧ Keeps r t := by
  refine ⟨_, rfl, ?_⟩
  refine .serveSecured ?_ ?_
  · exact h
  · intro _ _ h
    exact h.spdm.sessEnd

theorem execChunkSend {session handle seq last bytes} (h : Keeps r s) :
    ∃ t, Machine.execChunkSend session handle seq last bytes s = .next t ∧ Keeps r t := by
  refine ⟨_, rfl, ?_⟩
  refine .serve ?_ ?_
  · exact h
  · intro _ h
    exact h.chunkIn

theorem execChunkGet {session handle seq} (h : Keeps r s) :
    ∃ t, Machine.execChunkGet session handle seq s = .next t ∧ Keeps r t := by
  refine ⟨_, rfl, ?_⟩
  refine .serve ?_ ?_
  · exact h
  · intro _ h
    exact h.spdm

theorem execEncapsulatedResponse {session certificate keyHash} (h : Keeps r s) :
    ∃ t, Machine.execEncapsulatedResponse session certificate keyHash s = .next t ∧ Keeps r t := by
  refine ⟨_, rfl, ?_⟩
  refine .doe ?_ ?_
  · exact h
  · intro _ h
    split
    · exact h.spdmError
    · exact .ite h.spdmError (.ite h.sessPut h.spdm)

theorem execIdeKm {session stream go} (h : Keeps r s) : ∃ t, Machine.execIdeKm session stream go s = .next t ∧ Keeps r t := by
  refine ⟨_, rfl, ?_⟩
  refine .serveSecured ?_ ?_
  · exact h
  · intro _ _ h
    exact (Keeps.ite h.ideGo h).spdm

theorem vendor {session code refused f} (h : Keeps r s) (hf : ∀ {t}, Keeps r t → Keeps r (refused t))
    (hg : ∀ {y t}, Keeps r t → Keeps r (f y t)) : Keeps r (Machine.vendor session code refused f s) := by
  unfold Machine.vendor
  refine .doe ?_ ?_
  · exact h
  · intro _ h
    refine .ite ?_ ?_
    · exact h.spdmError
    · refine .ite ?_ ?_
      · exact (hf h).vendorRsp
      · split
        · exact .ite (hg h) (hf h).vendorRsp
        · exact (hf h).vendorRsp

theorem execKeyRelease {session context rsv keyId modelKey} (h : Keeps r s) :
    ∃ t, Machine.execKeyRelease session context rsv keyId modelKey s = .next t ∧ Keeps r t := by
  refine ⟨_, rfl, ?_⟩
  refine .vendor ?_ ?_ ?_
  · exact h
  · intro _ h
    exact h.keyRefused
  · intro _ _ h
    refine .ite ?_ ?_
    · exact h.keyRefused.vendorRsp
    · refine .ite ?_ ?_
      · exact h.keyRefused.vendorRsp
      · refine .ite ?_ ?_
        · exact h.keyRefused.vendorRsp
        · refine .ite ?_ ?_
          · exact h.keyRefused.vendorRsp
          · exact (Keeps.ite h.ctxSet.traceCtx.putContext h.ctxSet.traceCtx).vendorRsp

theorem powerOn (h : Keeps r s) : Keeps r (Machine.powerOn s) :=
  ⟨fun _ => rfl, fun _ => rfl, h.pending, h.ticks, h.lifecycle, h.minSvn⟩

theorem execPowerOn (h : Keeps r s) : ∃ t, Machine.execPowerOn s = .next t ∧ Keeps r t :=
  ⟨_, rfl, h.powerOn.trace⟩

theorem headerRead (h : Keeps r s) : Keeps r (Machine.headerRead s) :=
  h.upd.jTouch

theorem execJtagInstruction {i} (h : Keeps r s) : ∃ t, Machine.execJtagInstruction i s = .next t ∧ Keeps r t := by
  refine ⟨_, rfl, ?_⟩
  refine .ite ?_ ?_
  · exact h.upd
  · refine .ite ?_ ?_
    · refine .linkDown (.foldS ?_ fun _ _ h => ?_)
      · exact .ite h.upd.raise.linkFalls h.upd.raise
      · exact h.fencePort
    · refine .foldS ?_ fun _ _ h => ?_
      · exact .ite h.upd.raise.linkFalls h.upd.raise
      · exact h.fencePort

theorem usdoInitiate {client dest kind go} (h : Keeps r s) (hf : ∀ {t}, Keeps r t → Keeps r (go t)) :
    Keeps r (Machine.usdoInitiate client dest kind go s) := by
  unfold Machine.usdoInitiate
  refine .ite ?_ ?_
  · exact h
  · refine .ite ?_ ?_
    · exact h.count
    · refine .ite ?_ ?_
      · exact h
      · refine .ite ?_ ?_
        · refine .usdoAbort (.count ?_)
          split
          · exact h.segDrop.usdoAbort
          · exact h
        · refine hf ?_
          split
          · exact h.segDrop.usdoAbort
          · exact h

theorem execUsdoUploadInitiate {client dest index sub kind} (h : Keeps r s) :
    ∃ t, Machine.execUsdoUploadInitiate client dest index sub kind s = .next t ∧ Keeps r t := by
  refine ⟨_, rfl, ?_⟩
  refine .usdoInitiate ?_ ?_
  · exact h
  · intro _ h
    exact h.usdoQueue

theorem execUsdoDownloadInitiate {client dest index sub kind value} (h : Keeps r s) :
    ∃ t, Machine.execUsdoDownloadInitiate client dest index sub kind value s = .next t ∧ Keeps r t := by
  refine ⟨_, rfl, ?_⟩
  refine .usdoInitiate ?_ ?_
  · exact h
  · intro _ h
    exact .ite h.segOpen.usdoSend h.usdoQueue

theorem gpCtlWrite {n w} (h : Keeps r s) : Keeps r (Machine.gpCtlWrite n w s) := by
  unfold Machine.gpCtlWrite
  refine .ite ?_ ?_
  · refine .fencePort ?_
    refine .ite ?_ ?_
    · exact (Keeps.ite h.portSet.restamp.gpStart h.portSet.restamp).gpStop
    · exact .ite h.portSet.restamp.gpStart h.portSet.restamp
  · refine .ite ?_ ?_
    · exact (Keeps.ite h.portSet.restamp.gpStart h.portSet.restamp).gpStop
    · exact .ite h.portSet.restamp.gpStart h.portSet.restamp

theorem bar0Girth {q w} (h : Keeps r s) : Keeps r (Machine.bar0Girth q w s) :=
  .ite h (.ite (.ite h.gpCtlWrite h) (.ite h.hwinWrite h))

theorem bar0Deck {q w} (h : Keeps r s) : Keeps r (Machine.bar0Deck q w s) := by
  unfold Machine.bar0Deck
  refine .ite ?_ ?_
  · exact .ite (Keeps.ite h.guarPeriodSet h).deckMarginSet (.ite h.guarPeriodSet h)
  · exact .ite (.ite (Keeps.ite h.pdWrite h).pdWrite (.ite h.pdWrite h)) h

theorem dwWrite {k off w ignored} (h : Keeps r s) (hf : ∀ {t}, Keeps r t → Keeps r (ignored t)) :
    Keeps r (Machine.dwWrite k off w ignored s) :=
  .ite (.ite (hf h) (.ite h.dwSet.ringDoorbell h.dwSet)) (.ite (.ite (hf h) h.dwSet) h)

theorem execCxlResetComplete (h : Keeps r s) : ∃ t, Machine.execCxlResetComplete s = .next t ∧ Keeps r t := by
  refine ⟨_, rfl, ?_⟩
  split
  · exact h
  · exact .ite h h.abandonReads.clearStep.cxlStateReset.upd

theorem runStitch {id i opcode} {f : Env → Stitch → State → Ev} (h : Keeps r s)
    (hf : ∀ {e st t}, Keeps r t → Keeps r (f e st t).state) : Keeps r (Machine.runStitch id i opcode f s) := by
  unfold Machine.runStitch
  split
  · exact h
  · rename_i e st _
    refine .ite h.haltRun ?_
    split
    · exact h.haltRun
    · refine .ite h.haltRun (.ite h.askWindows ?_)
      have hs := hf (e := e) (st := st) h
      split
      all_goals rename_i he; rw [he] at hs
      · exact Keeps.runMod (Keeps.finish hs)
      · exact Keeps.haltRun (.ite (Keeps.raise hs) hs)
      · exact hs

theorem execMatvec {run idx} (h : Keeps r s) : ∃ t, Machine.execMatvec run idx s = .next t ∧ Keeps r t := by
  refine ⟨_, rfl, ?_⟩
  refine .runStitch ?_ ?_
  · exact h
  · intro _ _ _ h
    exact h.evalMatmul

theorem execMatmul {run idx} (h : Keeps r s) : ∃ t, Machine.execMatmul run idx s = .next t ∧ Keeps r t := by
  refine ⟨_, rfl, ?_⟩
  refine .runStitch ?_ ?_
  · exact h
  · intro _ _ _ h
    exact h.evalMatmul

theorem execAttend {run idx} (h : Keeps r s) : ∃ t, Machine.execAttend run idx s = .next t ∧ Keeps r t := by
  refine ⟨_, rfl, ?_⟩
  refine .runStitch ?_ ?_
  · exact h
  · intro _ _ _ h
    exact h.evalAttend

theorem execNorm {run idx} (h : Keeps r s) : ∃ t, Machine.execNorm run idx s = .next t ∧ Keeps r t := by
  refine ⟨_, rfl, ?_⟩
  refine .runStitch ?_ ?_
  · exact h
  · intro _ _ _ h
    exact h.evalNorm

theorem execElem {run idx} (h : Keeps r s) : ∃ t, Machine.execElem run idx s = .next t ∧ Keeps r t := by
  refine ⟨_, rfl, ?_⟩
  refine .runStitch ?_ ?_
  · exact h
  · intro _ _ _ h
    exact h.evalElem

theorem execReduce {run idx arrival} (h : Keeps r s) : ∃ t, Machine.execReduce run idx arrival s = .next t ∧ Keeps r t := by
  refine ⟨_, rfl, ?_⟩
  refine .runStitch ?_ ?_
  · exact h
  · intro _ _ _ h
    exact h.evalReduce

theorem execRoute {run idx} (h : Keeps r s) : ∃ t, Machine.execRoute run idx s = .next t ∧ Keeps r t := by
  refine ⟨_, rfl, ?_⟩
  refine .runStitch ?_ ?_
  · exact h
  · intro _ _ _ h
    exact h.evalRoute

theorem execSample {run idx} (h : Keeps r s) : ∃ t, Machine.execSample run idx s = .next t ∧ Keeps r t := by
  refine ⟨_, rfl, ?_⟩
  refine .runStitch ?_ ?_
  · exact h
  · intro _ _ _ h
    exact h.evalSample

theorem execGather {run idx} (h : Keeps r s) : ∃ t, Machine.execGather run idx s = .next t ∧ Keeps r t := by
  refine ⟨_, rfl, ?_⟩
  refine .runStitch ?_ ?_
  · exact h
  · intro _ _ _ h
    exact h.evalGather

theorem execScatter {run idx} (h : Keeps r s) : ∃ t, Machine.execScatter run idx s = .next t ∧ Keeps r t := by
  refine ⟨_, rfl, ?_⟩
  refine .runStitch ?_ ?_
  · exact h
  · intro _ _ _ h
    exact h.evalScatter

theorem execBarrier {run stitch} (h : Keeps r s) : ∃ t, Machine.execBarrier run stitch s = .next t ∧ Keeps r t := by
  refine ⟨_, rfl, ?_⟩
  refine .runStitch ?_ ?_
  · exact h
  · intro _ _ _ h
    exact h.evalBarrier

theorem getD {o : Option State} (h : Keeps r s) (ho : ∀ t, o = some t → Keeps r t) : Keeps r (o.getD s) := by
  cases o with
  | none => exact h
  | some t => exact ho t rfl

theorem setLock (h : Keeps r s) : Keeps r (Machine.setLock s) :=
  h.lockRefused.getD fun _ he => h.tryLock he

theorem execRegionLock (h : Keeps r s) : ∃ t, Machine.execRegionLock s = .next t ∧ Keeps r t :=
  ⟨_, rfl, .ite h.setLock h⟩

theorem bindLoaded {j m} (h : Keeps r s) : Keeps r (Machine.bindLoaded j m s) := by
  unfold Machine.bindLoaded
  dsimp only
  split
  · exact h.failLoad
  · exact h.failLoad
  · rename_i he
    obtain ⟨_, hd, hb⟩ := Option.map_eq_some_iff.1 he
    exact .ite ((h.deployAll hd).bindImage hb).modelSet.opMod ((h.deployAll hd).bindImage hb).modelSet.finishLoad

theorem spillIdle (h : Keeps r s) : Keeps r (Machine.spillIdle s) :=
  .ite (h.getD fun _ he => h.spillVictim he) h

theorem startPrefill {i} (h : Keeps r s) : Keeps r (Machine.startPrefill i s) := by
  unfold Machine.startPrefill
  dsimp only
  split
  · exact h
  · refine .ite h ?_
    have hp := h.pageIn (i := i) (lane := 0) (p := ‹Program›)
      (len := (streamGet s i).prefilled + min s.service.prefillChunk.toNat ((streamGet s i).tokens.length - (streamGet s i).prefilled))
    split
    all_goals rename_i w he; rw [he] at hp; have hw : Keeps r w := hp
    · refine hw.getD fun t ht => ?_
      obtain ⟨⟨_, _⟩, hl, rfl⟩ := Option.map_eq_some_iff.1 ht
      exact hw.launch hl
    · exact hw
    · exact hw.makeRoom

theorem nextRun {b} (h : Keeps r s) : Keeps r (Machine.nextRun b s) := by
  unfold Machine.nextRun
  extract_lets s0
  have h0 : Keeps r s0 := h.spillIdle.refillAll
  clear_value s0
  split
  · exact h0
  · refine .ite h0.upd ?_
    split
    · exact h0
    · rename_i B _ _ idx p _
      extract_lets hasPrefill s1
      have h1 : Keeps r s1 := .ite (h0.foldS fun _ _ ht => ht.startPrefill) h0
      clear_value s1
      have h2 := h1.pageLanes (b := b) (p := p) (fuel := 17)
      generalize Machine.pageLanes b p 17 s1 = o at h2 ⊢
      obtain ⟨ready, s2⟩ := o
      refine .ite h2 ?_
      split
      · rename_i he
        exact (Keeps.launch h2 he).batchMod.foldS fun _ _ ht => ht.streamMod
      · exact h2

theorem newWork {b} (h : Keeps r s) : Keeps r (Machine.newWork b s) := by
  unfold Machine.newWork
  dsimp only
  split
  · exact h
  · exact .ite h.launchRaw h.upd.nextRun

theorem execBatchBoundary {batch} (h : Keeps r s) : ∃ t, Machine.execBatchBoundary batch s = .next t ∧ Keeps r t := by
  refine ⟨_, rfl, ?_⟩
  refine .ite ?_ ?_
  · exact h
  · dsimp only
    split
    · exact h.queueCinched.newWork
    · split
      · exact h.queueCinched.boundary.nextRun
      · split
        · exact .ite h.queueCinched.boundary.nextRun h.queueCinched
        · exact h.queueCinched

theorem contextArrived {n was} (h : Keeps r s) : Keeps r (Machine.contextArrived n was s) :=
  .ite h.ctxSet.setLock (.ite h.shadowUnload h)

theorem journalWrite {tag off lines} (h : Keeps r s) : Keeps r (Machine.journalWrite tag off lines s) := by
  unfold Machine.journalWrite
  split
  · split
    · dsimp only
      split
      · refine .upd (.foldS ?_ fun _ _ h => ?_)
        · refine .upd (.foldS ?_ fun _ _ h => ?_)
          · refine .foldS ?_ fun _ _ h => ?_
            · exact h.jWrite.upd.putHeader
            · exact h.contextArrived
          · exact h.opArrived
        · exact h.indexArrived
      · refine .replyJournal (.foldS ?_ fun _ _ h => ?_)
        · refine .upd (.foldS ?_ fun _ _ h => ?_)
          · refine .foldS ?_ fun _ _ h => ?_
            · exact h.jWrite.upd.putHeader
            · exact h.contextArrived
          · exact h.opArrived
        · exact h.indexArrived
    · dsimp only
      split
      · refine .upd (.foldS ?_ fun _ _ h => ?_)
        · refine .upd (.foldS ?_ fun _ _ h => ?_)
          · refine .foldS ?_ fun _ _ h => ?_
            · exact h.jWrite.putHeader
            · exact h.contextArrived
          · exact h.opArrived
        · exact h.indexArrived
      · refine .replyJournal (.foldS ?_ fun _ _ h => ?_)
        · refine .upd (.foldS ?_ fun _ _ h => ?_)
          · refine .foldS ?_ fun _ _ h => ?_
            · exact h.jWrite.putHeader
            · exact h.contextArrived
          · exact h.opArrived
        · exact h.indexArrived
  · split
    · dsimp only
      split
      · refine .upd (.foldS ?_ fun _ _ h => ?_)
        · refine .upd (.foldS ?_ fun _ _ h => ?_)
          · refine .foldS ?_ fun _ _ h => ?_
            · exact h.jWrite
            · exact h.contextArrived
          · exact h.opArrived
        · exact h.indexArrived
      · refine .replyJournal (.foldS ?_ fun _ _ h => ?_)
        · refine .upd (.foldS ?_ fun _ _ h => ?_)
          · refine .foldS ?_ fun _ _ h => ?_
            · exact h.jWrite
            · exact h.contextArrived
          · exact h.opArrived
        · exact h.indexArrived
    · dsimp only
      split
      · refine .upd (.foldS ?_ fun _ _ h => ?_)
        · refine .upd (.foldS ?_ fun _ _ h => ?_)
          · refine .foldS ?_ fun _ _ h => ?_
            · exact h.jWrite
            · exact h.contextArrived
          · exact h.opArrived
        · exact h.indexArrived
      · refine .replyJournal (.foldS ?_ fun _ _ h => ?_)
        · refine .upd (.foldS ?_ fun _ _ h => ?_)
          · refine .foldS ?_ fun _ _ h => ?_
            · exact h.jWrite
            · exact h.contextArrived
          · exact h.opArrived
        · exact h.indexArrived

theorem execJournalWrite {tag joff lines} (h : Keeps r s) : ∃ t, Machine.execJournalWrite tag joff lines s = .next t ∧ Keeps r t :=
  ⟨_, rfl, .ite h (.ite h.count h.journalWrite)⟩

theorem installBundle {b} (h : Keeps r s) : Keeps r (Machine.installBundle b s) :=
  h.ctxSet.drawKey.slotSet.setLock

theorem pairUp {b st roleB source} (h : Keeps r s) : Keeps r (Machine.pairUp b st roleB source s) := by
  unfold Machine.pairUp
  refine .ite ?_ ?_
  · exact h.upd.enterPair.updSec
  · refine .ite ?_ ?_
    · exact h.upd.enterPair.updSec.startCopy
    · refine .foldS ?_ fun _ _ h => ?_
      · exact h.upd.enterPair.updSec
      · exact h.installBundle

theorem recoverJournal (h : Keeps r s) : Keeps r (Machine.recoverJournal s) := by
  unfold Machine.recoverJournal
  refine .foldS ?_ fun _ _ h => ?_
  · refine .foldS ?_ fun _ _ h => ?_
    · refine .foldS ?_ fun _ _ h => ?_
      · refine .foldS ?_ fun _ _ h => ?_
        · refine .foldS ?_ fun _ _ h => ?_
          · refine .ite ?_ ?_
            · refine .setLock (.foldS ?_ fun _ _ h => ?_)
              · exact h
              · exact h.recoverContext
            · refine .foldS ?_ fun _ _ h => ?_
              · exact h
              · exact h.recoverContext
          · exact .ite h h.streamSet
        · exact .ite h h.opSet
      · exact h.freeIndex.count.raise
    · exact h.recoverStream
  · exact h.takeOp

theorem keepJournal (h : Keeps r s) : Keeps r (Machine.keepJournal s) :=
  .ite h.upd.recoverJournal.upd h

theorem handshake {b mode serial} (h : Keeps r s) : Keeps r (Machine.handshake b mode serial s) := by
  unfold Machine.handshake
  refine .ite ?_ ?_
  · exact h.tryPairing
  · refine .ite ?_ ?_
    · exact h.tryPairing.refuse
    · refine .ite ?_ ?_
      · exact h.tryPairing.refuse
      · refine .ite ?_ ?_
        · exact h.tryPairing.pairUp
        · refine .ite ?_ ?_
          · exact .ite h.tryPairing.pairUp h.tryPairing.dropJournal.pairUp
          · refine .ite ?_ ?_
            · exact h.tryPairing.keepJournal.pairUp
            · refine .ite ?_ ?_
              · exact h.tryPairing.dropJournal.pairUp
              · refine .ite ?_ ?_
                · exact h.tryPairing.keepJournal.pairUp
                · exact .ite h.tryPairing.dropJournal.pairUp h.tryPairing.refuse

set_option maxRecDepth 100000 in
theorem startTaking {orderly} (h : Keeps r s) : Keeps r (Machine.startTaking orderly s) := by
  unfold Machine.startTaking
  extract_lets s1
  have h1 : Keeps r s1 := h.foldS fun _ _ ht => ht.takeOp
  clear_value s1
  split
  · exact h1.takeEnd
  · exact h1.upd

theorem orderlyTakeover (h : Keeps r s) : Keeps r (Machine.orderlyTakeover s) :=
  .ite h.leavePair.startTaking h

theorem execHealthBeat {b pairMode partnerSerial tsNow} (h : Keeps r s) :
    ∃ t, Machine.execHealthBeat b pairMode partnerSerial tsNow s = .next t ∧ Keeps r t := by
  refine ⟨_, rfl, ?_⟩
  refine .ite ?_ ?_
  · exact h
  · refine .ite ?_ ?_
    · refine .inTrainStep ?_ ?_
      · exact h
      · intro _ h
        exact h.ringDoorbell.linkUpPair.handshake
    · refine .ite ?_ ?_
      · refine .ite ?_ ?_
        · exact h.upd.ringDoorbell.partnerLost
        · refine .ite ?_ ?_
          · exact h.upd.ringDoorbell.orderlyTakeover
          · refine .ite ?_ ?_
            · refine .mirrorDone (.foldS ?_ fun _ _ h => ?_)
              · exact h.upd.ringDoorbell
              · exact h.cleanExtent
            · exact h.upd.ringDoorbell
      · exact .ite h.upd.ringDoorbell.handshake h.upd.ringDoorbell

theorem execFenceWaitExpiry (h : Keeps r s) : ∃ t, Machine.execFenceWaitExpiry s = .next t ∧ Keeps r t := by
  refine ⟨_, rfl, ?_⟩
  split
  · exact .ite h.startTaking h
  · exact h

theorem needPage {e page write} (h : Keeps r s) : Keeps r (Machine.needPage e page write s) := by
  unfold Machine.needPage
  split
  · exact h
  · dsimp only
    split
    · exact h.failXfer
    · split
      · exact h.xferSet.upd
      · split
        · exact h
        · split
          · exact h
          · exact h.xferSet.upd.emit

theorem walkResult {e k page discarded o} (h : Keeps r s) : Keeps r (Machine.walkResult e k page discarded o s) := by
  unfold Machine.walkResult
  split
  · exact h
  · split
    · exact h.xferSet.issueWalkRead
    · refine .ite ?_ ?_
      · exact h.xferSet
      · split
        · exact h.xferSet.resolvePage
        · exact h.xferSet.failXfer
        · exact h.xferSet.needPage
        · exact h.xferSet

theorem walkReadFailed {e} (h : Keeps r s) : Keeps r (Machine.walkReadFailed e s) := by
  unfold Machine.walkReadFailed
  split
  · exact h
  · split
    · exact h
    · exact h.walkResult

theorem readFailed {r' code} (h : Keeps r s) : Keeps r (Machine.readFailed r' code s) := by
  unfold Machine.readFailed
  split
  · exact h.failXfer
  · exact h.walkReadFailed
  · exact h

theorem readTimesOut {r'} (h : Keeps r s) : Keeps r (Machine.readTimesOut r' s) := by
  unfold Machine.readTimesOut
  refine .ite ?_ ?_
  · exact h.dropRead.count.aerLog.raise.quarantine.upd.readFailed.pumpReads
  · split
    · exact h.dropRead.count.aerLog.raise.quarantine.pumpReads
    · split
      · exact h.dropRead.count.aerLog.raise.quarantine.pumpReads
      · exact h.dropRead.count.aerLog.raise.quarantine.xferSet.pumpReads
    · split
      · exact h.dropRead.count.aerLog.raise.quarantine.pumpReads
      · exact h.dropRead.count.aerLog.raise.quarantine.xferSet.pumpReads

theorem walkData {e pte} (h : Keeps r s) : Keeps r (Machine.walkData e pte s) := by
  unfold Machine.walkData
  split
  · exact h
  · split
    · exact h
    · exact h.upd.walkResult

theorem execHostReadCompletion {tag status data} (h : Keeps r s) :
    ∃ t, Machine.execHostReadCompletion tag status data s = .next t ∧ Keeps r t := by
  refine ⟨_, rfl, ?_⟩
  split
  · exact h
  · refine .ite ?_ ?_
    · exact h
    · refine .ite ?_ ?_
      · exact h.readTimesOut.lateCompletion
      · split
        · refine .pumpReads ?_
          split
          · exact h.countN.dropRead.walkData
          · exact h.countN.dropRead
        · exact h.countN.dropRead.raise.readFailed.pumpReads
        · exact h.countN.dropRead.raise.readFailed.pumpReads

theorem execCompletionTimeout {tag} (h : Keeps r s) : ∃ t, Machine.execCompletionTimeout tag s = .next t ∧ Keeps r t := by
  refine ⟨_, rfl, ?_⟩
  split
  · exact h
  · exact .ite h h.readTimesOut

theorem cacheInstall {cls x} (h : Keeps r s) : Keeps r (Machine.cacheInstall cls x s) := by
  unfold Machine.cacheInstall
  have hd := h.dcInstall (cls := cls) (x := x)
  generalize Machine.dcInstall cls x s = o at hd ⊢
  obtain ⟨_, _ | l, s1⟩ := o
  · exact hd
  · exact .ite (Keeps.cacheEvicts hd) hd

theorem dcHostRead {cls line fill fillPoison v} (h : Keeps r s)
    (he : Machine.dcHostRead cls line fill fillPoison s = some (v, t)) : Keeps r t := by
  unfold Machine.dcHostRead at he
  dsimp only at he
  split at he
  · cases he
    exact h.sliceCount
  · split at he
    · cases he
    · cases he
      exact .ite h.sliceCount.emit.cacheInstall h.sliceCount.emit

theorem execDcRead {cls space line fill fillPoison} (h : Keeps r s) :
    ∃ t, Machine.execDcRead cls space line fill fillPoison s = .next t ∧ Keeps r t := by
  refine ⟨_, rfl, ?_⟩
  refine .ite ?_ ?_
  · exact h
  · refine .ite ?_ ?_
    · split
      · rename_i he
        exact (h.dcHostRead he).emit
      · exact h
    · split
      · exact h.sliceCount.emit
      · exact h.upd.sliceCount

theorem storeOwned {cls space line data mask} (h : Keeps r s)
    (he : Machine.storeOwned cls space line data mask s = some t) : Keeps r t := by
  unfold Machine.storeOwned at he
  dsimp only at he
  split at he
  · cases he
    exact h.upd
  · cases he

theorem dcStoreIn {cls space line d mask} (h : Keeps r s)
    (he : Machine.dcStoreIn cls space line d mask s = some t) : Keeps r t := by
  unfold Machine.dcStoreIn at he
  dsimp only at he
  split at he
  · cases he
    exact .ite h.upd.drainMerge.endFences h.upd
  · obtain ⟨s1, h1, he⟩ := Option.map_eq_some_iff.1 he
    have hs1 : Keeps r s1 := by
      split at h1
      · cases h1
        exact h
      · obtain ⟨_, _, rfl⟩ := Option.map_eq_some_iff.1 h1
        exact h.drainMerge.endFences
    subst he
    exact .ite hs1.upd.drainMerge.endFences hs1.upd

theorem execWalk {engine walker} (h : Keeps r s) : ∃ t, Machine.execWalk engine walker s = .next t ∧ Keeps r t := by
  refine ⟨_, rfl, ?_⟩
  split
  · dsimp only
    split
    · exact h
    · split
      · exact h
      · exact .ite h h.xferSet.emit
  · split
    · dsimp only
      split
      · exact h
      · split
        · exact h
        · exact .ite h h
    · dsimp only
      split
      · exact h
      · split
        · exact h
        · exact .ite h (.ite h.failXfer h.upd.walkResult)

theorem execAtsTranslationCompletion {engine hpa size r' w} (h : Keeps r s) :
    ∃ t, Machine.execAtsTranslationCompletion engine hpa size r' w s = .next t ∧ Keeps r t := by
  refine ⟨_, rfl, ?_⟩
  split
  · dsimp only
    split
    · exact h
    · split <;> exact h
  · dsimp only
    split
    · exact h
    · split
      · exact h
      · exact .ite h.xferSet (.ite h.xferSet.needPage h.xferSet.resolvePage)

theorem invalidate {q} (h : Keeps r s) : Keeps r (Machine.invalidate q s) := by
  obtain ⟨itag, pasid, va, bytes, global⟩ := q
  unfold Machine.invalidate
  dsimp only
  exact h.upd.markStale.upd

theorem execAtsInvalidate {itag pasid va bytes global} (h : Keeps r s) :
    ∃ t, Machine.execAtsInvalidate itag pasid va bytes global s = .next t ∧ Keeps r t :=
  ⟨_, rfl, .ite h (.ite h.upd h.invalidate)⟩

theorem takeInvalidate (h : Keeps r s) : Keeps r (Machine.takeInvalidate s) := by
  unfold Machine.takeInvalidate
  split
  · exact .ite h h.upd.invalidate
  · exact h

theorem execAtsInvalidateCompletion {itag} (h : Keeps r s) :
    ∃ t, Machine.execAtsInvalidateCompletion itag s = .next t ∧ Keeps r t := by
  refine ⟨_, rfl, ?_⟩
  split
  · exact h
  · exact .ite h h.upd.emit.resumeEngines.takeInvalidate

theorem heatLine {ctx va} (h : Keeps r s) : Keeps r (Machine.heatLine ctx va s) := by
  unfold Machine.heatLine
  have h1 := h.heatSlot (ctx := ctx) (region := va / 2 ^ 21)
  generalize Machine.heatSlot s ctx (va / 2 ^ 21) = o at h1 ⊢
  obtain ⟨hot, s1⟩ := o
  dsimp only
  split
  · exact (Keeps.hotReport h1).upd
  · exact Keeps.upd h1

theorem chunkMoved {e} (h : Keeps r s) : Keeps r (Machine.chunkMoved e s) := by
  unfold Machine.chunkMoved
  split
  · exact h
  · refine .ite ?_ ?_
    · refine .doneXfer ?_
      refine .ite ?_ ?_
      · refine .foldS ?_ fun _ _ h => ?_
        · exact h.xferSet.countN
        · exact h.heatLine
      · exact h.xferSet.countN
    · refine .startChunk ?_
      refine .ite ?_ ?_
      · refine .foldS ?_ fun _ _ h => ?_
        · exact h.xferSet.countN
        · exact h.heatLine
      · exact h.xferSet.countN

theorem cacheLines {cls lines} (h : Keeps r s) : Keeps r (Machine.cacheLines cls lines s).2.2 := by
  refine foldl_of (fun a : List LineData × Bool × State => a.2.2) h fun x acc ht => ?_
  dsimp only
  split
  · rename_i he
    exact Keeps.dcHostRead ht he
  · exact ht

theorem execHRd {port txn ctx line fill fillPoison} (h : Keeps r s) :
    ∃ t, Machine.execHRd port txn ctx line fill fillPoison s = .next t ∧ Keeps r t := by
  refine ⟨_, rfl, ?_⟩
  refine .ite ?_ ?_
  · exact h
  · refine .ite ?_ ?_
    · exact h.raise
    · split
      · exact h.nackPort
      · split
        · rename_i he
          exact (h.dcHostRead he).girthSend
        · exact h

theorem execHWr {port txn ctx line data mask} (h : Keeps r s) :
    ∃ t, Machine.execHWr port txn ctx line data mask s = .next t ∧ Keeps r t := by
  refine ⟨_, rfl, ?_⟩
  refine .ite ?_ ?_
  · exact h
  · refine .ite ?_ ?_
    · exact h.raise
    · split
      · exact h.nackPort
      · split
        · rename_i he
          exact (h.dcStoreIn he).girthSend.releaseCmps
        · exact h

theorem spReleaseAll {n} (h : Keeps r s) : Keeps r (Machine.spReleaseAll n s) := by
  induction n generalizing s with
  | zero => exact h
  | succ n ih =>
    unfold Machine.spReleaseAll
    split
    · exact ih h.spRelease
    · exact h

theorem spJoin {k op first last leaf v} (h : Keeps r s) : Keeps r (Machine.spJoin k op first last leaf v s) :=
  .ite h h.upd.spReleaseAll

theorem execJoin {op first last leaf} (h : Keeps r s) : ∃ t, Machine.execJoin op first last leaf s = .next t ∧ Keeps r t :=
  ⟨_, rfl, h.spJoin⟩

theorem execBcast {first last value} (h : Keeps r s) : ∃ t, Machine.execBcast first last value s = .next t ∧ Keeps r t :=
  ⟨_, rfl, .ite h h.upd.spReleaseAll⟩

theorem execAndOp {op first last leaf bit} (h : Keeps r s) :
    ∃ t, Machine.execAndOp op first last leaf bit s = .next t ∧ Keeps r t :=
  ⟨_, rfl, h.spJoin⟩

theorem execSnap {op first last leaf} (h : Keeps r s) : ∃ t, Machine.execSnap op first last leaf s = .next t ∧ Keeps r t :=
  ⟨_, rfl, h.spJoin⟩

theorem execResetOp {op first last leaf} (h : Keeps r s) : ∃ t, Machine.execResetOp op first last leaf s = .next t ∧ Keeps r t :=
  ⟨_, rfl, h.spJoin⟩

theorem execCtxSelect {session context} (h : Keeps r s) : ∃ t, Machine.execCtxSelect session context s = .next t ∧ Keeps r t := by
  refine ⟨_, rfl, ?_⟩
  refine .vendor ?_ ?_ ?_
  · exact h
  · intro _ h
    exact h
  · intro _ _ h
    exact .ite h.vendorRsp h.sessPut.vendorRsp

theorem execCtxCreate {session context allowHost rsv cred} (h : Keeps r s) :
    ∃ t, Machine.execCtxCreate session context allowHost rsv cred s = .next t ∧ Keeps r t := by
  refine ⟨_, rfl, ?_⟩
  refine .vendor ?_ ?_ ?_
  · exact h
  · intro _ h
    exact h
  · intro _ _ h
    refine .ite ?_ ?_
    · exact h.vendorRsp
    · refine .ite ?_ ?_
      · exact h.vendorRsp
      · refine .ite ?_ ?_
        · exact h.vendorRsp
        · refine .ite ?_ ?_
          · exact h.vendorRsp
          · split
            · exact h.lockRefused.vendorRsp
            · rename_i he
              exact (h.tryLock he).createCtx

theorem judgeJournal (h : Keeps r s) : Keeps r (Machine.judgeJournal s) := by
  unfold Machine.judgeJournal
  refine .ite ?_ ?_
  · exact h.putHeader
  · refine .ite ?_ ?_
    · exact .ite h.headerRead.recoverJournal.upd.upd.putHeader h.startDiscard
    · exact .ite h.headerRead.upd h.startDiscard

theorem endStep6 (h : Keeps r s) : Keeps r (Machine.endStep6 s) := by
  unfold Machine.endStep6
  refine .startTraining (.foldS ?_ fun _ _ h => ?_)
  · refine .upd (.restamp (.nextStep (.judgeJournal (.foldS ?_ fun _ _ h => ?_))))
    · exact h.updStore
    · exact h.rebuildFor
  · exact h.gpStart

theorem execStartStepEnd {ok rails failedStacks late} (h : Keeps r s) :
    ∃ t, Machine.execStartStepEnd ok rails failedStacks late s = .next t ∧ Keeps r t := by
  refine ⟨_, rfl, ?_⟩
  refine .ite ?_ ?_
  · exact h
  · split
    · exact h.emit.railsRead.nextStep
    · exact .ite h.updSec.nextStep h.raise
    · refine .bootUp (.upd (.nextStep (.foldS ?_ fun _ _ h => ?_)))
      · exact h
      · exact h.fenceLate
    · exact (Keeps.ite h h.wakeUnits).nextStep
    · refine .nextStep (.foldS ?_ fun _ _ h => ?_)
      · exact h.wakeUnits.upd
      · exact h.raise
    · exact h.endStep6

theorem core1Turn {b} (h : Keeps r s) (he : Machine.core1Turn b s = some t) : Keeps r t := by
  unfold Machine.core1Turn at he
  extract_lets t' running at he
  clear_value running
  split at he
  · split at he
    · cases he
      exact h
    · cases he
  · split at he
    · cases he
      exact h.trestleSet
    · cases he

theorem nextOf {o} (_ : Keeps r s) (ho : ∃ t, o = .next t ∧ Keeps r t) : Keeps r (Machine.nextOf o s) := by
  obtain ⟨t, rfl, ht⟩ := ho
  exact ht

theorem commandWrite {v} (h : Keeps r s) : Keeps r (Machine.commandWrite v s) := by
  unfold Machine.commandWrite
  refine .ite ?_ ?_
  · refine .nextOf ?_ ?_
    · exact h.upd
    · exact h.upd.execBmeSet
  · refine .nextOf ?_ ?_
    · exact h.upd
    · exact h.upd.execBmeClear

theorem pmcsrWrite {state} (h : Keeps r s) : Keeps r (Machine.pmcsrWrite state s) := by
  unfold Machine.pmcsrWrite
  refine .ite ?_ ?_
  · refine .nextOf ?_ ?_
    · exact h
    · exact h.execD3hotEntry
  · exact .ite (.ite h.upd.bmeStarts h.upd) h

theorem devCtlWrite {w} (h : Keeps r s) : Keeps r (Machine.devCtlWrite w s) :=
  .ite (h.upd.nextOf h.upd.execFlr) h.upd

theorem configEffect {q w} (h : Keeps r s) : Keeps r (Machine.configEffect q w s) := by
  unfold Machine.configEffect
  split
  · exact .ite h.commandWrite h
  · exact h.upd
  · exact h.upd
  · exact h.upd
  · exact h.upd
  · exact h.upd
  · exact .ite h.pmcsrWrite h
  · exact .ite h.devCtlWrite h
  · exact h.upd
  · exact .ite h.msixCtlWrite h
  · exact h.upd
  · exact h.upd
  · exact h.upd
  · exact .ite h.setPriEnable h
  · exact h.upd
  · refine .ite ?_ ?_
    · refine .nextOf ?_ ?_
      · exact h
      · exact h.execCxlReset
    · exact h
  · exact h.upd
  · exact (Keeps.ite h.pbCtlSet h).pbStsWrite
  · exact h

theorem configWrite {q w} (h : Keeps r s) : Keeps r (Machine.configWrite q w s) :=
  h.cfgWrite.cfgWrite.configEffect

theorem hdmWrite {n k w} (h : Keeps r s) : Keeps r (Machine.hdmWrite n k w s) := by
  unfold Machine.hdmWrite
  split
  · exact .ite h h.hdmSet
  · exact .ite h h.hdmSet
  · refine .ite ?_ ?_
    · exact .ite h (.ite h.countIgnored h.hdmSet)
    · refine .ite ?_ ?_
      · refine .nextOf ?_ ?_
        · exact h
        · exact h.hdmSet.execHdmCommit
      · exact h.hdmSet
  · exact .ite h h.hdmSet

theorem bar0Component {q w} (h : Keeps r s) : Keeps r (Machine.bar0Component q w s) :=
  .ite h.hdmWrite h

theorem bar0Region {q w} (h : Keeps r s) : Keeps r (Machine.bar0Region q w s) := by
  unfold Machine.bar0Region
  refine .ite ?_ ?_
  · exact .ite h.regionBaseWrite h.regionShapeWrite
  · refine .ite ?_ ?_
    · exact .ite h.setLock h
    · exact .ite (.ite h.pairCtlWrite h) (.ite h.winInWrite (.ite h.winOutWrite h))

theorem qpWrite {n word w} (h : Keeps r s) : Keeps r (Machine.qpWrite n word w s) := by
  unfold Machine.qpWrite
  refine .ite ?_ ?_
  · exact h.countIgnored
  · refine .ite ?_ ?_
    · refine .ite ?_ ?_
      · exact h.armQp
      · refine .ite ?_ ?_
        · refine .ite ?_ ?_
          · refine .nextOf ?_ ?_
            · exact h
            · exact h.execQpDisarm
          · refine .countIgnored ?_
            refine .nextOf ?_ ?_
            · exact h
            · exact h.execQpDisarm
        · exact h.qpSet
    · refine .ite ?_ ?_
      · exact h.countIgnored
      · split <;> exact h.qpSet

theorem bar0Collector {q w} (h : Keeps r s) : Keeps r (Machine.bar0Collector q w s) := by
  unfold Machine.bar0Collector
  refine .ite ?_ ?_
  · exact .ite h.fsStsWrite (.ite h.fsCfgWrite h)
  · refine .ite ?_ ?_
    · refine .ite ?_ ?_
      · refine .nextOf ?_ ?_
        · exact h
        · exact h.execFcLock
      · exact h
    · exact h

theorem bar0Write {q w} (h : Keeps r s) : Keeps r (Machine.bar0Write q w s) := by
  unfold Machine.bar0Write
  refine .ite ?_ ?_
  · exact h.bar0Component
  · refine .ite ?_ ?_
    · exact h.msixWrite
    · refine .ite ?_ ?_
      · exact h
      · refine .ite ?_ ?_
        · exact .ite h.setPaceTarget h
        · refine .ite ?_ ?_
          · exact h
          · refine .ite ?_ ?_
            · exact h.bar0Region
            · refine .ite ?_ ?_
              · exact h.bar0Host
              · refine .ite ?_ ?_
                · exact h.bar0Girth
                · refine .ite ?_ ?_
                  · exact h.bar0Deck
                  · refine .ite ?_ ?_
                    · exact h.bar0Cache
                    · refine .ite ?_ ?_
                      · exact h.bar0Xl
                      · refine .ite ?_ ?_
                        · exact h.ctxAdmit
                        · refine .ite ?_ ?_
                          · exact h
                          · refine .ite ?_ ?_
                            · refine .dwWrite ?_ ?_
                              · exact h
                              · intro _ h
                                exact h.countIgnored
                            · refine .ite ?_ ?_
                              · exact h
                              · refine .ite ?_ ?_
                                · exact h.bar0Sb
                                · exact .ite h.bar0Trace (.ite h.qpWrite (.ite h.bar0Collector (.ite h.countIgnored h)))

theorem execRegisterWrite {w} (h : Keeps r s) : ∃ t, Machine.execRegisterWrite w s = .next t ∧ Keeps r t := by
  refine ⟨_, rfl, ?_⟩
  split
  · exact .ite h.configWrite h
  · exact h
  · exact .ite h.answerUr h.refuseAccess
  · exact .ite h.bar0Write h.refuseAccess
  · refine .ite ?_ ?_
    · exact h.refuseAccess
    · refine .ite ?_ ?_
      · refine .dwWrite ?_ ?_
        · exact h
        · intro _ h
          exact h.count
      · exact h

theorem execPrefillRunEnd {record} (h : Keeps r s) : ∃ t, Machine.execPrefillRunEnd record s = .next t ∧ Keeps r t := by
  refine ⟨_, rfl, ?_⟩
  dsimp only
  split
  · exact h
  · split
    · exact h
    · refine .ite ?_ ?_
      · exact h
      · refine .ite ?_ ?_
        · exact h.dropRun.processed.batchMod.applyCmds.boundaryOf.startPrefill
        · exact h.dropRun.processed.batchMod.applyCmds.boundaryOf

theorem execWaitReread {run stitch} (h : Keeps r s) : ∃ t, Machine.execWaitReread run stitch s = .next t ∧ Keeps r t :=
  ⟨_, rfl, h.runStitch fun ht => by
    split
    · exact ht.evalBarrier
    · exact ht⟩

theorem loadUnit {j chunk tagOk} (h : Keeps r s) : Keeps r (Machine.loadUnit j chunk tagOk s) := by
  unfold Machine.loadUnit
  extract_lets x ctx k data c start
  have hs : ∀ m t, start = .ok (m, t) → Keeps r t := by
    intro m t he
    unfold start at he
    repeat' split at he
    all_goals cases he
    · exact h.reserveImage ‹_›
    · exact h
  clear_value start
  split
  · exact h
  · split
    · exact h.failLoad
    · rename_i m s1
      have h1 := hs m s1 rfl
      split
      · exact h.failLoad
      extract_lets last s2 s3
      have h3 : Keeps r s3 := .ite h1.modelSet.placeChunk.unitDone.sendImage h1.modelSet.placeChunk.unitDone
      clear_value s3
      split
      · exact h3.bindLoaded
      · exact h3

theorem execLongopUnit {slot chunk tagOk} (h : Keeps r s) : ∃ t, Machine.execLongopUnit slot chunk tagOk s = .next t ∧ Keeps r t :=
  ⟨_, rfl, .ite h (.ite h.loadUnit (.ite h.burnishUnit (.ite h.rotateUnit (.ite h.migrateUnit h))))⟩

theorem shadowChunk {ctx k data} (h : Keeps r s) : Keeps r (Machine.shadowChunk ctx k data s).2 := by
  unfold Machine.shadowChunk
  extract_lets s0 c start
  have hs : ∀ m t, start = .ok (m, t) → Keeps r t := by
    intro m t he
    unfold start at he
    repeat' split at he
    all_goals cases he
    · exact h.undoLoad.reserveImage ‹_›
    · exact h
  clear_value start
  split
  · exact h.undoLoad
  · rename_i m s1
    have h1 := hs m s1 rfl
    extract_lets s2
    have h2 : Keeps r s2 := h1.modelSet.placeChunk
    clear_value s2
    split
    · exact h2
    · split
      · exact h2.undoLoad
      · exact h2.undoLoad
      · rename_i he
        obtain ⟨_, hd, hb⟩ := Option.map_eq_some_iff.1 he
        exact ((h2.deployAll hd).bindImage hb).modelSet.ctxSet

theorem sendSnoop {op a l} (h : Keeps r s) : Keeps r (Machine.sendSnoop op a l s) := by
  unfold Machine.sendSnoop
  extract_lets isIt tx mark src s1?
  clear_value tx
  have hs : ∀ t e, s1? = some (t, e) → Keeps r t := by
    intro t e he
    unfold s1? at he
    split at he
    · cases he
      exact h.setTxn
    · obtain ⟨_, _, hv⟩ := Option.map_eq_some_iff.1 he
      cases hv
      exact h.upd
  clear_value s1?
  split
  · exact h
  · rename_i s1 e
    have h1 := hs s1 e rfl
    refine .ite h (.ite (.ite h1.emit h1) ?_)
    split
    · exact h1.dcSnoop.respond
    · split
      · exact h1.storeSnoop.respond
      · dsimp only
        exact .ite h1.silentSlot (.ite h1.respond h1.girthSend)

theorem snoop {op copy line} (h : Keeps r s) : Keeps r (Machine.snoop op copy line s) := by
  cases copy with
  | agent slot => exact h.sendSnoop
  | hostLine => exact h.hostSnoop

theorem execSnpS {copy line} (h : Keeps r s) : ∃ t, Machine.execSnpS copy line s = .next t ∧ Keeps r t :=
  ⟨_, rfl, .ite h.snoop h⟩

theorem sweepSnoop {line} (h : Keeps r s) : Keeps r (Machine.sweepSnoop line s) := by
  unfold Machine.sweepSnoop
  split
  · exact h
  · exact .ite h h.upd.sendSnoop

theorem execSnpInv {copy line} (h : Keeps r s) : ∃ t, Machine.execSnpInv copy line s = .next t ∧ Keeps r t := by
  refine ⟨_, rfl, ?_⟩
  refine .ite ?_ ?_
  · exact h
  · split
    · exact h.snoop.sweepSnoop
    · exact h.snoop

theorem execSnpCur {copy line} (h : Keeps r s) : ∃ t, Machine.execSnpCur copy line s = .next t ∧ Keeps r t :=
  ⟨_, rfl, .ite h.snoop h⟩

theorem execSnpClean {slot line} (h : Keeps r s) : ∃ t, Machine.execSnpClean slot line s = .next t ∧ Keeps r t :=
  ⟨_, rfl, .ite h.sendSnoop h⟩

theorem dcFillDone {l g d poison} (h : Keeps r s) : Keeps r (Machine.dcFillDone l g d poison s) := by
  unfold Machine.dcFillDone
  split
  · exact h
  · extract_lets mine src s1 seen s2 keep
    have h2 : Keeps r s2 := Keeps.foldS h.upd fun x t ht => by
      split
      · exact ht.xferGot
      · exact ht.emit
    clear_value s2
    split
    rename_i kept old s3 he
    have h3 : Keeps r s3 := by
      split at he
      · have := h2.dcInstall (cls := ‹DcFill›.cls) (x := ⟨true, BitVec.ofNat 46 l.toNat, g, d⟩)
        rw [he] at this
        exact this
      · cases he
        exact h2
    refine .ite h3 ?_
    extract_lets s4
    have h4 : Keeps r s4 := by
      unfold s4
      split
      · exact h3.cacheEvicts
      · exact h3
    exact .ite h4.cacheEvicts h4

theorem deliver {tx o d poison} (h : Keeps r s) : Keeps r (Machine.deliver tx o d poison s) := by
  unfold Machine.deliver
  split
  · extract_lets a dflt old s1 lines src n fromPort aux s2 s3
    clear_value a
    split
    · exact Keeps.emit (.ite h.emit h)
    split
    · exact .ite h.dcFillDone h
    split
    · have h1 : Keeps r s1 := .ite h.emit h
      clear_value lines src s1
      exact .ite h1 h1.upd
    · have h3 : Keeps r s3 := .ite h.girthSend.girthSend h.girthSend
      clear_value s3
      generalize tx.req = q
      cases q
      case wrInv | upg => exact h3.endPortTxn
      all_goals exact h3
  · split
    · exact .ite h h.upd.emit
    · exact h
  · exact .ite h.emit h

theorem completeTxn {t0} (h : Keeps r s) : Keeps r (Machine.completeTxn t0 s) := by
  unfold Machine.completeTxn
  extract_lets l full s0 rescued s1 tx o s2 k s3 gone entry inside fromPort lost regrant acks
  have h0 : Keeps r s0 := h.drainEvicts
  have h1 : Keeps r s1 := by
    unfold s1
    split
    · split
      · exact h0.homeWrite
      · exact h0
    · exact h0
  have h2 : Keeps r s2 := by
    unfold s2
    split
    · exact .ite h1.homeWrite h1
    · exact h1
  have h3 : Keeps r s3 := by
    unfold s3
    split
    · extract_lets merged
      clear_value merged
      split
      · exact h2.memWriteFor
      · exact h2.memWriteFor
    · exact h2
  clear_value s3
  split
  rename_i ln s4 he
  have h4 : Keeps r s4 := by
    split at he
    · cases he
      exact h3
    · split at he
      · have := h3.homeRead (l := l)
        rw [he] at this
        exact this
      · cases he
        exact h3
  extract_lets s4' s5 s6 s7 data s8
  have h4' : Keeps r s4' := by
    unfold s4'
    split
    · exact .ite h4.homeWrite h4
    · exact h4
  have h6 : Keeps r s6 := .ite h4'.dirUpdate.untrack h4'.dirUpdate
  have h7 : Keeps r s7 := by
    unfold s7
    split
    · split
      · split
        · exact h6.dropDraining.dcUpdate.endFences
        · exact h6
      · exact h6
    · exact h6.dropPosted
    · exact h6
  have h8 : Keeps r s8 := by
    refine Keeps.deliver ?_
    unfold regrant
    split
    · split
      · split
        · exact h7.setLate
        · exact h7
      · exact h7
    · exact h7
  exact .ite h8.setTxn h8.finishTxn

theorem execCmp {line} (h : Keeps r s) : ∃ t, Machine.execCmp line s = .next t ∧ Keeps r t := by
  refine ⟨_, rfl, ?_⟩
  split
  · exact .ite (.ite h.completeTxn.releaseCmps.pumpEngines h.completeTxn.releaseCmps) h
  · exact h

theorem execDcStore {cls space line data mask} (h : Keeps r s) :
    ∃ t, Machine.execDcStore cls space line data mask s = .next t ∧ Keeps r t := by
  refine ⟨_, rfl, .ite h ?_⟩
  split
  · exact h.storeOwned ‹_›
  · exact (h.getD fun _ he => h.dcStoreIn he).releaseCmps

theorem execJournalImage {tag ctx chunk part units} (h : Keeps r s) :
    ∃ t, Machine.execJournalImage tag ctx chunk part units s = .next t ∧ Keeps r t := by
  refine ⟨_, rfl, .ite h (.ite h.count ?_)⟩
  extract_lets c k others parts mine data rest
  split
  · split
    rename_i he
    have h1 : Keeps r (Machine.shadowChunk c k data { s with pair := { s.pair with imageParts := rest } }).2 := h.upd.shadowChunk
    rw [he] at h1
    exact Keeps.replyJournal h1
  · exact h.upd.replyJournal

theorem execTransferChunkEnd {engine data} (h : Keeps r s) :
    ∃ t, Machine.execTransferChunkEnd engine data s = .next t ∧ Keeps r t := by
  refine ⟨_, rfl, ?_⟩
  extract_lets e
  split
  · exact h
  extract_lets waiting held n va ctx first given
  split
  · exact h
  split
  · exact .ite h h.chunkMoved
  split
  rename_i lines poison s1 he
  have h1 : Keeps r s1 := by
    split at he
    · have hc := congrArg (fun y => Keeps r y.2.2) he
      exact cast hc h.cacheLines
    · cases he
      exact h
  extract_lets b s2
  have h2 : Keeps r s2 := by
    unfold s2
    split
    · split
      · exact h1.failXfer
      · split
        · exact h1
        · exact h1.pokeBytes
    · split
      · exact h1.Xfer_hdmLines.writeHost
      · exact h1
  clear_value s2
  split
  · exact h2
  · exact .ite h2.xferSet h2.chunkMoved

theorem foldl_option_of {α β : Type} (st : β → State) {l : List α} {f : α → β → Option β} {acc : Option β} {b : β}
    (hf : ∀ {x b c}, Keeps r (st b) → f x b = some c → Keeps r (st c)) (h : ∀ b, acc = some b → Keeps r (st b))
    (he : l.foldl (fun acc x => acc.bind (f x)) acc = some b) : Keeps r (st b) := by
  induction l generalizing acc with
  | nil => exact h b he
  | cons x l ih =>
    refine ih (fun u hu => ?_) he
    obtain ⟨w, hw, hu⟩ := Option.bind_eq_some_iff.1 hu
    exact hf (h w hw) hu

theorem ok_of_toOption {ε α : Type} {x : Except ε α} {a : α} (he : x.toOption = some a) : x = .ok a := by
  cases x with
  | error => cases he
  | ok => exact congrArg Except.ok (Option.some.inj he)

theorem retired (h : Keeps r s) : Keeps r { s with sec := { s.sec with lifecycle := .retired } } where
  cells := h.cells
  scratch := h.scratch
  pending := h.pending
  ticks := h.ticks
  lifecycle := .inr rfl
  minSvn := h.minSvn

theorem execRetire {session serial sigOk} (h : Keeps r s) :
    ∃ t, Machine.execRetire session serial sigOk s = .next t ∧ Keeps r t :=
  ⟨_, rfl, h.vendor id fun ht => .ite ht.vendorRsp (.ite ht.vendorRsp ht.vendorRsp.zeroKeys.retired.restamp.chipReset)⟩

theorem committed (h : Keeps r s) (hlt : s.sec.minSvn.toNat < s.sec.fwSvn.toNat) :
    Keeps r { s with sec := { s.sec with minSvn := s.sec.fwSvn } } where
  cells := h.cells
  scratch := h.scratch
  pending := h.pending
  ticks := h.ticks
  lifecycle := h.lifecycle
  minSvn := Nat.le_trans h.minSvn (Nat.le_of_lt hlt)

theorem execStartupDone (h : Keeps r s) : ∃ t, Machine.execStartupDone s = .next t ∧ Keeps r t := by
  refine ⟨_, rfl, ?_⟩
  split
  · extract_lets pw s1 s2
    have h2 : Keeps r s2 := .ite h.upd.setForcedHw h.upd
    clear_value s2
    split
    · rename_i hlt
      exact (h2.committed (by simp at hlt; exact hlt.2)).restamp
    · exact h2
  · exact h

set_option maxRecDepth 100000 in
theorem burnCommand {v} (h : Keeps r s) : Keeps r (Machine.burnCommand v s) := by
  unfold Machine.burnCommand
  extract_lets sv result tgt c e
  have hr : ∀ {st t}, Keeps r t → Keeps r (result st t) := fun ht => ht.upd
  clear_value result
  split
  · refine .ite (hr h) ?_
    split
    · exact hr h
    · rename_i he
      exact (hr (h.startOp he).upd).burnishStart
  · split
    · exact hr h
    · exact hr h
    · refine .ite (hr h) ?_
      split
      · rename_i he
        exact hr (h.opCmd he)
      · exact h

theorem deviceWrite {idx sub v} (h : Keeps r s) : Keeps r (Machine.deviceWrite idx sub v s) := by
  unfold Machine.deviceWrite
  extract_lets all w8 w16 w32
  clear_value all w8 w16 w32
  refine .ite h.gpCtlWrite (.ite h.hwinWrite (.ite (.ite h.regionBaseWrite h.regionShapeWrite) (.ite h.pdWrite
    (.ite h.wayMaskSet (.ite h.pteWrite (.ite h.winInWrite (.ite h.winOutWrite (.ite h.updSec (.ite h.sbBind ?_)))))))))
  split
  case h_1 | h_2 => exact h.setPaceTarget
  case h_3 => exact h.nodeIdSet
  case h_11 => exact h.guarPeriodSet
  case h_12 => exact h.deckMarginSet
  case h_13 | h_32 => exact h.upd.restamp
  case h_14 => exact h.cohCtlWrite
  case h_15 => exact h.homeTimeoutSet
  case h_16 => exact h.mergeTicksSet
  case h_30 => exact h.burnCommand
  case h_33 => exact h.pairCtlWrite
  case h_38 => exact h.pbCtlSet
  case h_39 => exact h.pbStsWrite
  case h_42 => exact h.traceCtlWrite
  case h_43 => exact h.bufBaseSet
  case h_44 => exact h.bufSizeSet
  case h_9 | h_10 => exact h.updStore
  case h_40 => exact h.updSec
  case h_46 => exact h
  all_goals exact h.upd

theorem dictApply {idx sub v} (h : Keeps r s) : Keeps r (Machine.dictApply idx sub v s) := by
  unfold Machine.dictApply
  split
  · split
    case h_4 => exact h
    all_goals exact h.upd
  split
  · exact h.deviceWrite
  split
  · extract_lets n c
    split
    · exact h.ctxAdmit
    · exact h.ctxRootSet
    all_goals exact h.ctxSet
  · exact .ite h.fsCfgWrite h.clearSource

theorem dictAccess {p op idx sub value v} (h : Keeps r s)
    (he : Machine.dictAccess p op idx sub value s = .ok (v, t)) : Keeps r t := by
  unfold Machine.dictAccess at he
  extract_lets reach subs n at he
  clear_value subs
  split at he
  · cases he
  split at he
  · cases he
  · repeat' split at he
    all_goals cases he
    · exact h
    · exact h.dictApply

theorem serveField {q} (h : Keeps r s) : Keeps r (Machine.serveField q s) := by
  unfold Machine.serveField
  extract_lets m s0
  have h0 : Keeps r s0 := h.upd
  clear_value s0
  split
  · exact h0.count.usdoAbort
  · rename_i he
    have h1 := h0.dictAccess he
    exact .ite h1.usdoSend (.ite h1.segOpen.usdoSend h1.usdoSend)

theorem servePort {k} (h : Keeps r s) : Keeps r (Machine.servePort k s) := by
  unfold Machine.servePort
  extract_lets orphan x m s0 q
  have h0 : Keeps r s0 := h.upd
  clear_value s0
  split
  rename_i s1 y he
  have h1 : Keeps r s1 := by
    unfold q at he
    split at he
    · cases he
      exact h0.dictAccess ‹_›
    · cases he
      exact h0.count
  exact .ite h1 h1.dwSet

theorem serveChannel {c} (h : Keeps r s) : Keeps r (Machine.serveChannel c s) := by
  unfold Machine.serveChannel
  extract_lets x w0 w1 op len reply value
  have hr : ∀ {a b c d t}, Keeps r t → Keeps r (reply a b c d t) := fun ht => ht.chanSet.sbAck
  clear_value reply
  refine .ite (hr h.count) ?_
  split
  · exact hr h.count
  · rename_i he
    exact hr (h.dictAccess he)

/-- The service that a waiting dictionary request asks for keeps what is kept. -/
theorem waitingOn {path v f} (h : Keeps r s) (he : Machine.waitingOn path u = some (v, w, f)) : Keeps r (f s) := by
  unfold Machine.waitingOn at he
  extract_lets port at he
  clear_value port
  split at he
  · obtain ⟨_, _, hf⟩ := Option.map_eq_some_iff.1 he
    cases hf
    exact h.serveField
  · obtain ⟨_, _, hf⟩ := Option.map_eq_some_iff.1 he
    cases hf
    exact h.servePort
  · split at he
    · cases he
    · obtain ⟨_, _, hf⟩ := Option.map_eq_some_iff.1 he
      cases hf
      exact h.servePort
  · extract_lets x at he
    split at he
    · cases he
      exact h.serveChannel
    · cases he

theorem dictServe {write path} (h : Keeps r s) : Keeps r (Machine.dictServe write path s) := by
  unfold Machine.dictServe
  split
  · exact h
  · rename_i hw
    refine .ite h ?_
    split
    · exact h
    · rename_i hc
      exact ((h.core1Turn hc).waitingOn hw).core1Done

theorem execDictRead {path} (h : Keeps r s) : ∃ t, Machine.execDictRead path s = .next t ∧ Keeps r t :=
  ⟨_, rfl, h.dictServe⟩

theorem execDictWrite {path} (h : Keeps r s) : ∃ t, Machine.execDictWrite path s = .next t ∧ Keeps r t :=
  ⟨_, rfl, h.dictServe⟩

theorem substituteProgram {ctx idx p} (h : Keeps r s) : Keeps r (Machine.substituteProgram ctx idx p s) := by
  unfold Machine.substituteProgram
  split
  · exact h
  · rename_i m g _
    extract_lets roles put step
    refine .ite h ?_
    split
    · rename_i he
      refine foldl_option_of (fun a : Program × Model × State => a.2.2) (fun hb hc => ?_) (fun b hb => ?_) he
      · obtain ⟨⟨_, _, _⟩, hp, rfl⟩ := Option.map_eq_some_iff.1 hc
        have hv := Keeps.placeOne hb (ok_of_toOption hp)
        dsimp only [put]
        exact hv.modelSet
      · cases hb
        exact h
    · exact h.modelSet.foldS fun _ _ ht => ht.suspendSoon

theorem substitute {p} (h : Keeps r s) : Keeps r (Machine.substitute p s) :=
  h.pierSet.foldS fun _ _ ht => ht.substituteProgram

theorem losePier {p} (h : Keeps r s) : Keeps r (Machine.losePier p s) := h.substitute.rebuildFor

theorem fenceOne {d source} (h : Keeps r s) : Keeps r (Machine.fenceOne d source s) := by
  unfold Machine.fenceOne
  extract_lets x resets flt dk s0 s1 s2
  have h0 : Keeps r s0 := h.upd
  have h2 : Keeps r s2 := .ite h0.pdSet.nextWake h0.pdSet
  clear_value s2
  split
  · exact h
  split
  · exact h0.fenceEnd
  · exact .ite h2.stopPier.losePier (.ite h2.startQmove (.ite h2.closeCache h2))

theorem fenceDomain {d source} (h : Keeps r s) : Keeps r (Machine.fenceDomain d source s) :=
  .ite (h.foldS fun _ _ ht => ht.fenceOne).fenceOne h.fenceOne

theorem fenceBlock {b source} (h : Keeps r s) : Keeps r (Machine.fenceBlock b source s) := by
  unfold Machine.fenceBlock
  split
  · exact h.fenceDomain
  · exact h.fencePort.blockReply
  · exact h
  · exact h.partnerLost.blockReply

theorem execFence {b source} (h : Keeps r s) : ∃ t, Machine.execFence b source s = .next t ∧ Keeps r t := by
  refine ⟨_, rfl, ?_⟩
  split
  · exact h
  · exact .ite h (.ite h.dropMsg (.ite h.dropMsg.handover h.dropMsg.fenceBlock))

theorem resetOverruns {d x} (h : Keeps r s) : Keeps r (Machine.resetOverruns d x s) := h.upd.fenceEnd.losePier

theorem execBlkrstEnd {b} (h : Keeps r s) : ∃ t, Machine.execBlkrstEnd b s = .next t ∧ Keeps r t := by
  refine ⟨_, rfl, ?_⟩
  split
  · exact h
  · refine .ite ?_ ?_
    · exact h
    · split
      · exact h.resetOverruns
      · split
        · exact h.upd.blockReply.pdSet.copyBack.reloadCodebook.resample
        · exact h.upd.blockReply

theorem execBlkrstTimeout {b} (h : Keeps r s) : ∃ t, Machine.execBlkrstTimeout b s = .next t ∧ Keeps r t := by
  refine ⟨_, rfl, ?_⟩
  split
  · exact .ite h.resetOverruns h
  · exact h

end Keeps

/-- Every command answers a next state, to which it keeps what is kept. -/
theorem exec_keeps (c : Instr) (s : State) : ∃ t, exec c s = .next t ∧ Keeps s t := by
  have h := Keeps.refl s
  cases c with
  | paceUpdate => exact h.execPaceUpdate
  | paceTargetWrite => exact h.execPaceTargetWrite
  | trimInterval => exact h.execTrimInterval
  | trimAck => exact h.execTrimAck
  | trimRefused => exact h.execTrimRefused
  | trimTimeout => exact h.execTrimTimeout
  | trestleDispatch => exact h.execTrestleDispatch
  | arrayStep => exact h.execArrayStep
  | codebookLoad => exact h.execCodebookLoad
  | skiveFrameDecode => exact h.execSkiveFrameDecode
  | matvec => exact h.execMatvec
  | matmul => exact h.execMatmul
  | attend => exact h.execAttend
  | norm => exact h.execNorm
  | elem => exact h.execElem
  | reduce => exact h.execReduce
  | route => exact h.execRoute
  | sample => exact h.execSample
  | gather => exact h.execGather
  | scatter => exact h.execScatter
  | offload => exact h.execOffload
  | barrier => exact h.execBarrier
  | waitReread => exact h.execWaitReread
  | signal => exact h.execSignal
  | halt => exact h.execHalt
  | stitchTimeout => exact h.execStitchTimeout
  | offloadTimeout => exact h.execOffloadTimeout
  | rawRunEnd => exact h.execRawRunEnd
  | memoryRead => exact h.execMemoryRead
  | memoryWrite => exact h.execMemoryWrite
  | regionValidSet => exact h.execRegionValidSet
  | regionValidClear => exact h.execRegionValidClear
  | regionLock => exact h.execRegionLock
  | mirrorRebuildEnd => exact h.execMirrorRebuildEnd
  | patrolScrub => exact h.execPatrolScrub
  | refresh => exact h.execRefresh
  | selfRefreshEntry => exact h.execSelfRefreshEntry
  | selfRefreshExit => exact h.execSelfRefreshExit
  | sqTailWrite => exact h.execSqTailWrite
  | sqFetch => exact h.execSqFetch
  | submit => exact h.execSubmit
  | suspend => exact h.execSuspend
  | resume => exact h.execResume
  | cancel => exact h.execCancel
  | query => exact h.execQuery
  | setPriority => exact h.execSetPriority
  | loadModel => exact h.execLoadModel
  | unload => exact h.execUnload
  | burnish => exact h.execBurnish
  | rotateKey => exact h.execRotateKey
  | migrate => exact h.execMigrate
  | longopUnit => exact h.execLongopUnit
  | batchBoundary => exact h.execBatchBoundary
  | recordFlush => exact h.execRecordFlush
  | recordWrite => exact h.execRecordWrite
  | deadlineCheck => exact h.execDeadlineCheck
  | kvSpillDone => exact h.execKvSpillDone
  | kvReadbackDone => exact h.execKvReadbackDone
  | viaductFrame => exact h.execViaductFrame
  | fastRetrainTimeout => exact h.execFastRetrainTimeout
  | trainStepDone => exact h.execTrainStepDone
  | trainStepTimeout => exact h.execTrainStepTimeout
  | trainRestart => exact h.execTrainRestart
  | pairKxRecord => exact h.execPairKxRecord
  | journalWrite => exact h.execJournalWrite
  | journalAck => exact h.execJournalAck
  | journalImage => exact h.execJournalImage
  | cursorUpdate => exact h.execCursorUpdate
  | cursorInterval => exact h.execCursorInterval
  | windowRead => exact h.execWindowRead
  | windowReadData => exact h.execWindowReadData
  | windowWrite => exact h.execWindowWrite
  | windowWriteAck _ status => exact h.execWindowWriteAck (_status := status)
  | timeSyncInterval => exact h.execTimeSyncInterval
  | timeSync => exact h.execTimeSync
  | tsSlew => exact h.execTsSlew
  | timeEcho => exact h.execTimeEcho
  | timeEchoReply tag tSend => exact h.execTimeEchoReply (_tag := tag) (_tSend := tSend)
  | heartbeatInterval => exact h.execHeartbeatInterval
  | healthBeat => exact h.execHealthBeat
  | presenceLossTimeout => exact h.execPresenceLossTimeout
  | bHoldoffExpiry => exact h.execBHoldoffExpiry
  | fenceWaitExpiry => exact h.execFenceWaitExpiry
  | streamTakeover => exact h.execStreamTakeover
  | pairWaitExpiry => exact h.execPairWaitExpiry
  | remirrorSlow => exact h.execRemirrorSlow
  | pairRelease => exact h.execPairRelease
  | pairDiscard => exact h.execPairDiscard
  | pbCtlWrite => exact h.execPbCtlWrite
  | prtPrsntN => exact h.execPrtPrsntN
  | prtAtnbtnN => exact h.execPrtAtnbtnN
  | linkUp => exact h.execLinkUp
  | linkRetrain => exact h.execLinkRetrain
  | linkDrop => exact h.execLinkDrop
  | perst => exact h.execPerst
  | hotReset => exact h.execHotReset
  | cxlReset => exact h.execCxlReset
  | flr => exact h.execFlr
  | flrComplete => exact h.execFlrComplete
  | bmeClear => exact h.execBmeClear
  | bmeSet => exact h.execBmeSet
  | d3hotEntry => exact h.execD3hotEntry
  | hdmCommit => exact h.execHdmCommit
  | hostMemAccess => exact h.execHostMemAccess
  | biconflict => exact h.execBiconflict
  | bar4Access => exact h.execBar4Access
  | unsupportedRequest => exact h.execUnsupportedRequest
  | expansionRomRead => exact h.execExpansionRomRead
  | flashReadTimeout => exact h.execFlashReadTimeout
  | ctxBind => exact h.execCtxBind
  | ctxUnbind => exact h.execCtxUnbind
  | bindLockoutExpiry => exact h.execBindLockoutExpiry
  | qpArm => exact h.execQpArm
  | qpDisarm => exact h.execQpDisarm
  | qpDisarmComplete => exact h.execQpDisarmComplete
  | cqHeadWrite => exact h.execCqHeadWrite
  | completionWrite => exact h.execCompletionWrite
  | coalTimeout => exact h.execCoalTimeout
  | msixUnmask => exact h.execMsixUnmask
  | intxClear => exact h.execIntxClear
  | hostReadCompletion => exact h.execHostReadCompletion
  | completionTimeout => exact h.execCompletionTimeout
  | lateCompletion => exact h.execLateCompletion
  | tagQuarantineExpiry => exact h.execTagQuarantineExpiry
  | ideFailure => exact h.execIdeFailure
  | rdS => exact h.execRdS
  | rdX => exact h.execRdX
  | upg => exact h.execUpg
  | rdCur => exact h.execRdCur
  | wb => exact h.execWb
  | cevict => exact h.execCevict
  | wrInv => exact h.execWrInv
  | flush => exact h.execFlush
  | snpS => exact h.execSnpS
  | snpInv => exact h.execSnpInv
  | snpCur => exact h.execSnpCur
  | snpClean => exact h.execSnpClean
  | rspI => exact h.execRspI
  | rspIWb => exact h.execRspIWb
  | rspS => exact h.execRspS
  | rspFwd => exact h.execRspFwd
  | fwdData => exact h.execFwdData
  | cmp => exact h.execCmp
  | grantAck => exact h.execGrantAck
  | grantHoldExpiry => exact h.execGrantHoldExpiry
  | wbAck => exact h.execWbAck
  | retry => exact h.execRetry
  | goRetry => exact h.execGoRetry
  | trackInc => exact h.execTrackInc
  | trackIncAck => exact h.execTrackIncAck
  | trackDec => exact h.execTrackDec
  | homeTimeout => exact h.execHomeTimeout
  | homeMoveDone => exact h.execHomeMoveDone
  | qmoveSweepEnd => exact h.execQmoveSweepEnd
  | forcedSwWrite => exact h.execForcedSwWrite
  | dcRead => exact h.execDcRead
  | dcStore => exact h.execDcStore
  | dcFence => exact h.execDcFence
  | mergeTimeout => exact h.execMergeTimeout
  | dcRangeInv => exact h.execDcRangeInv
  | dcRangeInvEnd => exact h.execDcRangeInvEnd
  | walk => exact h.execWalk
  | atsTranslationCompletion => exact h.execAtsTranslationCompletion
  | prgResponse => exact h.execPrgResponse
  | priTimeout => exact h.execPriTimeout
  | prgQuarantineExpiry => exact h.execPrgQuarantineExpiry
  | priEnable => exact h.execPriEnable
  | atsInvalidate => exact h.execAtsInvalidate
  | atsInvalidateCompletion => exact h.execAtsInvalidateCompletion
  | transferDescriptor => exact h.execTransferDescriptor
  | transferChunkEnd => exact h.execTransferChunkEnd
  | heatDecay => exact h.execHeatDecay
  | hotRingEnable => exact h.execHotRingEnable
  | ctxRootWrite => exact h.execCtxRootWrite
  | pteFormatValidate => exact h.execPteFormatValidate
  | girthFlit => exact h.execGirthFlit
  | girthKeepalive => exact h.execGirthKeepalive
  | girthLinkIdleTimeout => exact h.execGirthLinkIdleTimeout
  | girthRetrainEnd => exact h.execGirthRetrainEnd
  | hRd => exact h.execHRd
  | hWr => exact h.execHWr
  | offloadItemSend => exact h.execOffloadItemSend
  | offloadCmp => exact h.execOffloadCmp
  | abortDone => exact h.execAbortDone
  | abortTicksExpiry => exact h.execAbortTicksExpiry
  | hello => exact h.execHello
  | credit => exact h.execCredit
  | ready => exact h.execReady
  | quiesceDone => exact h.execQuiesceDone
  | chipletError => exact h.execChipletError
  | girthKeyExchange => exact h.execGirthKeyExchange
  | gpStart => exact h.execGpStart
  | gpPwrgd => exact h.execGpPwrgd
  | girthTrainDone => exact h.execGirthTrainDone
  | girthStartTimeout => exact h.execGirthStartTimeout
  | gpStop => exact h.execGpStop
  | gpFence => exact h.execGpFence
  | gpPrsntN => exact h.execGpPrsntN
  | girthSweepEnd => exact h.execGirthSweepEnd
  | deckTimeout => exact h.execDeckTimeout
  | ttagQuarantineExpiry => exact h.execTtagQuarantineExpiry
  | domainOff _ ttag => exact h.execDomainOff (ttag := ttag)
  | routeRetire => exact h.execRouteRetire
  | pdReqOff => exact h.execPdReqOff
  | pdReqOn => exact h.execPdReqOn
  | domainPowerDrop => exact h.execDomainPowerDrop
  | domainWakeEnd => exact h.execDomainWakeEnd
  | join => exact h.execJoin
  | bcast => exact h.execBcast
  | andOp => exact h.execAndOp
  | snap => exact h.execSnap
  | resetOp => exact h.execResetOp
  | faultLatch => exact h.execFaultLatch
  | failingBeatSent => exact h.execFailingBeatSent
  | trap => exact h.execTrap
  | fence => exact h.execFence
  | fenceDrainTimeout => exact h.execFenceDrainTimeout
  | blkrst => exact h.execBlkrst
  | blkrstEnd => exact h.execBlkrstEnd
  | blkrstTimeout => exact h.execBlkrstTimeout
  | fenceReply => exact h.execFenceReply
  | faultClear => exact h.execFaultClear
  | fsCfgWrite => exact h.execFsCfgWrite
  | fcLock => exact h.execFcLock
  | fsCfgSweep => exact h.execFsCfgSweep
  | safeEnter => exact h.execSafeEnter
  | getVersion => exact h.execGetVersion
  | getCapabilities => exact h.execGetCapabilities
  | negotiateAlgorithms => exact h.execNegotiateAlgorithms
  | getDigests => exact h.execGetDigests
  | getCertificate => exact h.execGetCertificate
  | challenge => exact h.execChallenge
  | getMeasurements => exact h.execGetMeasurements
  | keyExchange => exact h.execKeyExchange
  | finish => exact h.execFinish
  | heartbeat => exact h.execHeartbeat
  | keyUpdate => exact h.execKeyUpdate
  | endSession => exact h.execEndSession
  | chunkSend => exact h.execChunkSend
  | chunkGet _ handle => exact h.execChunkGet (handle := handle)
  | encapsulatedResponse => exact h.execEncapsulatedResponse
  | ideKm => exact h.execIdeKm
  | ctxSelect => exact h.execCtxSelect
  | ctxCreate => exact h.execCtxCreate
  | keyRelease => exact h.execKeyRelease
  | retire => exact h.execRetire
  | ctxAdmitWrite => exact h.execCtxAdmitWrite
  | powerOn => exact h.execPowerOn
  | modRstNFall => exact h.execModRstNFall
  | modRstNRise => exact h.execModRstNRise
  | startStepEnd => exact h.execStartStepEnd
  | startStepTimeout => exact h.execStartStepTimeout
  | startupDone => exact h.execStartupDone
  | railAlert => exact h.execRailAlert
  | pmReadTimeout => exact h.execPmReadTimeout
  | thermalReading => exact h.execThermalReading
  | thermalTimeout => exact h.execThermalTimeout
  | vcoreOutOfRange => exact h.execVcoreOutOfRange
  | jtagInstruction => exact h.execJtagInstruction
  | usdoUploadInitiate => exact h.execUsdoUploadInitiate
  | usdoDownloadInitiate => exact h.execUsdoDownloadInitiate
  | usdoSegment => exact h.execUsdoSegment
  | usdoTimeout => exact h.execUsdoTimeout
  | classicCanFrame => exact h.execClassicCanFrame
  | nmtStart => exact h.execNmtStart
  | nmtStop => exact h.execNmtStop
  | nmtPreOperational => exact h.execNmtPreOperational
  | nmtResetNode => exact h.execNmtResetNode
  | nmtResetCommunication => exact h.execNmtResetCommunication
  | lssConfigureNodeId => exact h.execLssConfigureNodeId
  | lssStoreConfiguration => exact h.execLssStoreConfiguration
  | canHeartbeat => exact h.execCanHeartbeat
  | emcyInhibitExpiry => exact h.execEmcyInhibitExpiry
  | dictRead => exact h.execDictRead
  | dictWrite => exact h.execDictWrite
  | sbGo => exact h.execSbGo
  | sbAck => exact h.execSbAck
  | sbBind => exact h.execSbBind
  | sbLock => exact h.execSbLock
  | sbHostMaskWrite => exact h.execSbHostMaskWrite
  | traceRecord => exact h.execTraceRecord
  | tracePortSend => exact h.execTracePortSend
  | traceRingWrite => exact h.execTraceRingWrite
  | traceBufEnable => exact h.execTraceBufEnable
  | snapGo => exact h.execSnapGo
  | snapshotEnd => exact h.execSnapshotEnd
  | registerWrite => exact h.execRegisterWrite
  | viaductFrameSend => exact h.execViaductFrameSend
  | cxlResetComplete => exact h.execCxlResetComplete
  | prefillRunEnd => exact h.execPrefillRunEnd
  | canErrorState => exact h.execCanErrorState

theorem tick_keeps (s : State) : Keeps s (tick s) := { Keeps.refl s with ticks := Nat.le_succ _ }

/-- Every step answers a next state; it keeps what is kept from the state whose queue has lost its front command. -/
theorem step_keeps (s : State) : ∃ t, step s = .next t ∧ Keeps { s with pending := s.pending.tail } t := by
  unfold step
  split
  case h_1 hp => exact ⟨_, rfl, { tick_keeps s with pending := by rw [hp]; exact hp }⟩
  case h_2 c rest hp =>
    rw [hp]
    exact exec_keeps c _

theorem keeps_of_step {s t : State} (h : step s = .next t) : Keeps { s with pending := s.pending.tail } t := by
  obtain ⟨_, he, hk⟩ := step_keeps s
  cases h.symm.trans he
  exact hk

/-- A run of any length ends in a next state. -/
theorem runFrom_next (n : Nat) (s : State) : ∃ t, runFrom n s = .next t := by
  induction n generalizing s with
  | zero => exact ⟨s, rfl⟩
  | succ n ih =>
    obtain ⟨t, ht, _⟩ := step_keeps s
    rw [runFrom, ht]
    exact ih t

/-- Settles O1: `step` is that match. -/
theorem stepRunsFrontCommand : Obligations.StepRunsFrontCommand := fun _ _ _ => rfl

/-- Settles O2: with nothing waiting, a step is one tick. -/
theorem emptyQueuePassesOneEdge : Obligations.EmptyQueuePassesOneEdge := by
  intro s hp
  simp [step, hp, tick]

/-- Settles O3: no command ends in a fault or a refusal. -/
theorem everyCommandAnswersNext : Obligations.EveryCommandAnswersNext := fun c s =>
  let ⟨t, ht, _⟩ := exec_keeps c s
  ⟨t, ht⟩

/-- Settles O4, by induction on the number of steps. -/
theorem everyRunIsSafe : Obligations.EveryRunIsSafe := runFrom_next

/-- Settles O58. -/
theorem stepsKeepMemoryAndQueue : Obligations.StepsKeepMemoryAndQueue := by
  intro s t h
  have hk := keeps_of_step h
  exact ⟨fun ⟨hc, hs⟩ => ⟨hk.cells hc, hk.scratch hs⟩, hk.pending, hk.ticks⟩

/-- Settles O59. -/
theorem lifecycleOnlyMovesForward : Obligations.LifecycleOnlyMovesForward := by
  intro s t h
  have hk := keeps_of_step h
  exact ⟨hk.lifecycle, hk.minSvn⟩

end Sys2Proof.Machine
end

section
/-!
PROOFS of O5 and O6: the reset state, and the pace and trim registers.
-/
namespace Sys2Proof.Machine

theorem alive_reset : alive State.reset = true := rfl

theorem srcGet_reset (n : Nat) : srcGet State.reset n = srcReset n := rfl

/-- Settles O5. -/
theorem resetLeavesTheResetValues : Obligations.ResetLeavesTheResetValues := by
  refine ⟨rfl, rfl, rfl, srcGet_reset, ?_, rfl, rfl, rfl, rfl, rfl, rfl, rfl, rfl, fun _ => rfl, fun _ => rfl, rfl,
    fun _ => rfl, ⟨rfl, rfl⟩, ⟨by decide, by decide, by decide⟩, rfl, rfl⟩
  intro n c
  rw [srcGet_reset]
  cases c <;> rfl

/-- The least of the counts is the one that no other falls below. -/
theorem foldl_min_eq {l : List W16} {m : W16} {k : Nat} (hm : m ∈ l ∨ k = m.toNat) (hk : m.toNat ≤ k)
    (hall : ∀ c ∈ l, m.toNat ≤ c.toNat) : l.foldl (fun m c => min m c.toNat) k = m.toNat := by
  induction l generalizing k with
  | nil => simpa using hm
  | cons c l ih =>
    have hc := hall c (by simp)
    refine ih ?_ (Nat.le_min.2 ⟨hk, hc⟩) fun d hd => hall d (by simp [hd])
    rcases hm with hm | hm
    · rcases List.mem_cons.1 hm with rfl | hm
      · exact .inr (Nat.min_eq_right hk)
      · exact .inl hm
    · exact .inr (hm ▸ Nat.min_eq_left (hm ▸ hc))

theorem slowestCount_eq {counts : List W16} {m : W16} (hm : m ∈ counts) (hall : ∀ c ∈ counts, m.toNat ≤ c.toNat) :
    slowestCount counts = m.toNat :=
  foldl_min_eq (.inl hm) (by have := m.isLt; omega) hall

theorem execPaceUpdate_due {counts : List W16} {m : W16} {s : State} (hm : m ∈ counts) (hall : ∀ c ∈ counts, m.toNat ≤ c.toNat)
    (h16 : 16 ≤ m.toNat) (ha : alive s = true) (hd : s.pace.nextUpdate ≤ s.ticks) :
    execPaceUpdate counts s = .next { s with
      freeCtr := s.freeCtr + 1
      pace := { s.pace with stagePs := BitVec.ofNat 16 ((1000000 + m.toNat - 1) / m.toNat), valid := true
                            updSeq := s.pace.updSeq + 1, nextUpdate := s.pace.nextUpdate + 100 } } := by
  simp [execPaceUpdate, ha, due, hd, drawFree, slowestCount_eq hm hall, stagePsOf, h16]

theorem execPaceTargetWrite_writable {value : W32} {s : State} (hw : writable s = true) :
    execPaceTargetWrite value s = .next { s with pace := { s.pace with
      targetPs := BitVec.ofNat 16 (max 300 (min 480 (value.toNat % 65536))), trimEn := value.getLsbD 31
      nextTrim := if value.getLsbD 31 = true ∧ s.pace.trimEn = false then s.ticks + 1 else s.pace.nextTrim } } := by
  simp [execPaceTargetWrite, hw, setPaceTarget, clampTarget, fld]

theorem writable_of {s : State} (ha : alive s = true) (hs : s.faults.safe = false) : writable s = true := by
  simp [writable, ha, hs]

section
variable {s : State} (hw : writable s = true) (ht : s.pace.trimEn = true) (hd : s.pace.nextTrim ≤ s.ticks)
include hw ht hd

theorem execTrimInterval_asked (hr : s.pace.request ≠ none) :
    execTrimInterval s = .next { s with pace := { s.pace with nextTrim := s.pace.nextTrim + 10000 } } := by
  simp [execTrimInterval, hw, ht, due, hd, Option.isSome_iff_ne_none.2 hr]

theorem execTrimInterval_slow (hr : s.pace.request = none) (hs : s.pace.targetPs.toNat + 4 < s.pace.stagePs.toNat)
    (hv : s.pace.vcoreMv.toNat < 800) :
    execTrimInterval s = .next (requestVcore (s.pace.vcoreMv + 5)
      { s with pace := { s.pace with nextTrim := s.pace.nextTrim + 10000 } }) := by
  simp [execTrimInterval, hw, ht, due, hd, hr, hs, hv]

theorem execTrimInterval_fast (hr : s.pace.request = none) (hf : s.pace.stagePs.toNat + 4 < s.pace.targetPs.toNat)
    (hv : 700 < s.pace.vcoreMv.toNat) :
    execTrimInterval s = .next (requestVcore (s.pace.vcoreMv - 5)
      { s with pace := { s.pace with nextTrim := s.pace.nextTrim + 10000 } }) := by
  have hslow : ¬ s.pace.targetPs.toNat + 4 < s.pace.stagePs.toNat := by omega
  have hfast : s.pace.stagePs.toNat < s.pace.targetPs.toNat - 4 := by omega
  simp [execTrimInterval, hw, ht, due, hd, hr, hslow, hfast, hv]

theorem execTrimInterval_steady (hr : s.pace.request = none)
    (hs : ¬ (s.pace.targetPs.toNat + 4 < s.pace.stagePs.toNat ∧ s.pace.vcoreMv.toNat < 800))
    (hf : ¬ (s.pace.stagePs.toNat + 4 < s.pace.targetPs.toNat ∧ 700 < s.pace.vcoreMv.toNat)) :
    execTrimInterval s = .next { s with pace := { s.pace with nextTrim := s.pace.nextTrim + 10000 } } := by
  have hfast : ¬ (s.pace.stagePs.toNat < s.pace.targetPs.toNat - 4 ∧ 700 < s.pace.vcoreMv.toNat) := by omega
  simp only [execTrimInterval, hw, ht, due, hd, hr, Bool.and_eq_true, decide_eq_true_eq, hs, hfast]
  rfl

end

/-- A request in time is answered; from its deadline on it is given up. -/
theorem trimAnswers_inTime {mv : BitVec 10} {d : Nat} {s : State} (hr : s.pace.request = some (mv, d)) (hd : s.ticks < d) :
    execTrimAck s = .next { s with pace := { s.pace with vcoreMv := mv, request := none, pmRefused := false } } ∧
      execTrimRefused s = .next { s with pace := { s.pace with request := none, pmRefused := true } } ∧
      execTrimTimeout s = .next s := by
  have hn : due d s = false := by simp [due, hd]
  simp [execTrimAck, execTrimRefused, execTrimTimeout, hr, hn]

theorem trimAnswers_late {mv : BitVec 10} {d : Nat} {s : State} (hr : s.pace.request = some (mv, d)) (hd : d ≤ s.ticks) :
    execTrimAck s = .next (trimLost s) ∧ execTrimRefused s = .next (trimLost s) ∧ execTrimTimeout s = .next (trimLost s) := by
  have hn : due d s = true := by simp [due, hd]
  simp [execTrimAck, execTrimRefused, execTrimTimeout, hr, hn]

/-- Settles O6. -/
theorem paceAndTrim : Obligations.PaceAndTrim := by
  refine ⟨fun _ _ _ hm hall h16 ha hd => execPaceUpdate_due hm hall h16 ha hd,
    fun _ _ ha hs => execPaceTargetWrite_writable (writable_of ha hs), ?_, ?_⟩
  · intro s ha hs ht hd
    have hw := writable_of ha hs
    exact ⟨execTrimInterval_asked hw ht hd, fun hr => ⟨execTrimInterval_slow hw ht hd hr, execTrimInterval_fast hw ht hd hr,
      execTrimInterval_steady hw ht hd hr⟩⟩
  · intro mv d s hr
    refine ⟨trimAnswers_inTime hr, fun hd c hc => ?_⟩
    obtain ⟨hack, hrefused, htimeout⟩ := trimAnswers_late hr hd
    rcases hc with rfl | rfl | rfl
    · exact hack
    · exact hrefused
    · exact htimeout

end Sys2Proof.Machine
end

section
/-!
PROOFS of O7, O8 and O9: the trace store, its destinations, and the snapshots.
-/
namespace Sys2Proof.Machine

/-- The places of both destinations stay in the store, counted or not. -/
theorem TraceStoreSound.traceTrim {s : State} (h : TraceStoreSound s) : TraceStoreSound (traceTrim s) :=
  traceTrim_sound h.1 h.2.1 h.2.2

/-- A destination enabled that is not a stalled ring keeps the newest record from being freed. -/
theorem taken_skipRing_le {o : Observe} {st : Bool} {n : Nat} (hp : o.portPos ≤ n) (hr : o.ringPos ≤ n)
    (h : o.portEn = true ∨ o.bufEn = false ∨ st = false) : (o.skipRing st).taken ≤ n := by
  unfold Observe.skipRing
  split
  · rename_i hs
    have hport : o.portEn = true := by
      simp only [Bool.and_eq_true] at hs
      rcases h with h | h | h
      · exact h
      · rw [hs.1.1] at h; cases h
      · rw [hs.1.2] at h; cases h
    simp only [Observe.taken, hport]
    split <;> simp <;> omega
  · unfold Observe.taken
    (repeat' split) <;> omega

/-- The record appended last is still the last one of the trimmed store. -/
theorem getLast?_traceTrim {s : State} {l : List TraceRec} {r : TraceRec} (hl : s.obs.store = l ++ [r])
    (hp : s.obs.portPos ≤ l.length) (hr : s.obs.ringPos ≤ l.length)
    (h : s.obs.portEn = true ∨ s.obs.bufEn = false ∨ ringStalled s = false) :
    (traceTrim s).obs.store.getLast? = some r := by
  have ht := taken_skipRing_le hp hr h
  have hstore : (s.obs.skipRing (ringStalled s)).store = s.obs.store := by
    unfold Observe.skipRing
    split <;> rfl
  show ((s.obs.skipRing (ringStalled s)).store.drop _).getLast? = some r
  rw [hstore, hl, List.drop_append_of_le_length ht, List.getLast?_append]
  rfl

/-- An event of Table 17-2 with room in the store is recorded, and the store is trimmed. -/
theorem trace_of_room {ev : Nat} {unit : BitVec 9} {a b : Nat} {s : State} (hev : ev ∈ traceEvents)
    (hen : s.obs.eventEn.getLsbD ev = true) (hroom : s.obs.store.length < 2048) :
    trace ev unit a b s = traceTrim (count 2764 { s with obs := { s.obs with
      store := s.obs.store ++ [⟨BitVec.ofNat 8 ev, unit, s.obs.nextSeq, s.tsNow, BitVec.ofNat 64 a, BitVec.ofNat 64 b⟩]
      nextSeq := s.obs.nextSeq + 1 } }) := by
  unfold trace
  rw [if_neg (by simp [hev, hen]), if_neg (by omega)]

/-- An event of Table 17-2 with the store full is lost. -/
theorem trace_of_full {ev : Nat} {unit : BitVec 9} {a b : Nat} {s : State} (hev : ev ∈ traceEvents)
    (hen : s.obs.eventEn.getLsbD ev = true) (hfull : 2048 ≤ s.obs.store.length) :
    trace ev unit a b s = count 2765 { s with obs := { s.obs with portLost := true, ringLost := true } } := by
  unfold trace
  rw [if_neg (by simp [hev, hen]), if_pos hfull]

/-- Settles O7. -/
theorem traceRecordIsKeptOrLost : Obligations.TraceRecordIsKeptOrLost := by
  intro event unit a b s ha hev hen hsound
  have hexec : exec (.traceRecord event unit a b) s = .next (trace event.toNat unit a.toNat b.toNat s) := by
    show execTraceRecord event unit a b s = _
    rw [execTraceRecord, ha]
    rfl
  obtain ⟨hlen, hport, hring⟩ := hsound
  refine ⟨_, hexec, ?_, trace_sound _ _ _ _ hlen hport hring, fun hroom hdest => ?_, fun hfull => ?_⟩
  · obtain ⟨o, ho⟩ := trace_eq event.toNat unit a.toNat b.toNat s
    rw [ho]
  · rw [trace_of_room hev hen hroom]
    refine ⟨Eq.trans (getLast?_traceTrim (l := s.obs.store) rfl ?_ ?_ hdest) (by simp), (traceTrim_marks _).2.1⟩
    · exact hport
    · exact hring
  · rw [trace_of_full hev hen (Nat.le_of_eq hfull.symm)]
    exact ⟨rfl, rfl, rfl, tget_tset_self _ _ _ _⟩

theorem execTracePortSend_sent {r : TraceRec} {s : State} (ha : alive s = true) (hen : s.obs.portEn = true)
    (hr : s.obs.store[s.obs.portPos]? = some r) :
    execTracePortSend s = .next (traceTrim (count 2766 (emit (.traceRecord r s.obs.portLost)
      { s with obs := { s.obs with portPos := s.obs.portPos + 1, portLost := false } }))) := by
  simp [execTracePortSend, hr, hen, ha]

/-- The state after a ring write, its two host writes sent, before the store is trimmed. -/
def ringWritten (r : TraceRec) (s : State) : State :=
  let a := s.obs.bufBase.toNat * 4096 + 32 * (s.obs.ringW % ringSlots s)
  let b := r.bytes (BitVec.ofNat 8 (ringPhase s.obs.ringW (ringSlots s) + 2 * b2n s.obs.ringLost))
  count 2767 (hostWrite (BitVec.ofNat 64 a) none (b.take 2) (hostWrite (BitVec.ofNat 64 (a + 2)) none (b.drop 2)
    { s with obs := { s.obs with ringPos := s.obs.ringPos + 1, ringLost := false, ringW := s.obs.ringW + 1 } }))

theorem execTraceRingWrite_written {r : TraceRec} {s : State} (hen : s.obs.bufEn = true) (hst : ringStalled s = false)
    (hr : s.obs.store[s.obs.ringPos]? = some r) : execTraceRingWrite s = .next (traceTrim (ringWritten r s)) := by
  simp [execTraceRingWrite, hr, hen, hst, ringWritten]

theorem ringWritten_eq (r : TraceRec) (s : State) :
    ∃ o q, ringWritten r s = { s with obs := o, out := q } := by
  unfold ringWritten
  extract_lets a b
  obtain ⟨o, ho⟩ := hostWrite_eq (BitVec.ofNat 64 (a + 2)) none (b.drop 2)
    { s with obs := { s.obs with ringPos := s.obs.ringPos + 1, ringLost := false, ringW := s.obs.ringW + 1 } }
  rw [ho]
  exact ⟨_, _, rfl⟩

theorem ringStalled_ringWritten (r : TraceRec) (s : State) : ringStalled (ringWritten r s) = ringStalled s := by
  obtain ⟨o, q, ho⟩ := ringWritten_eq r s
  rw [ho]
  rfl

/-- A ring that is not stalled loses nothing in a trim. -/
theorem traceTrim_ringLost {s : State} (h : ringStalled s = false) : (traceTrim s).obs.ringLost = s.obs.ringLost := by
  show (s.obs.skipRing (ringStalled s)).free.ringLost = _
  rw [h, Observe.skipRing, if_neg (by simp)]
  rfl

/-- Settles O8. -/
theorem traceDestinationsTakeRecords : Obligations.TraceDestinationsTakeRecords := by
  constructor
  · intro r s ⟨hlen, hport, hring⟩ ha hen hr
    have hlt : s.obs.portPos < s.obs.store.length := (List.getElem?_eq_some_iff.1 hr).1
    refine ⟨_, execTracePortSend_sent ha hen hr, rfl, TraceStoreSound.traceTrim ⟨hlen, hlt, hring⟩, rfl, ?_⟩
    exact (traceTrim_marks _).1
  · intro r s ⟨hlen, hport, hring⟩ hen hst hr
    have hlt : s.obs.ringPos < s.obs.store.length := (List.getElem?_eq_some_iff.1 hr).1
    have hsound : TraceStoreSound (ringWritten r s) := ⟨hlen, hport, hlt⟩
    refine ⟨_, _, _, execTraceRingWrite_written hen hst hr, ?_, hsound.traceTrim, rfl, rfl, ?_, ?_, ?_⟩
    · obtain ⟨o, ho⟩ := traceTrim_eq (ringWritten r s)
      obtain ⟨o', q, ho'⟩ := ringWritten_eq r s
      rw [ho, ho']
    · simp [ringWritten, ringSlots, ringPhase, hostWrite, emit, count, countN, traceTrim]
    · show (traceTrim (ringWritten r s)).obs.ringW = _
      rw [(traceTrim_marks _).2.2.1]
      rfl
    · rw [traceTrim_ringLost ((ringStalled_ringWritten r s).trans hst)]
      rfl

/-- An event leaves the snapshot's registers alone. -/
theorem trace_snap (ev : Nat) (unit : BitVec 9) (a b : Nat) (s : State) :
    (trace ev unit a b s).obs.snapBusy = s.obs.snapBusy ∧ (trace ev unit a b s).obs.snapSeq = s.obs.snapSeq ∧
      (trace ev unit a b s).obs.snapBank = s.obs.snapBank := by
  have trim : ∀ t : State, (traceTrim t).obs.snapBusy = t.obs.snapBusy ∧ (traceTrim t).obs.snapSeq = t.obs.snapSeq ∧
      (traceTrim t).obs.snapBank = t.obs.snapBank := by
    intro t
    unfold traceTrim countN Observe.free Observe.skipRing
    dsimp only
    split <;> exact ⟨rfl, rfl, rfl⟩
  unfold trace
  split
  · exact ⟨rfl, rfl, rfl⟩
  · split
    · exact ⟨rfl, rfl, rfl⟩
    · exact trim _

/-- Settles O9. -/
theorem ringEnableAndSnapshots : Obligations.RingEnableAndSnapshots := by
  refine ⟨fun s ha hs hb => ?_, fun s ha hs hb => ?_, fun s ha hs hb => ?_, fun s hb => ?_⟩
  · show execTraceBufEnable s = _
    simp [execTraceBufEnable, writable_of ha hs, enableRing, hb]
  · show execSnapGo s = _
    simp [execSnapGo, writable_of ha hs, snapGo, hb]
  · show execSnapGo s = _
    simp [execSnapGo, writable_of ha hs, snapGo, hb]
  · have he : execSnapshotEnd s = .next (trace 0x48 uObserve (s.obs.snapSeq + 1).toNat 0 (count 2769
        { s with obs := { s.obs with snapBusy := false, snapSeq := s.obs.snapSeq + 1, snapBank := s.obs.snapCut } })) := by
      simp [execSnapshotEnd, hb]
    obtain ⟨o, ho⟩ := trace_eq 0x48 uObserve (s.obs.snapSeq + 1).toNat 0 (count 2769
        { s with obs := { s.obs with snapBusy := false, snapSeq := s.obs.snapSeq + 1, snapBank := s.obs.snapCut } })
    refine ⟨_, he, ?_, trace_snap _ _ _ _ _⟩
    rw [ho]
    rfl

end Sys2Proof.Machine
end

section
/-!
PROOFS of O10 and O11: the saddlebags.
-/
namespace Sys2Proof.Machine

theorem execSbGo_alive {c : Channel} {a : SbActor} {len : BitVec 5} {s : State} (ha : sbAlive a s = true) :
    execSbGo c a len s = .next (sbGo c.val a len s) := by
  rw [execSbGo, ha]
  rfl

theorem execSbAck_alive {c : Channel} {a : SbActor} {status detail : Byte} {s : State} (ha : sbAlive a s = true) :
    execSbAck c a status detail s = .next (sbAck c.val a status detail s) := by
  rw [execSbAck, ha]
  rfl

section
variable {c : Nat} {a : SbActor} {len : BitVec 5} {s : State}

theorem sbGo_sent (hb : (chanGet s c).bound = true) (hact : sbActs a (chanGet s c).sender = true)
    (hi : (chanGet s c).busy = false) (h8 : 8 ≤ len.toNat) (h16 : len.toNat ≤ 16) :
    sbGo c a len s = sbRing c (chanGet s c).receiver (chanSet c
      { chanGet s c with len := len, busy := true, goSeq := (chanGet s c).goSeq + 1 } s) := by
  have hlen : ¬ (len.toNat < 8 ∨ 16 < len.toNat) := by omega
  simp [sbGo, hb, hact, hi, hlen]

theorem sbGo_badLength (hb : (chanGet s c).bound = true) (hact : sbActs a (chanGet s c).sender = true)
    (hi : (chanGet s c).busy = false) (hlen : len.toNat < 8 ∨ 16 < len.toNat) :
    sbGo c a len s = chanSet c { chanGet s c with
      len := len, goSeq := (chanGet s c).goSeq + 1, ackSeq := (chanGet s c).goSeq + 1, status := 0x11, detail := 0 } s := by
  simp [sbGo, hb, hact, hi, hlen]

theorem sbGo_refused (h : (chanGet s c).bound = false ∨ sbActs a (chanGet s c).sender = false ∨ (chanGet s c).busy = true) :
    sbGo c a len s = count (2700 + c) s := by
  have h' : (!(chanGet s c).bound || !sbActs a (chanGet s c).sender || (chanGet s c).busy) = true := by
    rcases h with h | h | h <;> simp [h]
  simp only [sbGo, h', if_true]

theorem sbAck_taken {status detail : Byte} (hb : (chanGet s c).bound = true)
    (hact : sbActs a (chanGet s c).receiver = true) (hi : (chanGet s c).busy = true) :
    sbAck c a status detail s = sbTake c (chanGet s c).receiver (chanSet c
      { chanGet s c with ackSeq := (chanGet s c).goSeq, busy := false, status := status, detail := detail } s) := by
  simp [sbAck, hb, hact, hi]

end

/-- A receiver's doorbell changes no channel, and beside the saddlebags, the host port and the cores nothing. -/
theorem sbRing_eq (c : Nat) (r : Byte) (s : State) :
    ∃ x b h o, sbRing c r s = { s with trestle := x, sb := b, host := h, out := s.out ++ o } ∧
      ∀ n, chanGet (sbRing c r s) n = chanGet s n := by
  unfold sbRing
  split
  · have hch : ∀ n, chanGet (ringHost c s) n = chanGet s n := by
      intro n
      unfold ringHost
      dsimp only
      split
      · obtain ⟨h, o, e, -⟩ := interrupt_eq s.sb.hostVector { s with sb := { s.sb with
          hostDb := withBit s.sb.hostDb (c % 32), hostRxpend := withBit s.sb.hostRxpend c } }
        rw [e]
        rfl
      · rfl
    obtain ⟨b, h, o, e, -⟩ := ringHost_eq c s
    exact ⟨s.trestle, b, h, o, e, hch⟩
  · exact ⟨_, s.sb, s.host, [], by rw [List.append_nil]; rfl, fun _ => rfl⟩

theorem sbCore_one_ne_sbHost : sbCore 1 ≠ sbHost := by decide

/-- Core 1 as receiver gets its RXPEND bit and its doorbell bit. -/
theorem sbRing_core1 (c : Nat) (s : State) :
    (trestleGet (sbRing c (sbCore 1) s) 1).rxpend = withBit (trestleGet s 1).rxpend c ∧
      (trestleGet (sbRing c (sbCore 1) s) 1).doorbell = withBit (trestleGet s 1).doorbell (32 + c % 32) ∧
      (sbRing c (sbCore 1) s).host = s.host ∧ (sbRing c (sbCore 1) s).out = s.out := by
  rw [sbRing, if_neg sbCore_one_ne_sbHost]
  simp [ringDoorbell]

/-- Taking a message changes no channel, and beside the saddlebags and the cores nothing. -/
theorem sbTake_eq (c : Nat) (r : Byte) (s : State) :
    ∃ x b, sbTake c r s = { s with trestle := x, sb := b } ∧ ∀ n, chanGet (sbTake c r s) n = chanGet s n := by
  unfold sbTake
  split
  · exact ⟨s.trestle, _, rfl, fun _ => rfl⟩
  · exact ⟨_, s.sb, rfl, fun _ => rfl⟩

theorem sbTake_host (c : Nat) (s : State) : (sbTake c sbHost s).sb.hostRxpend = dropBit s.sb.hostRxpend c := rfl

theorem sbTake_core1 (c : Nat) (s : State) :
    (trestleGet (sbTake c (sbCore 1) s) 1).rxpend = dropBit (trestleGet s 1).rxpend c := by
  rw [sbTake, if_neg sbCore_one_ne_sbHost]
  simp

/-- Settles O10. -/
theorem saddlebagMessagesAreSentAndAcknowledged : Obligations.SaddlebagMessagesAreSentAndAcknowledged := by
  refine ⟨?_, ?_, ?_, ?_⟩
  · intro c a len s ha hb hact hi h8 h16
    refine ⟨_, execSbGo_alive ha, ?_⟩
    rw [sbGo_sent hb hact hi h8 h16]
    obtain ⟨x, b, h, o, he, hch⟩ := sbRing_eq c.val (chanGet s c.val).receiver (chanSet c.val
      { chanGet s c.val with len := len, busy := true, goSeq := (chanGet s c.val).goSeq + 1 } s)
    refine ⟨by rw [hch, chanGet_chanSet_self], fun n hn => by rw [hch, chanGet_chanSet_other _ _ hn], by rw [he]; rfl, ?_⟩
    intro hr
    rw [hr]
    exact sbRing_core1 c.val _
  · intro c a len s ha hb hact hi hlen
    exact (execSbGo_alive ha).trans (congrArg _ (sbGo_badLength hb hact hi hlen))
  · intro c a len s ha h
    exact (execSbGo_alive ha).trans (congrArg _ (sbGo_refused h))
  · intro c a status detail s ha hb hact hi
    refine ⟨_, execSbAck_alive ha, ?_⟩
    rw [sbAck_taken hb hact hi]
    obtain ⟨x, b, he, hch⟩ := sbTake_eq c.val (chanGet s c.val).receiver (chanSet c.val
      { chanGet s c.val with ackSeq := (chanGet s c.val).goSeq, busy := false, status := status, detail := detail } s)
    refine ⟨by rw [hch, chanGet_chanSet_self], fun n hn => by rw [hch, chanGet_chanSet_other _ _ hn], by rw [he]; rfl, ?_, ?_⟩
    · intro hr
      rw [hr, sbTake_host]
      rfl
    · intro hr
      rw [hr]
      exact sbTake_core1 c.val _

/-- A refused write is counted, and changes nothing but the observation unit. -/
theorem countIgnored_eq (off : Nat) (s : State) : ∃ o, countIgnored off s = { s with obs := o } := by
  unfold countIgnored
  (repeat' split) <;> exact ⟨_, rfl⟩

section
variable {c : Nat} {code : Byte} {s : State} (hl : s.sb.lock = false) (hi : (chanGet s c).busy = false)
  (hk : sbCodeOk code = true)
include hl hi hk

theorem sbBind_sender (h : (chanGet s c).sender ≠ code) :
    sbBind c false code s = chanSet c { sender := code, receiver := (chanGet s c).receiver } s := by
  simp [sbBind, hl, hi, hk, h]

theorem sbBind_receiver (h : (chanGet s c).receiver ≠ code) :
    sbBind c true code s = chanSet c { sender := (chanGet s c).sender, receiver := code } s := by
  simp [sbBind, hl, hi, hk, h]

theorem sbBind_held (h : (chanGet s c).sender = code) : sbBind c false code s = s := by
  simp [sbBind, hl, hi, hk, h]

end

theorem sbBind_refused {c : Nat} {r : Bool} {code : Byte} {s : State}
    (h : s.sb.lock = true ∨ (chanGet s c).busy = true ∨ sbCodeOk code = false) :
    sbBind c r code s = countIgnored (0xB8000 + 8 * c) s := by
  have h' : (s.sb.lock || (chanGet s c).busy || !sbCodeOk code) = true := by
    rcases h with h | h | h <;> simp [h]
  simp only [sbBind, h', if_true]

theorem execSbBind_writable {c : Channel} {r : Bool} {code : Byte} {s : State} (hw : writable s = true) :
    execSbBind c r code s = .next (sbBind c.val r code s) := by
  rw [execSbBind, hw]
  rfl

/-- Settles O11. -/
theorem saddlebagBindingAndMask : Obligations.SaddlebagBindingAndMask := by
  refine ⟨?_, ?_, ?_, ?_⟩
  · intro c code s ha hs hl hi hk
    have hw := writable_of ha hs
    exact ⟨fun h => (execSbBind_writable hw).trans (congrArg _ (sbBind_sender hl hi hk h)),
      fun h => (execSbBind_writable hw).trans (congrArg _ (sbBind_receiver hl hi hk h)),
      fun h => (execSbBind_writable hw).trans (congrArg _ (sbBind_held hl hi hk h))⟩
  · intro c r code s t h he
    by_cases hw : writable s = true
    · rw [← Host.Outcome.next.inj ((execSbBind_writable hw).symm.trans he), sbBind_refused h]
      obtain ⟨o, ho⟩ := countIgnored_eq (0xB8000 + 8 * c.val) s
      rw [ho]
    · have hsame : execSbBind c r code s = .next s := by rw [execSbBind, if_neg hw]
      rw [← Host.Outcome.next.inj (hsame.symm.trans he)]
  · intro s ha hs
    show execSbLock s = _
    rw [execSbLock, writable_of ha hs]
    rfl
  · intro v s hb
    have hopen : bar0Open s = true := by
      simp only [barOpen, Bool.and_eq_true] at hb
      exact hb.1
    show execSbHostMaskWrite v s = _
    simp [execSbHostMaskWrite, hopen, setHostMask]

end Sys2Proof.Machine
end

section
/-!
PROOFS of O12, O13 and O15: the collector's registers.
-/
namespace Sys2Proof.Machine

/-- What a latched event leaves of its source. -/
theorem event_fields (x : FaultSource) (c : FaultClass) (wire : Bool) (detail : Nat) (ts : W64) :
    (x.event c wire detail ts).status c = true ∧
      (∀ c', c' ≠ c → (x.event c wire detail ts).status c' = x.status c') ∧
      (x.event c wire detail ts).detail = BitVec.ofNat 32 detail ∧ (x.event c wire detail ts).count = satAdd x.count 1 ∧
      (x.event c wire detail ts).wire = (x.wire || wire) ∧
      (x.event c wire detail ts).firstTs = (if x.any then x.firstTs else ts) := by
  refine ⟨?_, fun c' h => ?_, rfl, rfl, rfl, rfl⟩
  · cases c <;> rfl
  · cases c <;> cases c' <;> first | rfl | exact absurd rfl h

/-- The trap list after a reaction set `r` of class `c` of source `n` has run. -/
def reactedTraps (n : Nat) (c : FaultClass) (r : BitVec 6) (s : State) : List (FaultClass × Nat) :=
  if s.faults.safe = false ∧ reactsNow s = true ∧ r &&& rTrap ≠ 0 then s.faults.traps ++ [(c, n)] else s.faults.traps

/-- A reaction set that resets nothing queues its trap, and may interrupt. -/
theorem react_traps (n : Nat) (c : FaultClass) (r : BitVec 6) (v : BitVec 11) (s : State) (h : noChipReset n r s) :
    ∃ p o, react n c r v s =
      { s with faults := { s.faults with traps := reactedTraps n c r s }, host := p, out := s.out ++ o } := by
  obtain ⟨t, p, o, he⟩ := react_eq n c r v s h
  refine ⟨p, o, he.trans ?_⟩
  suffices ht : (react n c r v s).faults.traps = reactedTraps n c r s by
    rw [he] at ht
    rw [← ht]
  clear he
  unfold react reactedTraps
  by_cases hq : (s.faults.safe || !reactsNow s) = true
  · rw [if_pos hq, if_neg (by rcases Bool.or_eq_true _ _ ▸ hq with hq | hq <;> simp_all)]
  · rw [if_neg hq]
    obtain ⟨hsafe, hnow⟩ : s.faults.safe = false ∧ reactsNow s = true := by simpa using hq
    have hi : ∃ p o, (if r &&& rInt ≠ 0 then interrupt v s else s) = { s with host := p, out := s.out ++ o } := by
      split
      · obtain ⟨p, o, e, -⟩ := interrupt_eq v s
        exact ⟨p, o, e⟩
      · exact ⟨s.host, [], by rw [List.append_nil]⟩
    obtain ⟨p, o, e⟩ := hi
    dsimp only
    rw [e]
    have hno : (r &&& rChiprst ≠ 0 && s.faults.handover.isNone && !(n = 2941 && s.power.phase = .failed)) = false := by
      rcases h with h | h | h | h | h
      · rw [hsafe] at h; cases h
      · rw [hnow] at h; cases h
      · simp [h]
      · simp [Option.isSome_iff_ne_none.1 h]
      · simp [h.1, h.2]
    by_cases ht : r &&& rTrap ≠ 0
    · simp only [if_pos ht]
      rw [if_neg (by simpa using hno), if_pos ⟨hsafe, hnow, ht⟩]
    · simp only [if_neg ht]
      rw [if_neg (by simpa using hno), if_neg fun hh => ht hh.2.2]

/-- The collector after the event: the source's registers, FIRST_FT, and the trap of a fresh status bit. -/
def latchedFaults (n : Nat) (c : FaultClass) (wire : Bool) (detail : Nat) (s : State) : Faults :=
  { s.faults with
    sources := tset srcReset s.faults.sources n ((srcGet s n).event c wire detail s.tsNow)
    firstFt := if c = .ft ∧ s.faults.firstFt = 0xFFF then BitVec.ofNat 12 n else s.faults.firstFt
    traps := if (srcGet s n).status c = true then s.faults.traps else reactedTraps n c ((srcGet s n).react c) s }

theorem latchRegs_faults (n : Nat) (c : FaultClass) (wire : Bool) (detail : Nat) (s : State) :
    latchRegs n c wire detail s = { s with faults := { s.faults with
      sources := tset srcReset s.faults.sources n ((srcGet s n).event c wire detail s.tsNow)
      firstFt := if c = .ft ∧ s.faults.firstFt = 0xFFF then BitVec.ofNat 12 n else s.faults.firstFt } } := by
  unfold latchRegs
  dsimp only
  by_cases h : c = .ft ∧ s.faults.firstFt = 0xFFF
  · rw [if_pos (by simpa using h), if_pos h]
    rfl
  · rw [if_neg (by simpa using h), if_neg h]
    rfl

/-- A latched event whose reaction set starts no chip reset: what the collector holds then, and that beyond it only the
trace, Milell, the interrupt registers and what leaves the block change. -/
theorem latch_faults {n : Nat} {cls c : FaultClass} {wire : Bool} {detail : Nat} {s : State}
    (hcls : latchClass n cls wire = c) (hs : sampled s n = true) (hc : (srcInfo n).can c = true)
    (h : noChipReset n ((srcGet s n).react c) s) :
    ∃ b m p o, latch n cls wire detail s =
      { s with faults := latchedFaults n c wire detail s, obs := b, milell := m, host := p, out := s.out ++ o } := by
  unfold latch
  rw [hcls]
  dsimp only
  rw [if_neg (by simp [hs, hc]), latchRegs_faults]
  generalize hf : ({ s.faults with
    sources := tset srcReset s.faults.sources n ((srcGet s n).event c wire detail s.tsNow)
    firstFt := if c = .ft ∧ s.faults.firstFt = 0xFFF then BitVec.ofNat 12 n else s.faults.firstFt } : Faults) = f
  obtain ⟨b, eb⟩ := trace_eq 0x01 uCollector (n + 4096 * clsCode c + 16384 * b2n wire) detail { s with faults := f }
  rw [eb]
  obtain ⟨m, b', o, em⟩ := emcyOf_eq n c (!(srcGet s n).status c) (wire && !(srcGet s n).wire) detail
    { s with faults := f, obs := b }
  rw [em]
  split
  · rename_i hst
    exact ⟨b', m, s.host, o, by simp [latchedFaults, hst, ← hf]⟩
  · rename_i hst
    have hn : noChipReset n ((srcGet s n).react c) { s with faults := f, obs := b', milell := m, out := s.out ++ o } := by
      simpa [noChipReset, reactsNow, ← hf] using h
    obtain ⟨p, o', er⟩ := react_traps n c _ (srcGet s n).vector _ hn
    rw [er]
    exact ⟨b', m, p, o ++ o', by subst hf; simp only [latchedFaults, if_neg hst, List.append_assoc]; rfl⟩

theorem srcGet_of_faults_eq {t : State} {f : Faults} (h : t.faults = f) (m : Nat) : srcGet t m = tget srcReset f.sources m := by
  rw [← h]
  rfl

/-- The source that a latched event is recorded in, and the others. -/
theorem srcGet_latched {n : Nat} {c : FaultClass} {wire : Bool} {detail : Nat} {s t : State}
    (h : t.faults = latchedFaults n c wire detail s) :
    srcGet t n = (srcGet s n).event c wire detail s.tsNow ∧ ∀ m, m ≠ n → srcGet t m = srcGet s m :=
  ⟨(srcGet_of_faults_eq h n).trans (tget_tset_self _ _ _ _),
    fun m hm => (srcGet_of_faults_eq h m).trans (tget_tset_other _ _ _ hm)⟩

/-- The source with its pair of class `cls` held asserted, as a wire fault finds it. -/
def holdAsserted (n : Nat) (cls : FaultClass) (s : State) : State :=
  srcSet n { srcGet s n with asserted := withBit (srcGet s n).asserted (clsCode cls - 1) } s

/-- What the collector notes of an event beside its source: a lost key slot, or a keystone directory set. -/
def noteEvent (n : Nat) (cls : FaultClass) (detail : W32) (s : State) : State :=
  if n = 2940 ∧ cls = .ft then { s with sec := { s.sec with slots := tset (fun _ => {}) s.sec.slots detail.toNat {} } }
  else if 1280 ≤ n ∧ n < 1344 ∧ cls = .uc then
    { s with coh := { s.coh with badSets := s.coh.badSets ++ [(n - 1280) * 32768 + detail.toNat % 32768] } }
  else s

section
variable {n : Fin 2944} {cls : FaultClass} {detail : W32} {s : State} (ha : alive s = true)
include ha

theorem execFaultLatch_wireFault :
    execFaultLatch n cls .wireFault detail s = .next (latch n cls true detail.toNat (holdAsserted n cls s)) := by
  simp [execFaultLatch, ha, holdAsserted]

theorem execFaultLatch_event (hl : (srcInfo n).level = false) (hs : sampled s n = true) :
    execFaultLatch n cls .event detail s = .next (noteEvent n cls detail (latch n cls false detail.toNat s)) := by
  have h2940 : n = 2940 ↔ n.val = 2940 := Fin.ext_iff
  simp [execFaultLatch, ha, hl, hs, noteEvent, h2940, and_assoc]

theorem execFaultLatch_level (hl : (srcInfo n).level = true) (hoff : (srcGet s n).asserted.getLsbD (clsCode cls - 1) = false) :
    execFaultLatch n cls .event detail s = .next (latch n cls false detail.toNat (holdAsserted n cls s)) := by
  simp [execFaultLatch, ha, hl, raiseLevel, hoff, holdAsserted]

theorem execFaultLatch_idle : execFaultLatch n cls .idle detail s =
    .next (srcSet n { srcGet s n with asserted := dropBit (srcGet s n).asserted (clsCode cls - 1) } s) := by
  simp [execFaultLatch, ha]

end

/-- `s0` is `s` but that the source's pairs may read otherwise. -/
structure SameSource (n : Nat) (s s0 : State) : Prop where
  self : ∃ a, srcGet s0 n = { srcGet s n with asserted := a }
  other : ∀ m, m ≠ n → srcGet s0 m = srcGet s m
  rest : ∃ l, s0 = { s with faults := { s.faults with sources := l } }

theorem SameSource.refl (n : Nat) (s : State) : SameSource n s s := ⟨⟨_, rfl⟩, fun _ _ => rfl, ⟨_, rfl⟩⟩

theorem SameSource.hold (n : Nat) (cls : FaultClass) (s : State) : SameSource n s (holdAsserted n cls s) :=
  ⟨⟨_, srcGet_srcSet_self _ _ _⟩, fun _ hm => srcGet_srcSet_other _ _ hm, ⟨_, rfl⟩⟩

theorem SameSource.react {n : Nat} {s s0 : State} (h : SameSource n s s0) (c : FaultClass) :
    (srcGet s0 n).react c = (srcGet s n).react c := by
  obtain ⟨a, ha⟩ := h.self
  rw [ha]
  cases c <;> rfl

theorem SameSource.status {n : Nat} {s s0 : State} (h : SameSource n s s0) (c : FaultClass) :
    (srcGet s0 n).status c = (srcGet s n).status c := by
  obtain ⟨a, ha⟩ := h.self
  rw [ha]
  cases c <;> rfl

/-- What a latched event of `s` leaves in its source, in FIRST_FT and in the trap list of `t`. -/
def Recorded (n : Nat) (c : FaultClass) (wire : Bool) (detail : W32) (s t : State) : Prop :=
  (srcGet t n).status c = true ∧ (∀ c', c' ≠ c → (srcGet t n).status c' = (srcGet s n).status c') ∧
    (srcGet t n).detail = detail ∧ (srcGet t n).count = satAdd (srcGet s n).count 1 ∧
    (srcGet t n).wire = ((srcGet s n).wire || wire) ∧
    (srcGet t n).firstTs = (if (srcGet s n).any then (srcGet s n).firstTs else s.tsNow) ∧
    (∀ m, m ≠ n → srcGet t m = srcGet s m) ∧
    t.faults.firstFt = (if c = .ft ∧ s.faults.firstFt = 0xFFF then BitVec.ofNat 12 n else s.faults.firstFt) ∧
    t.faults.traps = (if (srcGet s n).status c = false ∧ (srcGet s n).react c &&& rTrap ≠ 0 ∧ s.faults.safe = false ∧
        reactsNow s = true then s.faults.traps ++ [(c, n)] else s.faults.traps)

theorem recorded_of_latched {n : Nat} {c : FaultClass} {wire : Bool} {detail : W32} {s s0 t : State}
    (hx : SameSource n s s0) (h : t.faults = latchedFaults n c wire detail.toNat s0) : Recorded n c wire detail s t := by
  obtain ⟨hself, hother⟩ := srcGet_latched h
  obtain ⟨hc, hc', hd, hn, hw, hts⟩ := event_fields (srcGet s0 n) c wire detail.toNat s0.tsNow
  rw [← hself] at hc hc' hd hn hw hts
  obtain ⟨a, ha⟩ := hx.self
  obtain ⟨l, hl⟩ := hx.rest
  refine ⟨hc, fun c' h' => (hc' c' h').trans (hx.status c'), hd.trans (by simp), hn.trans (by rw [ha]), hw.trans (by rw [ha]),
    hts.trans (by rw [ha, hl]; rfl), fun m hm => (hother m hm).trans (hx.other m hm), by rw [h, hl]; rfl, ?_⟩
  rw [h]
  simp only [latchedFaults, reactedTraps, hx.status, hx.react]
  rw [hl]
  by_cases h1 : (srcGet s n).status c = true
  · rw [if_pos h1, if_neg (by simp [h1])]
  · rw [if_neg h1]
    exact ite_congr (propext ⟨fun ⟨hs, hr, ht⟩ => ⟨by simpa using h1, ht, hs, hr⟩, fun ⟨_, ht, hs, hr⟩ => ⟨hs, hr, ht⟩⟩) (fun _ => rfl) fun _ => rfl

theorem noteEvent_faults (n : Nat) (cls : FaultClass) (detail : W32) (s : State) :
    (noteEvent n cls detail s).faults = s.faults := by
  unfold noteEvent
  (repeat' split) <;> rfl

/-- Settles O12. -/
theorem faultLatchRecordsTheEvent : Obligations.FaultLatchRecordsTheEvent := by
  refine ⟨?_, fun _ _ _ _ ha hl hoff => execFaultLatch_level ha hl hoff, fun _ _ _ _ ha => execFaultLatch_idle ha⟩
  intro n cls c what detail s hwhat hc ha hl hs hcan hreact
  cases what with
  | idle => exact absurd rfl hwhat
  | wireFault =>
    have hx := SameSource.hold n.val cls s
    obtain ⟨b, m, p, o, he⟩ := latch_faults (wire := true) (detail := detail.toNat) (s := holdAsserted n cls s) hc.symm hs hcan
      (.inr (.inr (.inl ((hx.react c).symm ▸ hreact))))
    refine ⟨_, execFaultLatch_wireFault ha, ?_⟩
    obtain ⟨r1, r2, r3, r4, r5, r6, r7, r8, r9⟩ := recorded_of_latched hx (congrArg State.faults he)
    refine ⟨r1, r2, r3, r4, r5, r6, r7, r8, r9, by rw [he]; rfl, fun _ => by rw [he]; rfl, ?_⟩
    rw [if_neg (by simp), he]
    rfl
  | event =>
    have hlevel : (srcInfo n).level = false := hl.resolve_right (by simp)
    obtain rfl : c = cls := hc
    obtain ⟨b, m, p, o, he⟩ := latch_faults (cls := c) (wire := false) (detail := detail.toNat) (s := s) rfl hs hcan
      (.inr (.inr (.inl hreact)))
    refine ⟨_, execFaultLatch_event ha hlevel hs, ?_⟩
    obtain ⟨r1, r2, r3, r4, r5, r6, r7, r8, r9⟩ := recorded_of_latched (SameSource.refl n.val s)
      ((noteEvent_faults n c detail _).trans (congrArg State.faults he))
    refine ⟨r1, r2, r3, r4, r5, r6, r7, r8, r9, ?_, ?_, ?_⟩
    · rw [he]
      unfold noteEvent
      (repeat' split) <;> rfl
    · intro hn
      rw [he]
      unfold noteEvent
      split
      · rfl
      · split
        next hdir => exact absurd ⟨hdir.1, hdir.2.1, hdir.2.2, rfl⟩ hn
        next => rfl
    · rw [he]
      unfold noteEvent
      by_cases hk : n.val = 2940 ∧ c = .ft
      · rw [if_pos hk, if_pos ⟨hk.1, hk.2, rfl⟩]
      · rw [if_neg (c := _ ∧ _ ∧ _) fun hh => hk ⟨hh.1, hh.2.1⟩]
        simp only [if_neg hk]
        split <;> rfl

end Sys2Proof.Machine
end

section
/-!
PROOFS of O13 and O15: the chip reset of a reaction set, and the reaction sets before and after the lock.
-/
namespace Sys2Proof.Machine

/-- What a chip reset leaves: everything at reset, but for the retained block, memory, the lifecycle and the time base. -/
theorem chipReset_leaves (cause : BitVec 4) (s : State) :
    ∃ t, chipReset cause s = t ∧ t.power.retained = { s.power.retained with
        cause := cause, prevFirstFt := s.faults.firstFt, prevPairState := BitVec.ofNat 3 s.pair.st.code
        resetTs := s.tsNow, chipResets := satAdd s.power.retained.chipResets 1 } ∧
      t.power.cold = false ∧ t.power.phase = (if s.power.modRstN then .starting else .inReset) ∧
      t.faults = { nextSweep := s.ticks + 1000 } ∧ (t.piers = {} ∧ t.service = {} ∧ t.host = {} ∧ t.deck = {} ∧ t.sb = {}) ∧
      (t.store.cells = s.store.cells ∧ t.store.side = s.store.side ∧ t.store.selfRefresh = allSelfRefresh) ∧
      t.sec.lifecycle = s.sec.lifecycle ∧ t.sec.minSvn = s.sec.minSvn ∧ t.ticks = s.ticks ∧ t.pending = s.pending := by
  unfold chipReset
  extract_lets r r' present pairSt s1
  obtain ⟨o, ho⟩ := trace_eq 0x05 uObserve cause.toNat 0 s1
  rw [ho]
  exact ⟨_, rfl, rfl, rfl, rfl, rfl, ⟨rfl, rfl, rfl, rfl, rfl⟩, ⟨rfl, rfl, by simp only [s1]⟩, rfl, rfl, rfl, rfl⟩

theorem handover_reset {cause : BitVec 4} {s : State} (hh : s.faults.handover = none) (hm : s.pair.st ≠ .mirrored)
    (hr : s.pair.st ≠ .rejoining) : handover (some cause) s = chipReset cause s := by
  simp [handover, hh, hm, hr]

/-- A reaction set with CHIPRST hands over to a chip reset of cause 3. -/
theorem react_chipReset {n : Nat} {c : FaultClass} {r : BitVec 6} {v : BitVec 11} {s : State} (hsafe : s.faults.safe = false)
    (hnow : reactsNow s = true) (hr : r &&& rChiprst ≠ 0) (hn : n ≠ 2941) (hh : s.faults.handover = none) :
    ∃ l p o, react n c r v s =
      handover (some 3) { s with faults := { s.faults with traps := l }, host := p, out := s.out ++ o } := by
  have hi : ∃ p o, (if r &&& rInt ≠ 0 then interrupt v s else s) = { s with host := p, out := s.out ++ o } := by
    split
    · obtain ⟨p, o, e, -⟩ := interrupt_eq v s
      exact ⟨p, o, e⟩
    · exact ⟨s.host, [], by rw [List.append_nil]⟩
  obtain ⟨p, o, e⟩ := hi
  unfold react
  rw [if_neg (by simp [hsafe, hnow])]
  dsimp only
  rw [e]
  split
  · rw [if_pos (by simpa [hn, hh] using hr)]
    exact ⟨_, p, o, rfl⟩
  · rw [if_pos (by simpa [hn, hh] using hr)]
    exact ⟨s.faults.traps, p, o, rfl⟩

/-- A fresh event whose set holds CHIPRST resets the chip; what stands then is what stood before, with FIRST_FT. -/
theorem latch_chipReset {n : Nat} {cls c : FaultClass} {wire : Bool} {detail : Nat} {s : State}
    (hcls : latchClass n cls wire = c) (hs : sampled s n = true) (hc : (srcInfo n).can c = true)
    (hst : (srcGet s n).status c = false) (hr : (srcGet s n).react c &&& rChiprst ≠ 0) (hn : n ≠ 2941)
    (hsafe : s.faults.safe = false) (hnow : reactsNow s = true) (hh : s.faults.handover = none)
    (hm : s.pair.st ≠ .mirrored) (hj : s.pair.st ≠ .rejoining) :
    ∃ f b m p o, latch n cls wire detail s =
        chipReset 3 { s with faults := f, obs := b, milell := m, host := p, out := o } ∧
      f.firstFt = (if c = .ft ∧ s.faults.firstFt = 0xFFF then BitVec.ofNat 12 n else s.faults.firstFt) := by
  unfold latch
  rw [hcls]
  dsimp only
  rw [if_neg (by simp [hs, hc]), latchRegs_faults]
  generalize hf : ({ s.faults with
    sources := tset srcReset s.faults.sources n ((srcGet s n).event c wire detail s.tsNow)
    firstFt := if c = .ft ∧ s.faults.firstFt = 0xFFF then BitVec.ofNat 12 n else s.faults.firstFt } : Faults) = f
  obtain ⟨b, eb⟩ := trace_eq 0x01 uCollector (n + 4096 * clsCode c + 16384 * b2n wire) detail { s with faults := f }
  rw [eb]
  obtain ⟨m, b', o, em⟩ := emcyOf_eq n c (!(srcGet s n).status c) (wire && !(srcGet s n).wire) detail
    { s with faults := f, obs := b }
  rw [em, if_neg (by simp [hst])]
  subst hf
  obtain ⟨l, p, o', er⟩ := react_chipReset (n := n) (c := c) (v := (srcGet s n).vector) (s := { s with
    faults := { s.faults with
      sources := tset srcReset s.faults.sources n ((srcGet s n).event c wire detail s.tsNow)
      firstFt := if c = .ft ∧ s.faults.firstFt = 0xFFF then BitVec.ofNat 12 n else s.faults.firstFt }
    obs := b', milell := m, out := s.out ++ o }) hsafe hnow hr hn hh
  exact ⟨_, _, _, _, _, er.trans (handover_reset hh hm hj), rfl⟩

/-- A chip reset's part of `t` that the collector's notes leave alone. -/
theorem noteEvent_eq (n : Nat) (cls : FaultClass) (detail : W32) (s : State) :
    ∃ k c, noteEvent n cls detail s = { s with sec := { s.sec with slots := k }, coh := c } := by
  unfold noteEvent
  split
  · exact ⟨_, s.coh, rfl⟩
  · split
    · exact ⟨s.sec.slots, _, rfl⟩
    · exact ⟨s.sec.slots, s.coh, rfl⟩

theorem slots_coh_eta (t : State) : t = { t with sec := { t.sec with slots := t.sec.slots }, coh := t.coh } := rfl

/-- Settles O13. -/
theorem chipResetReactionResetsTheChip : Obligations.ChipResetReactionResetsTheChip := by
  intro n cls c what detail s hwhat hc hn ha hl hs hcan hst hr hsafe hnow hh hm hj
  have key : ∃ f b m p o k x, exec (.faultLatch n cls what detail) s = .next
      (let t := chipReset 3 { s with faults := f, obs := b, milell := m, host := p, out := o }
       { t with sec := { t.sec with slots := k }, coh := x }) ∧
      f.firstFt = (if c = .ft ∧ s.faults.firstFt = 0xFFF then BitVec.ofNat 12 n.val else s.faults.firstFt) := by
    cases what with
    | idle => exact absurd rfl hwhat
    | wireFault =>
      have hx := SameSource.hold n.val cls s
      obtain ⟨f, b, m, p, o, he, hf⟩ := latch_chipReset (wire := true) (detail := detail.toNat) (s := holdAsserted n cls s)
        hc.symm hs hcan ((hx.status c).trans hst) ((hx.react c).symm ▸ hr) hn hsafe hnow hh hm hj
      exact ⟨f, b, m, p, o, _, _, (execFaultLatch_wireFault ha).trans (congrArg _ (he.trans (slots_coh_eta _))), hf⟩
    | event =>
      have hlevel : (srcInfo n).level = false := hl.resolve_right (by simp)
      obtain rfl : c = cls := hc
      obtain ⟨f, b, m, p, o, he, hf⟩ := latch_chipReset (cls := c) (wire := false) (detail := detail.toNat) rfl hs hcan hst hr
        hn hsafe hnow hh hm hj
      obtain ⟨k, x, hk⟩ := noteEvent_eq n c detail (latch n c false detail.toNat s)
      rw [he] at hk
      exact ⟨f, b, m, p, o, k, x, (execFaultLatch_event ha hlevel hs).trans (congrArg _ (he ▸ hk)), hf⟩
  obtain ⟨f, b, m, p, o, k, x, he, hf⟩ := key
  obtain ⟨t, ht, hret, hcold, hphase, hfaults, ⟨hp, hsv, hho, hd, hsb⟩, ⟨hcells, hside, hself⟩, hlife, hsvn, hticks, hpend⟩ :=
    chipReset_leaves 3 { s with faults := f, obs := b, milell := m, host := p, out := o }
  rw [ht] at he
  refine ⟨_, he, ?_⟩
  simp only [hret, hcold, hphase, hp, hsv, hho, hd, hsb, hcells, hside, hself, hlife, hsvn, hticks, hpend, hf]
  refine ⟨trivial, trivial, trivial, trivial, trivial, trivial, trivial, fun m => ?_, trivial, trivial, trivial, trivial,
    trivial, trivial, trivial, trivial, trivial, trivial, trivial, trivial⟩
  show tget srcReset t.faults.sources m = _
  rw [hfaults]
  rfl

/-- A field of a register, as the word's bits from `lo`. -/
theorem ofNat_fld {w : Nat} (v : BitVec w) (lo len : Nat) : BitVec.ofNat len (fld v lo len) = (v >>> lo).truncate len := by
  apply BitVec.eq_of_toNat_eq
  simp [fld, Nat.shiftRight_eq_div_pow]

/-- Settles O15. -/
theorem reactionSetsAndLock : Obligations.ReactionSetsAndLock := by
  refine ⟨fun n v s ha hs hl => ?_, fun n v s ha hs hl => ?_, fun s ha hs => ?_⟩
  · have he : exec (.fsCfgWrite n v) s =
        .next (restamp 10 (fsCfg n v (if fsCfgStray n v then count 2688 s else s))) := by
      show execFsCfgWrite n v s = _
      simp [execFsCfgWrite, writable_of ha hs, fsCfgWrite, hl]
    have hcount : ∃ o, (if fsCfgStray n v then count 2688 s else s) = { s with obs := o } := by
      split
      · exact ⟨_, rfl⟩
      · exact ⟨s.obs, rfl⟩
    obtain ⟨o, ho⟩ := hcount
    rw [ho] at he
    refine ⟨_, he, (srcGet_srcSet_self _ _ _).trans ?_, fun m hm => srcGet_srcSet_other _ _ hm, rfl⟩
    have h0 : BitVec.ofNat 6 (fld v 0 6) = v.truncate 6 := (ofNat_fld v 0 6).trans (by rw [BitVec.ushiftRight_zero])
    simp only [ofNat_fld, h0]
    rfl
  · show execFsCfgWrite n v s = _
    simp [execFsCfgWrite, writable_of ha hs, fsCfgWrite, hl]
  · refine ⟨restamp 10 { s with faults := { s.faults with lock := true } }, ?_, rfl, rfl⟩
    show execFcLock s = _
    rw [execFcLock, writable_of ha hs]
    rfl

end Sys2Proof.Machine
end

section
/-!
PROOFS of O14: traps, dispatch and replies.
-/
namespace Sys2Proof.Machine

theorem mem_of_nextTrap {l : List (FaultClass × Nat)} {x : FaultClass × Nat} (h : nextTrap l = some x) : x ∈ l := by
  induction l generalizing x with
  | nil => cases h
  | cons t ts ih =>
    unfold nextTrap at h
    split at h
    · split at h <;> cases h
      · exact List.mem_cons_of_mem _ (ih ‹_›)
      · exact List.mem_cons_self
    · cases h
      exact List.mem_cons_self

theorem trapBefore_asymm {a b : FaultClass × Nat} (h : trapBefore a b = true) : trapBefore b a = false := by
  obtain ⟨c, n⟩ := a
  obtain ⟨d, m⟩ := b
  simp only [trapBefore, Bool.or_eq_true, Bool.and_eq_true, decide_eq_true_eq] at h
  simp only [trapBefore, Bool.or_eq_false_iff, Bool.and_eq_false_iff, decide_eq_false_iff_not]
  rcases h with h | ⟨rfl, h⟩
  · exact ⟨by omega, .inl fun he => by rw [he] at h; omega⟩
  · exact ⟨by omega, .inr (by omega)⟩

/-- The trap that comes before every other is the next one. -/
theorem nextTrap_eq {l : List (FaultClass × Nat)} {x : FaultClass × Nat} (hx : x ∈ l)
    (hall : ∀ u ∈ l, u ≠ x → trapBefore x u = true) : nextTrap l = some x := by
  induction l with
  | nil => cases hx
  | cons t ts ih =>
    have hts : ∀ u ∈ ts, u ≠ x → trapBefore x u = true := fun u hu => hall u (List.mem_cons_of_mem _ hu)
    unfold nextTrap
    by_cases hmem : x ∈ ts
    · rw [ih hmem hts]
      by_cases ht : t = x
      · subst ht
        simp
      · simp [hall t List.mem_cons_self ht]
    · obtain rfl : x = t := (List.mem_cons.1 hx).resolve_right hmem
      split
      · rename_i u hu
        have hmemu := mem_of_nextTrap hu
        have hne : u ≠ x := fun he => hmem (he ▸ hmemu)
        rw [trapBefore_asymm (hts u hmemu hne)]
        rfl
      · rfl

/-- Sending a message puts it at the end of the messages; beyond that the deck and the observation unit alone change. -/
theorem sendMsg_eq (m : BlockMsg) (s : State) :
    DeckOnly { s with faults := { s.faults with messages := s.faults.messages ++ [m] } } (sendMsg m s) :=
  DeckOnly.fold (fun _ _ => sendPacket_deck _ _ _) _ _

theorem sendMsg_messages (m : BlockMsg) (s : State) : (sendMsg m s).faults.messages = s.faults.messages ++ [m] := by
  obtain ⟨d, o, h⟩ := sendMsg_eq m s
  rw [h]

/-- Where the last quarter is not the one fenced, a message changes the collector's messages, the deck and the observation. -/
theorem sendBlock_eq {b : Block} {isFence : Bool} {n : Nat} {s : State} (hq : lastQuarter b s = false) :
    ∃ l d o, sendBlock b isFence n s = { s with faults := { s.faults with messages := l }, deck := d, obs := o } := by
  unfold sendBlock
  split
  · exact ⟨s.faults.messages, s.deck, s.obs, rfl⟩
  · rw [if_neg (by simp [hq])]
    split
    · obtain ⟨d, o, h⟩ := sendMsg_eq ⟨b, true, n⟩ { s with faults := { s.faults with
        messages := s.faults.messages.filter (fun m => m.block ≠ b || m.isFence) } }
      exact ⟨_, d, o, h⟩
    · split
      · exact ⟨s.faults.messages, s.deck, s.obs, rfl⟩
      · obtain ⟨d, o, h⟩ := sendMsg_eq ⟨b, false, n⟩ s
        exact ⟨_, d, o, h⟩

theorem sendBlock_fence {b : Block} {n : Nat} {s : State} (hf : blockFenced b s = false) (hq : lastQuarter b s = false) :
    (sendBlock b true n s).faults.messages =
      s.faults.messages.filter (fun m => m.block ≠ b || m.isFence) ++ [⟨b, true, n⟩] := by
  simp [sendBlock, hf, hq, sendMsg_messages]

theorem sendBlock_blkrst {b : Block} {n : Nat} {s : State} (hf : blockFenced b s = false)
    (hm : ∀ m ∈ s.faults.messages, m.block = b → m.isFence = false) :
    (sendBlock b false n s).faults.messages = s.faults.messages ++ [⟨b, false, n⟩] := by
  have hany : s.faults.messages.any (fun m => m.block = b && m.isFence) = false := by
    simpa using hm
  simp [sendBlock, hf, hany, sendMsg_messages]

/-- Core 0's state once the trap of class `c` of source `n` is its last dispatch. -/
def trapTaken (c : FaultClass) (n : Nat) (s : State) : State :=
  let s1 := { s with faults := { s.faults with traps := dropFirst (· == (c, n)) s.faults.traps } }
  trestleSet 0 { trestleGet s1 0 with last := some (.trap c n) } s1

theorem trapTaken_last (c : FaultClass) (n : Nat) (s : State) :
    (trestleGet (trapTaken c n s) 0).last = some (.trap c n) := by
  simp [trapTaken]

theorem srcGet_trapTaken (c : FaultClass) (n : Nat) (s : State) (m : Nat) : srcGet (trapTaken c n s) m = srcGet s m := rfl
theorem blockFenced_trapTaken (c : FaultClass) (n : Nat) (s : State) (b : Block) :
    blockFenced b (trapTaken c n s) = blockFenced b s := rfl
theorem lastQuarter_trapTaken (c : FaultClass) (n : Nat) (s : State) (b : Block) :
    lastQuarter b (trapTaken c n s) = lastQuarter b s := rfl
theorem trapTaken_messages (c : FaultClass) (n : Nat) (s : State) : (trapTaken c n s).faults.messages = s.faults.messages := rfl

/-- What core 0 sends for the trap: FENCE before BLKRST, nothing where the set holds CHIPRST. -/
def sendFor (c : FaultClass) (n : Nat) (b : Block) (s : State) : State :=
  let r := (srcGet s n).react c
  if r &&& rChiprst ≠ 0 then s
  else if r &&& rFence ≠ 0 then sendBlock b true n s
  else if r &&& rBlkrst ≠ 0 then sendBlock b false n s
  else s

theorem takeTrap_noBlock {c : FaultClass} {n : Nat} {s : State} (h : nextTrap s.faults.traps = some (c, n))
    (hb : (srcInfo n).block = none) : takeTrap s = trapTaken c n s := by
  simp only [takeTrap, h, hb, trapTaken]

theorem takeTrap_block {c : FaultClass} {n : Nat} {b : Block} {s : State} (h : nextTrap s.faults.traps = some (c, n))
    (hb : (srcInfo n).block = some b) (hh : s.faults.handover = none) : takeTrap s = sendFor c n b (trapTaken c n s) := by
  have hn : (trapTaken c n s).faults.handover.any (·.isSome) = false := by
    show s.faults.handover.any _ = false
    rw [hh]
    rfl
  simp only [takeTrap, h, hb, sendFor, ← trapTaken.eq_1, hn, Bool.or_false, decide_eq_true_eq]

theorem sendFor_fence {c : FaultClass} {n : Nat} {b : Block} {s : State} (hc : (srcGet s n).react c &&& rChiprst = 0)
    (hf : (srcGet s n).react c &&& rFence ≠ 0) : sendFor c n b s = sendBlock b true n s := by
  rw [sendFor, if_neg (not_not_intro hc), if_pos hf]

theorem sendFor_blkrst {c : FaultClass} {n : Nat} {b : Block} {s : State} (hc : (srcGet s n).react c &&& rChiprst = 0)
    (hf : (srcGet s n).react c &&& rFence = 0) (hb : (srcGet s n).react c &&& rBlkrst ≠ 0) :
    sendFor c n b s = sendBlock b false n s := by
  rw [sendFor, if_neg (not_not_intro hc), if_neg (not_not_intro hf), if_pos hb]

theorem sendFor_eq {c : FaultClass} {n : Nat} {b : Block} {s : State} (hq : lastQuarter b s = false) :
    ∃ l d o, sendFor c n b s = { s with faults := { s.faults with messages := l }, deck := d, obs := o } := by
  unfold sendFor
  dsimp only
  split
  · exact ⟨s.faults.messages, s.deck, s.obs, rfl⟩
  · split
    · exact sendBlock_eq hq
    · split
      · exact sendBlock_eq hq
      · exact ⟨s.faults.messages, s.deck, s.obs, rfl⟩

theorem execTrap_taken {s : State} (hr : coreRuns 0 s = true) (ho : repliesOpen s = false) :
    execTrap s = .next (takeTrap s) := by
  simp [execTrap, hr, ho]

theorem execTrap_open {s : State} (ho : repliesOpen s = true) : execTrap s = .next s := by
  simp [execTrap, ho]

/-- Core 0 in the handler of its replies has `bit 0` as its last dispatch. -/
theorem handlerRuns_zero (s : State) : handlerRuns 0 s = repliesOpen s := by
  unfold handlerRuns repliesOpen
  split
  · rename_i b hb
    by_cases h : b = 0
    · simp [hb, h]
    · simp [hb, h]
  · rename_i hb
    have hne : (trestleGet s 0).last ≠ some (.bit 0) := hb 0
    simp [hne]

theorem execTrestleDispatch_zero {s : State} (h : repliesOpen s = true ∨ s.faults.traps ≠ []) :
    execTrestleDispatch 0 s = execTrap s := by
  by_cases ho : repliesOpen s = true
  · simp [execTrestleDispatch, execTrap, handlerRuns_zero, ho]
  · have ht := h.resolve_left ho
    have ho' : repliesOpen s = false := by simpa using ho
    cases hr : coreRuns 0 s <;> simp [execTrestleDispatch, execTrap, handlerRuns_zero, ho', ht, hr]

theorem execTrestleDispatch_running {core : Core} {s : State} (h : handlerRuns core.val s = true) :
    execTrestleDispatch core s = .next s := by
  simp [execTrestleDispatch, h]

/-- The lowest number below `n` with the property is the one found. -/
theorem findBelow_eq_some {n b : Nat} {p : Nat → Bool} (hb : b < n) (hp : p b = true) (hlow : ∀ j, j < b → p j = false) :
    findBelow n p = some b := by
  rw [findBelow, List.find?_range_eq_some]
  exact ⟨hp, List.mem_range.2 hb, fun j hj => by simp [hlow j hj]⟩

theorem execTrestleDispatch_bit {core : Core} {b : Nat} {s : State} (hr : coreRuns core.val s = true)
    (ht : core.val ≠ 0 ∨ s.faults.traps = []) (hb : b < 64) (hbit : (trestleGet s core.val).doorbell.getLsbD b = true)
    (hlow : ∀ j, j < b → (trestleGet s core.val).doorbell.getLsbD j = false) (hbind : s.host.bindReq = none)
    (hh : handlerRuns core.val s = false) : execTrestleDispatch core s = .next (dispatchBit core.val b s) := by
  have htrap : ¬ (core.val = 0 ∧ s.faults.traps ≠ []) := fun ⟨h0, hn⟩ => (ht.resolve_left (by simp [h0])) |> hn
  have hrun : ∀ t : State, t.host.bindReq = none → runHandler core.val b t = t := by
    intro t h
    simp [runHandler, h]
  unfold execTrestleDispatch
  rw [if_neg (by simp [hr, hh]), if_neg (by simpa using htrap), findBelow_eq_some hb hbit hlow]
  exact congrArg _ (hrun _ hbind)

/-- Settles O14. -/
theorem trapsAndDispatch : Obligations.TrapsAndDispatch := by
  refine ⟨?_, fun s h => execTrestleDispatch_zero h, fun s h => execTrap_open h,
    fun core b s hr ht hb hbit hlow hbind => ⟨execTrestleDispatch_bit hr ht hb hbit hlow hbind, execTrestleDispatch_running⟩, ?_⟩
  · intro c n s hr ho hmem hfirst hq hh
    refine ⟨_, execTrap_taken hr ho, ?_⟩
    have hnext := nextTrap_eq hmem hfirst
    cases hb : (srcInfo n).block with
    | none =>
      rw [takeTrap_noBlock hnext hb]
      exact ⟨rfl, trapTaken_last c n s, rfl, fun _ => rfl, fun _ h => by cases h⟩
    | some b =>
      rw [takeTrap_block hnext hb hh]
      have hq' : lastQuarter b (trapTaken c n s) = false := hq b hb
      obtain ⟨l, d, o, he⟩ := sendFor_eq (c := c) (n := n) hq'
      refine ⟨by rw [he]; rfl, by rw [he]; exact trapTaken_last c n s, by rw [he]; rfl, fun h => by (cases h), ?_⟩
      intro b' hb' hchip hf
      cases hb'
      refine ⟨fun hfence => ?_, fun hfence hblk hnone => ?_⟩
      · rw [sendFor_fence (s := trapTaken c n s) hchip hfence]
        exact sendBlock_fence hf hq'
      · rw [sendFor_blkrst (s := trapTaken c n s) hchip hfence hblk]
        exact sendBlock_blkrst hf hnone
  · intro r rest s hr hrep ht
    have he : exec .fenceReply s = .next (
        let s1 := { dispatchBit 0 0 s with faults := { s.faults with replies := rest }, freeCtr := s.freeCtr + 1 }
        notice 0 (if r.isFence then 1 else 2) r.source
          (trace (if r.isFence then 0x02 else 0x03) (uCore 0) r.source (blockArg r.block s.freeCtr) s1)) := by
      have hc : (!coreRuns 0 s || (!repliesOpen s && !s.faults.traps.isEmpty)) = false := by
        rcases ht with h | h <;> simp [hr, h]
      show execFenceReply s = _
      unfold execFenceReply
      rw [if_neg (by simp [hc]), hrep]
      rfl
    dsimp only at he
    obtain ⟨o, ho⟩ := trace_eq (if r.isFence then 0x02 else 0x03) (uCore 0) r.source (blockArg r.block s.freeCtr)
      { dispatchBit 0 0 s with faults := { s.faults with replies := rest }, freeCtr := s.freeCtr + 1 }
    obtain ⟨b, h, q, hn, -⟩ := notice_eq 0 (if r.isFence then 1 else 2) r.source
      { { dispatchBit 0 0 s with faults := { s.faults with replies := rest }, freeCtr := s.freeCtr + 1 } with obs := o }
    rw [ho, hn] at he
    exact ⟨_, he, rfl, rfl⟩

end Sys2Proof.Machine
end

section
/-!
PROOFS of O16: the safe state, the configuration sweep, the FAILING beat and the field network's error state.
-/
namespace Sys2Proof.Machine

/-- A port is off and unpowered. -/
def PortOff (s : State) (n : Nat) : Prop := (portGet s n).pwren = false ∧ (portGet s n).st = .off

theorem portOff_of_not_listed {s : State} {n : Nat} (h : ∀ e ∈ s.girth.ports, e.1 ≠ n) : PortOff s n := by
  have hd : portGet s n = {} := by
    unfold portGet
    generalize s.girth.ports = t at h ⊢
    induction t with
    | nil => rfl
    | cons e t ih =>
      simp only [tget, h e (by simp), if_false]
      exact ih fun e he => h e (by simp [he])
  exact ⟨by rw [hd], by rw [hd]⟩

/-- Unpowering the ports of a list leaves those off, and the ports that were off. -/
theorem portOff_unpower {l : List Nat} {s : State} {n : Nat} (h : n ∈ l ∨ PortOff s n) :
    PortOff (foldS l (fun n s => portSet n (portGet s n).unpowered s) s) n := by
  induction l generalizing s with
  | nil => exact h.resolve_left (by simp)
  | cons a l ih =>
    refine ih ?_
    by_cases ha : n = a
    · subst ha
      right
      unfold PortOff
      rw [portGet_portSet_self]
      exact ⟨rfl, rfl⟩
    · rcases h with h | h
      · exact .inl ((List.mem_cons.1 h).resolve_left ha)
      · right
        unfold PortOff
        rw [portGet_portSet_other _ _ ha]
        exact h

theorem unpower_eq (l : List Nat) (s : State) :
    ∃ g, foldS l (fun n s => portSet n (portGet s n).unpowered s) s = { s with girth := g } :=
  foldS_keeps (P := fun t => ∃ g, t = { s with girth := g }) _ (by rintro _ _ ⟨g, rfl⟩; exact ⟨_, rfl⟩) l s ⟨s.girth, rfl⟩

/-- The parts that the safe state stops, before its handover. -/
theorem safeEnter_eq {cause : BitVec 2} {s : State} (h : s.faults.safe = false) :
    ∃ m b o g, safeEnter cause s = handover none { s with
        faults := { s.faults with safe := true, safeCause := cause }, milell := m, obs := b, out := s.out ++ o, girth := g
        service := { s.service with quiesced := true }, store := { s.store with selfRefresh := allSelfRefresh } } ∧
      ∀ t : State, t.girth = g → ∀ n, PortOff t n := by
  unfold safeEnter
  rw [if_neg (by simp [h])]
  extract_lets flt s1 s2 sv st s3 s4
  obtain ⟨b0, hb⟩ := trace_eq 0x04 uCollector cause.toNat 0 s1
  obtain ⟨m, b, o, hm, -⟩ := emcy_eq 0xFF05 0 (leBytes 1 cause.toNat) true { s1 with obs := b0 }
  have h2 : s2 = { s1 with milell := m, obs := b, out := s.out ++ o } := by
    show emcy _ _ _ _ (trace _ _ _ _ s1) = _
    rw [hb, hm]
  obtain ⟨g, hg⟩ := unpower_eq (s3.girth.ports.map (·.1)) s3
  refine ⟨m, b, o, g, ?_, fun t ht n => ?_⟩
  · show handover none (foldS (s3.girth.ports.map (·.1)) _ s3) = _
    rw [hg]
    simp only [s3, sv, st, h2, s1, flt]
    generalize allSelfRefresh = a
    rfl
  · have hoff : PortOff (foldS (s3.girth.ports.map (·.1)) (fun n s => portSet n (portGet s n).unpowered s) s3) n := by
      refine portOff_unpower ?_
      by_cases hl : ∃ e ∈ s3.girth.ports, e.1 = n
      · obtain ⟨e, he, hn⟩ := hl
        exact .inl (List.mem_map.2 ⟨e, he, hn⟩)
      · exact .inr (portOff_of_not_listed fun e he hn => hl ⟨e, he, hn⟩)
    rw [hg] at hoff
    unfold PortOff portGet at hoff ⊢
    rw [ht]
    exact hoff

theorem failingBeat_failing (s : State) : (failingBeat s).failing = true := by
  unfold failingBeat
  split <;> rfl

theorem handover_mirrored {next : Option (BitVec 4)} {s : State} (hh : s.faults.handover = none)
    (hm : s.pair.st = .mirrored ∨ s.pair.st = .rejoining) :
    handover next s = { s with
      faults := { s.faults with handover := some next }
      viaduct := { s.viaduct with health := [.beat (failingBeat s)], time := [], cursor := [], journal := [], window := [] }
      pair := { s.pair with hbSeq := s.pair.hbSeq + 1 } } := by
  unfold handover
  rw [if_neg (by simp [hh]), if_pos (by simpa using hm)]

theorem handover_alone {s : State} (hm : s.pair.st ≠ .mirrored) (hr : s.pair.st ≠ .rejoining) :
    handover none s = s := by
  simp [handover, hm, hr]

/-- Whatever the pair does, a handover without a reset to follow changes the handover, the viaduct and the pair alone. -/
theorem handover_none_eq (s : State) :
    ∃ x v p, handover none s = { s with faults := { s.faults with handover := x }, viaduct := v, pair := p } := by
  unfold handover
  split
  · exact ⟨_, _, _, rfl⟩
  · split
    · exact ⟨_, _, _, rfl⟩
    · exact ⟨_, _, _, rfl⟩

theorem safeEnter_leaves {cause : BitVec 2} {s : State} (h : s.faults.safe = false) :
    ∃ t, safeEnter cause s = t ∧ t.faults.safe = true ∧ t.faults.safeCause = cause ∧
      t.service = { s.service with quiesced := true } ∧ t.store = { s.store with selfRefresh := allSelfRefresh } ∧
      (∀ n, (portGet t n).pwren = false ∧ (portGet t n).st = .off) ∧ t.piers = s.piers ∧ t.sec = s.sec ∧
      t.faults.nextSweep = s.faults.nextSweep ∧
      (s.faults.handover = none → s.pair.st = .mirrored ∨ s.pair.st = .rejoining →
        t.faults.handover = some none ∧ (∃ b, t.viaduct.health = [.beat b] ∧ b.failing = true) ∧ t.viaduct.journal = []) ∧
      (s.pair.st ≠ .mirrored → s.pair.st ≠ .rejoining → t.faults.handover = s.faults.handover ∧ t.viaduct = s.viaduct) := by
  obtain ⟨m, b, o, g, he, hports⟩ := safeEnter_eq (cause := cause) h
  rw [he]
  generalize hs' : ({ s with
    faults := { s.faults with safe := true, safeCause := cause }, milell := m, obs := b, out := s.out ++ o, girth := g
    service := { s.service with quiesced := true }, store := { s.store with selfRefresh := allSelfRefresh } } : State) = s'
  obtain ⟨x, v, p, hx⟩ := handover_none_eq s'
  refine ⟨_, rfl, ?_, ?_, ?_, ?_, hports _ ?_, ?_, ?_, ?_, fun hh hm => ?_, fun hm hr => ?_⟩
  · rw [hx, ← hs']
  · rw [hx, ← hs']
  · rw [hx, ← hs']
  · rw [hx, ← hs']
  · rw [hx, ← hs']
  · rw [hx, ← hs']
  · rw [hx, ← hs']
  · rw [hx, ← hs']
  · subst hs'
    rw [handover_mirrored (by exact hh) (by exact hm)]
    exact ⟨rfl, ⟨_, rfl, failingBeat_failing _⟩, rfl⟩
  · subst hs'
    rw [handover_alone (by exact hm) (by exact hr)]
    exact ⟨rfl, rfl⟩

/-! ### The field network's error state -/

/-- The field network's error counters and state stand as they stood. -/
def CanKept (s t : State) : Prop :=
  t.milell.tec = s.milell.tec ∧ t.milell.rxec = s.milell.rxec ∧ t.milell.canState = s.milell.canState

theorem CanKept.trans {a b c : State} (h : CanKept a b) (k : CanKept b c) : CanKept a c :=
  ⟨k.1.trans h.1, k.2.1.trans h.2.1, k.2.2.trans h.2.2⟩

theorem emcySend_can (s : State) : CanKept s (emcySend s) := by
  unfold emcySend
  split
  · exact ⟨rfl, rfl, rfl⟩
  · split <;> exact ⟨rfl, rfl, rfl⟩

theorem emcy_can (code source : Nat) (mfg : List Byte) (first : Bool) (s : State) : CanKept s (emcy code source mfg first s) := by
  unfold emcy
  dsimp only
  split
  · exact ⟨rfl, rfl, rfl⟩
  · split
    · exact ⟨rfl, rfl, rfl⟩
    · exact emcySend_can _

theorem emcyOf_can (n : Nat) (c : FaultClass) (fresh wire : Bool) (detail : Nat) (s : State) :
    CanKept s (emcyOf n c fresh wire detail s) := by
  have first : ∀ (p : Bool) (code : Nat) (s : State),
      CanKept s (if p then emcy code n (leBytes 2 n ++ leBytes 4 detail) false s else s) := by
    intro p code s
    split
    · exact emcy_can _ _ _ _ _
    · exact ⟨rfl, rfl, rfl⟩
  exact (first _ _ s).trans (first _ _ _)

theorem latch_can {n : Nat} {cls c : FaultClass} {wire : Bool} {detail : Nat} {s : State}
    (hcls : latchClass n cls wire = c) (h : noChipReset n ((srcGet s n).react c) s) :
    CanKept s (latch n cls wire detail s) := by
  unfold latch
  rw [hcls]
  dsimp only
  split
  · exact ⟨rfl, rfl, rfl⟩
  · rw [latchRegs_faults]
    generalize hf : ({ s.faults with
      sources := tset srcReset s.faults.sources n ((srcGet s n).event c wire detail s.tsNow)
      firstFt := if c = .ft ∧ s.faults.firstFt = 0xFFF then BitVec.ofNat 12 n else s.faults.firstFt } : Faults) = f
    obtain ⟨b, eb⟩ := trace_eq 0x01 uCollector (n + 4096 * clsCode c + 16384 * b2n wire) detail { s with faults := f }
    rw [eb]
    have hcan := emcyOf_can n c (!(srcGet s n).status c) (wire && !(srcGet s n).wire) detail
      { s with faults := f, obs := b }
    obtain ⟨m, b', o, em⟩ := emcyOf_eq n c (!(srcGet s n).status c) (wire && !(srcGet s n).wire) detail
      { s with faults := f, obs := b }
    rw [em] at hcan ⊢
    split
    · exact hcan
    · have hn : noChipReset n ((srcGet s n).react c) { s with faults := f, obs := b', milell := m, out := s.out ++ o } := by
        simpa [noChipReset, reactsNow, ← hf] using h
      obtain ⟨p, o', er⟩ := react_traps n c _ (srcGet s n).vector _ hn
      rw [er]
      exact hcan

theorem getLsbD_withBit {w : Nat} (v : BitVec w) {b k : Nat} (hk : k < w) :
    (withBit v b).getLsbD k = (v.getLsbD k || decide (k = b)) := by
  simp only [withBit, BitVec.getLsbD_or, BitVec.getLsbD_shiftLeft, hk, BitVec.ofNat_eq_ofNat, BitVec.getLsbD_one]
  by_cases h : k = b
  · subst h
    simp [hk]
    omega
  · by_cases hlt : k < b
    · simp [hlt, h]
    · have hne : k - b ≠ 0 := by omega
      simp [hlt, h, hne]

theorem getLsbD_dropBit {w : Nat} (v : BitVec w) {b k : Nat} (hk : k < w) :
    (dropBit v b).getLsbD k = (v.getLsbD k && !decide (k = b)) := by
  have h := getLsbD_withBit (0 : BitVec w) (b := b) hk
  simp only [withBit, BitVec.ofNat_eq_ofNat, BitVec.zero_or, BitVec.getLsbD_zero, Bool.false_or] at h
  simp only [dropBit, BitVec.getLsbD_and, BitVec.getLsbD_not, hk, decide_true, Bool.true_and, BitVec.ofNat_eq_ofNat, h]

/-- A source's registers after a level of class `c` is `on`: that class's bit follows it, the reaction sets stand. -/
structure LevelSet (n : Nat) (c : FaultClass) (on : Bool) (s t : State) : Prop where
  bit : (srcGet t n).asserted.getLsbD (clsCode c - 1) = on
  others : ∀ k, k < 3 → k ≠ clsCode c - 1 → (srcGet t n).asserted.getLsbD k = (srcGet s n).asserted.getLsbD k
  react : ∀ d, (srcGet t n).react d = (srcGet s n).react d
  can : CanKept s t

theorem clsCode_lt (c : FaultClass) : clsCode c - 1 < 3 := by cases c <;> decide

/-- A level raised or withdrawn, where its reaction set resets nothing. -/
theorem raiseLevel_levelSet {n : Nat} {c : FaultClass} {on : Bool} {detail : Nat} {s : State} (hs : sampled s n = true)
    (hc : (srcInfo n).can c = true) (hr : (srcGet s n).react c &&& rChiprst = 0) :
    LevelSet n c on s (raiseLevel n c on detail s) := by
  have hlt := clsCode_lt c
  unfold raiseLevel
  dsimp only
  split
  · rename_i h
    obtain ⟨hon, hwas⟩ : on = true ∧ (srcGet s n).asserted.getLsbD (clsCode c - 1) = false := by simpa using h
    have hx := SameSource.hold n c s
    have hno : noChipReset n ((srcGet (holdAsserted n c s) n).react c) (holdAsserted n c s) :=
      .inr (.inr (.inl ((hx.react c).symm ▸ hr)))
    obtain ⟨b, m, p, o, he⟩ := latch_faults (cls := c) (wire := false) (detail := detail) (s := holdAsserted n c s) rfl hs hc hno
    obtain ⟨hself, -⟩ := srcGet_latched (congrArg State.faults he)
    have hev : (srcGet (latch n c false detail (holdAsserted n c s)) n).asserted =
        withBit (srcGet s n).asserted (clsCode c - 1) := by
      rw [hself]
      simp only [holdAsserted, srcGet_srcSet_self]
      cases latchClass n c false <;> rfl
    refine ⟨?_, fun k hk hne => ?_, fun d => ?_, latch_can (s := holdAsserted n c s) rfl hno⟩
    · show (srcGet (latch n c false detail (holdAsserted n c s)) n).asserted.getLsbD _ = on
      rw [hev, getLsbD_withBit _ hlt, hon]
      simp
    · show (srcGet (latch n c false detail (holdAsserted n c s)) n).asserted.getLsbD k = _
      rw [hev, getLsbD_withBit _ hk]
      simp [hne]
    · show (srcGet (latch n c false detail (holdAsserted n c s)) n).react d = _
      rw [hself, ← hx.react d]
      cases latchClass n c false <;> cases d <;> rfl
  · split
    · rename_i h
      obtain ⟨hon, -⟩ : on = false ∧ (srcGet s n).asserted.getLsbD (clsCode c - 1) = true := by simpa using h
      refine ⟨?_, fun k hk hne => ?_, fun d => ?_, rfl, rfl, rfl⟩
      · rw [srcGet_srcSet_self, getLsbD_dropBit _ hlt, hon]
        simp
      · rw [srcGet_srcSet_self, getLsbD_dropBit _ hk]
        simp [hne]
      · rw [srcGet_srcSet_self]
        cases d <;> rfl
    · rename_i h1 h2
      refine ⟨?_, fun _ _ _ => rfl, fun _ => rfl, rfl, rfl, rfl⟩
      cases on <;> simp_all

theorem sampled_of_srcDomain_none {s : State} {n : Nat} (h : srcDomain n = none) : sampled s n = true := by
  simp [sampled, h]

/-- The state once the FAILING beat has left. -/
def beatSent (s : State) : State :=
  emit (.viaFrame s.viaduct.txNum s.viaduct.rxAck s.viaduct.nak s.viaduct.health (viaKey s s.viaduct.txNum))
    { s with faults := { s.faults with handover := none }
             viaduct := { s.viaduct with health := [], txNum := s.viaduct.txNum + 1 } }

theorem chipReset_out (cause : BitVec 4) (s : State) : (chipReset cause s).out = s.out := by
  unfold chipReset
  extract_lets r r' present pairSt s1
  obtain ⟨o, ho⟩ := trace_eq 0x05 uObserve cause.toNat 0 s1
  rw [ho]

/-- Settles O16. -/
theorem safeStateAndFieldErrors : Obligations.SafeStateAndFieldErrors := by
  refine ⟨fun cause s ha hs => ?_, fun cause s ha hs _ => ?_, fun s ha hd => ?_, fun s ha hd hs => ?_,
    fun next s hn => ?_, fun e tec rxec s ha hce huc => ?_⟩
  · show execSafeEnter cause s = _
    simp [execSafeEnter, ha, safeEnter, hs]
  · obtain ⟨t, ht, hsafe, hcause, hsv, hst, hports, hp, hsec, -, hm, hn⟩ := safeEnter_leaves (cause := cause) hs
    have he : exec (.safeEnter cause) s = .next t := by
      show execSafeEnter cause s = _
      simp [execSafeEnter, ha, ht]
    exact ⟨t, he, hsafe, hcause, hsv, hst, hports, hp, hsec, hm, hn⟩
  · show execFsCfgSweep false s = _
    simp [execFsCfgSweep, ha, due, hd]
  · obtain ⟨t, ht, hsafe, hcause, -, -, -, -, -, hsweep, -, -⟩ := safeEnter_leaves (cause := 1)
      (s := { s with faults := { s.faults with nextSweep := s.faults.nextSweep + 1000 } }) hs
    have he : exec (.fsCfgSweep true) s = .next t := by
      show execFsCfgSweep true s = _
      simp only [execFsCfgSweep, ha, due, hd, decide_true, Bool.and_self, if_true, ht]
    exact ⟨t, he, hsafe, hcause, hsweep⟩
  · have he : exec .failingBeatSent s = .next (match next with
        | some cause => chipReset cause (beatSent s)
        | none => beatSent s) := by
      show execFailingBeatSent s = _
      simp only [execFailingBeatSent, hn]
      cases next <;> rfl
    refine ⟨_, he, ?_⟩
    cases next with
    | none =>
      refine ⟨rfl, rfl, fun cause h => ?_, fun _ => ⟨rfl, rfl⟩⟩
      cases h
    | some cause =>
      obtain ⟨t, ht, hret, -, -, hf, ⟨hp, -⟩, -⟩ := chipReset_leaves cause (beatSent s)
      have hout := chipReset_out cause (beatSent s)
      dsimp only
      rw [ht] at hout ⊢
      refine ⟨hout, by rw [hf], fun c hc => ?_, fun h => by cases h⟩
      cases hc
      exact ⟨by rw [hret], hp⟩
  · have hs : ∀ t : State, sampled t 2942 = true := fun t => sampled_of_srcDomain_none (by decide)
    generalize hs0 : ({ s with milell := { s.milell with
      canState := (match e with | .active => 0 | .passive => 1 | .busOff => 2), tec := tec, rxec := rxec } } : State) = s0
    have he : exec (.canErrorState e tec rxec) s = .next (raiseLevel 2942 .uc (e = .busOff) (tec.toNat + 256 * rxec.toNat)
        (raiseLevel 2942 .ce (e = .passive) (tec.toNat + 256 * rxec.toNat) s0)) := by
      subst hs0
      show execCanErrorState e tec rxec s = _
      unfold execCanErrorState
      rw [if_neg (by simp [ha])] <;> rfl
    have h1 := raiseLevel_levelSet (n := 2942) (c := .ce) (on := decide (e = .passive)) (detail := tec.toNat + 256 * rxec.toNat)
      (hs s0) (by decide) (by rw [← hs0]; exact hce)
    have h2 := raiseLevel_levelSet (n := 2942) (c := .uc) (on := decide (e = .busOff)) (detail := tec.toNat + 256 * rxec.toNat)
      (hs (raiseLevel 2942 .ce (decide (e = .passive)) (tec.toNat + 256 * rxec.toNat) s0)) (by decide)
      (by rw [h1.react, ← hs0]; exact huc)
    obtain ⟨htec, hrxec, hst⟩ := h1.can.trans h2.can
    exact ⟨_, he, htec.trans (by rw [← hs0]), hrxec.trans (by rw [← hs0]), hst.trans (by subst hs0; cases e <;> rfl),
      (h2.others 0 (by decide) (by decide)).trans h1.bit, h2.bit⟩

end Sys2Proof.Machine
end

section
/-!
PROOFS of O17 and O18: a stitch that may run completes, or ends its run.
-/
namespace Sys2Proof.Machine

/-- What a stitch's outcome leaves: the stitch done, its run halted, or what its reads left. -/
def stitchEnds (id i : Nat) : Ev → State
  | .done lanes noCand s => stitchDone id i lanes noCand s
  | .fault code pier s => haltRun id i code pier (if code = 1 then raise (320 + pier) .uc i s else s)
  | .wait s => s

/-- A stitch that may run runs its operation. -/
theorem runStitch_ready {id i opcode : Nat} {e : Env} {st : Stitch} {f : Env → Stitch → State → Ev} {s : State}
    (h : StitchReady id i opcode e st s) : runStitch id i opcode f s = stitchEnds id i (f e st s) := by
  obtain ⟨hst, hover, hup, hwin⟩ := h
  have hroles : (st.roles e.prog).find? (fun q => !memUp s (e.actual q)) = none := by
    rw [List.find?_eq_none]
    intro q hq
    simp [hup q hq]
  have hreads : (st.reads e.prog).filter (fun d => d.kind = kindWindow) = [] := by
    rw [List.filter_eq_nil_iff]
    intro d hd
    simpa using hwin d (List.mem_append_left _ hd)
  have hany : ((st.reads e.prog) ++ (st.writes e.prog)).any (fun d => d.kind = kindWindow) = false := by
    rw [List.any_eq_false]
    intro d hd
    simpa using hwin d hd
  unfold runStitch
  rw [hst]
  dsimp only
  rw [hover, if_neg (by simp), hroles]
  dsimp only
  rw [hany, hreads, if_neg (by simp), if_neg (by simp)]
  cases f e st s <;> rfl

/-- The three ways that a stitch's outcome is answered. -/
theorem ends_of_ready {id i opcode : Nat} {e : Env} {st : Stitch} {s : State} {c : Instr} {r : Ev}
    {f : Env → Stitch → State → Ev} (hc : exec c s = .next (runStitch id i opcode f s)) (hr : f e st s = r)
    (h : StitchReady id i opcode e st s) :
    (∀ l n s1, r = .done l n s1 → exec c s = .next (stitchDone id i l n s1)) ∧
      (∀ code p s1, r = .fault code p s1 →
        exec c s = .next (haltRun id i code p (if code = 1 then raise (320 + p) .uc i s1 else s1))) ∧
      (∀ s1, r = .wait s1 → exec c s = .next s1) := by
  rw [hc, runStitch_ready h, hr]
  refine ⟨?_, ?_, ?_⟩
  · rintro l n s1 rfl
    rfl
  · rintro code p s1 rfl
    rfl
  · rintro s1 rfl
    rfl

/-- Settles O17. -/
theorem stitchesCompleteOrEndTheirRun : Obligations.StitchesCompleteOrEndTheirRun := by
  intro run idx e st s
  refine ⟨ends_of_ready rfl rfl, ends_of_ready rfl rfl, ends_of_ready rfl rfl, ends_of_ready rfl rfl, ends_of_ready rfl rfl,
    fun _ => ends_of_ready rfl rfl, ends_of_ready rfl rfl, ends_of_ready rfl rfl, ends_of_ready rfl rfl,
    ends_of_ready rfl rfl, fun _ => ends_of_ready rfl rfl, fun joined hv => ends_of_ready rfl ?_⟩
  exact if_pos hv

/-- A stitch whose operation completes is marked complete. -/
theorem exec_stitchDone {id i opcode : Nat} {e : Env} {st : Stitch} {s s1 : State} {l n : W16} {c : Instr}
    {f : Env → Stitch → State → Ev} (h : StitchReady id i opcode e st s) (hf : f e st s = .done l n s1)
    (hc : exec c s = .next (runStitch id i opcode f s)) : exec c s = .next (stitchDone id i l n s1) :=
  (ends_of_ready hc hf h).1 l n s1 rfl

section
variable {e : Env} {st : Stitch} {s s1 : State} {a dst : TDesc} (ha : e.prog.desc st.src0 = some a)
  (hdst : e.prog.desc st.dst = some dst)

theorem evalBarrier_barrier {joined : Bool} (hj : st.op 128 1 = 0 ∨ coupled e.run joined s = true) (hv : st.variant = 0) :
    evalBarrier e st joined s = .done 0 0 s := by
  have hp : ¬ (st.op 128 1 = 1 ∧ coupled e.run joined s = false) := by
    rcases hj with h | h
    · simp [h]
    · simp [h]
  simp [evalBarrier, hp, hv]

include ha in
theorem evalBarrier_wait {joined : Bool} (hj : st.op 128 1 = 0 ∨ coupled e.run joined s = true) (hv : st.variant = 1)
    (hc : OperandsClean e [a] s s1) (hw : ∀ w ∈ signalWords e a s1, BitVec.ofNat 64 (st.op 192 64) ≤ w) :
    evalBarrier e st joined s = .done 0 0 s1 := by
  have hp : ¬ (st.op 128 1 = 1 ∧ coupled e.run joined s = false) := by
    rcases hj with h | h
    · simp [h]
    · simp [h]
  have hall : (signalWords e a s1).all (fun w => BitVec.ofNat 64 (st.op 192 64) ≤ w) = true := by simpa using hw
  unfold evalBarrier
  rw [if_neg (by simpa using hp), if_neg (by simp [hv]), ha]
  dsimp only
  rw [hc, hall]
  rfl

include ha hdst

theorem evalMatmul_done {x : TDesc} {s0 : State} (hx : e.prog.desc st.src1 = some x)
    (h0 : OperandsClean e (e.prog.desc (st.op 128 12)).toList s s0)
    (h1 : OperandsClean e ([a, x] ++ (e.prog.desc st.src2).toList) s0 s1) : ∃ t, evalMatmul e st s = .done 0 0 t := by
  simp only [evalMatmul, ha, hdst, hx]
  rw [h0]
  split
  · exact ⟨_, rfl⟩
  · rw [h1]
    exact ⟨_, rfl⟩

theorem evalNorm_done {g : TDesc} (hg : e.prog.desc st.src1 = some g)
    (h : OperandsClean e ([a, g] ++ (if st.variant = 1 then (e.prog.desc st.src2).toList else [])) s s1) :
    ∃ t, evalNorm e st s = .done 0 0 t := by
  have hb : (if st.variant = 1 then e.prog.desc st.src2 else none).toList =
      if st.variant = 1 then (e.prog.desc st.src2).toList else [] := by
    split <;> rfl
  simp only [evalNorm, ha, hdst, hg]
  rw [hb, h]
  exact ⟨_, rfl⟩

theorem evalElem_done (h : OperandsClean e ([a] ++ (e.prog.desc st.src1).toList ++ (e.prog.desc st.src2).toList) s s1) :
    ∃ t, evalElem e st s = .done (ropeRange e st dst s1) 0 t := by
  simp only [evalElem, ha, hdst]
  rw [h]
  exact ⟨_, rfl⟩

theorem evalReduce_done {arrival : List (List Nat)}
    (h : OperandsClean e ([a] ++ (if st.variant = 2 then (e.prog.desc st.src1).toList else [])) s s1) :
    ∃ t, evalReduce e st arrival s = .done 0 0 t := by
  have hb : (if st.variant = 2 then e.prog.desc st.src1 else none).toList =
      if st.variant = 2 then (e.prog.desc st.src1).toList else [] := by
    split <;> rfl
  simp only [evalReduce, ha, hdst]
  rw [hb, h]
  exact ⟨_, rfl⟩

theorem evalRoute_done {m : TDesc} (hm : e.prog.desc (st.op 144 12) = some m) (h : OperandsClean e [a] s s1) :
    ∃ l t, evalRoute e st s = .done l l t := by
  simp only [evalRoute, ha, hdst, hm]
  rw [h]
  exact ⟨_, _, rfl⟩

theorem evalSample_done {r : TDesc} (hr : e.prog.desc st.src1 = some r)
    (h : OperandsClean e ([a, r] ++ (e.prog.desc st.src2).toList) s s1) : ∃ l n t, evalSample e st s = .done l n t := by
  simp only [evalSample, ha, hdst, hr]
  rw [h]
  exact ⟨_, _, _, rfl⟩

theorem evalGather_collect (hv : st.variant = 1) (h : OperandsClean e [a] s s1) :
    evalGather e st s = .done 0 0 (collect e a dst st.acc s1) := by
  simp only [evalGather, ha, hdst]
  rw [if_pos hv, h]

theorem evalGather_done {ix : TDesc} (hv : st.variant ≠ 1) (hix : e.prog.desc st.src1 = some ix)
    (h : OperandsClean e [a, ix] s s1) : ∃ l t, evalGather e st s = .done l 0 t := by
  simp only [evalGather, ha, hdst, hix]
  rw [if_neg hv, h]
  exact ⟨_, _, rfl⟩

theorem evalScatter_copy (hv : st.variant = 1) (h : OperandsClean e [a] s s1) : ∃ t, evalScatter e st s = .done 0 0 t := by
  simp only [evalScatter, ha, hdst]
  rw [if_pos hv, h]
  exact ⟨_, rfl⟩

theorem evalScatter_index {ix : TDesc} (hv : st.variant = 0) (hix : e.prog.desc st.src1 = some ix)
    (h : OperandsClean e [a, ix] s s1) : ∃ l t, evalScatter e st s = .done l 0 t := by
  simp only [evalScatter, ha, hdst, hix]
  rw [if_neg (by simp [hv]), if_pos hv, h]
  exact ⟨_, _, rfl⟩

end

/-- Settles O18. -/
theorem stitchesRunOnCleanOperands : Obligations.StitchesRunOnCleanOperands := by
  constructor
  · intro run idx e st joined s hj hr
    refine ⟨fun hv => exec_stitchDone hr (evalBarrier_barrier hj hv) rfl, fun a s1 hv ha hc hw => ?_⟩
    have hdone := evalBarrier_wait (s1 := s1) ha hj hv hc hw
    exact ⟨exec_stitchDone hr hdone rfl, exec_stitchDone hr ((if_pos hv).trans hdone) rfl⟩
  · intro run idx e st s s1 a dst ha hdst
    refine ⟨?_, ?_, ?_, ?_, ?_, ?_, ?_, ?_, ?_, ?_⟩
    · intro x s0 hx h0 h1
      obtain ⟨t, ht⟩ := evalMatmul_done ha hdst hx h0 h1
      exact ⟨fun hr => ⟨t, exec_stitchDone hr ht rfl⟩, fun hr => ⟨t, exec_stitchDone hr ht rfl⟩⟩
    · intro g hg h hr
      obtain ⟨t, ht⟩ := evalNorm_done ha hdst hg h
      exact ⟨t, exec_stitchDone hr ht rfl⟩
    · intro h hr
      obtain ⟨t, ht⟩ := evalElem_done ha hdst h
      exact ⟨t, exec_stitchDone hr ht rfl⟩
    · intro arrival h hr
      obtain ⟨t, ht⟩ := evalReduce_done (arrival := arrival) ha hdst h
      exact ⟨t, exec_stitchDone hr ht rfl⟩
    · intro m hm h hr
      obtain ⟨l, t, ht⟩ := evalRoute_done ha hdst hm h
      exact ⟨l, t, exec_stitchDone hr ht rfl⟩
    · intro r hrec h hr
      obtain ⟨l, n, t, ht⟩ := evalSample_done ha hdst hrec h
      exact ⟨l, n, t, exec_stitchDone hr ht rfl⟩
    · intro hv h hr
      exact exec_stitchDone hr (evalGather_collect ha hdst hv h) rfl
    · intro ix hv hix h hr
      obtain ⟨l, t, ht⟩ := evalGather_done ha hdst hv hix h
      exact ⟨l, t, exec_stitchDone hr ht rfl⟩
    · intro hv h hr
      obtain ⟨t, ht⟩ := evalScatter_copy ha hdst hv h
      exact ⟨t, exec_stitchDone hr ht rfl⟩
    · intro ix hv hix h hr
      obtain ⟨l, t, ht⟩ := evalScatter_index ha hdst hv hix h
      exact ⟨l, t, exec_stitchDone hr ht rfl⟩

end Sys2Proof.Machine
end

section
/-!
PROOFS of O19: SIGNAL and OFFLOAD.
-/
namespace Sys2Proof.Machine

/-- The tag found is unused, or every tag tried is in use. -/
theorem freshTag_unused_or (items : List Item) (n : Nat) (t : W32) :
    (∀ i ∈ items, i.tag ≠ freshTag items n t) ∨ ∀ k < n, t + BitVec.ofNat 32 k ∈ items.map (·.tag) := by
  induction n generalizing t with
  | zero => exact .inr fun k hk => absurd hk (Nat.not_lt_zero k)
  | succ n ih =>
    unfold freshTag
    by_cases h : items.any (fun i => i.tag = t) = true
    · rw [if_pos h]
      refine (ih (t + 1)).imp_right fun hall k hk => ?_
      cases k with
      | zero => simpa using h
      | succ k =>
        have := hall k (by omega)
        rwa [BitVec.add_assoc, show (1 : W32) + BitVec.ofNat 32 k = BitVec.ofNat 32 (k + 1) by
          rw [BitVec.add_comm, BitVec.ofNat_add]; rfl] at this
    · rw [if_neg h]
      left
      simpa using h

/-- One tag more than there are items is enough to find one unused. -/
theorem freshTag_unused {items : List Item} (t : W32) (hlen : items.length < 2 ^ 32) :
    ∀ i ∈ items, i.tag ≠ freshTag items (items.length + 1) t := by
  refine (freshTag_unused_or items (items.length + 1) t).resolve_right fun hall => ?_
  have hnodup : ((List.range (items.length + 1)).map (fun k => t + BitVec.ofNat 32 k)).Nodup := by
    refine List.pairwise_map.2 (List.pairwise_lt_range.imp_of_mem fun {a b} ha hb hlt hab => ?_)
    have := List.mem_range.1 ha
    have := List.mem_range.1 hb
    have hk : BitVec.ofNat 32 a = BitVec.ofNat 32 b := by simpa using hab
    have := congrArg BitVec.toNat hk
    simp only [BitVec.toNat_ofNat] at this
    omega
  have hsub : (List.range (items.length + 1)).map (fun k => t + BitVec.ofNat 32 k) ⊆ items.map (·.tag) := by
    intro x hx
    obtain ⟨k, hk, rfl⟩ := List.mem_map.1 hx
    exact hall k (List.mem_range.1 hk)
  have hle := hnodup.length_le_of_subset hsub
  rw [List.length_map, List.length_range, List.length_map] at hle
  omega

@[simp] theorem length_leBytes (n v : Nat) : (leBytes n v).length = n := by
  induction n generalizing v with
  | zero => rfl
  | succ n ih => simp [leBytes, ih]

theorem length_operandRecord (e : Env) (d : Option TDesc) (w : Bool) (s : State) : (operandRecord e d w s).length = 24 := by
  cases d with
  | none => rfl
  | some d => simp [operandRecord, List.length_flatMap, List.range_succ]

/-- An item is 128 bytes (Table 3-12). -/
theorem length_itemBytes (e : Env) (st : Stitch) (tag : W32) (mask deadline : Nat) (s : State) :
    (itemBytes e st tag mask deadline s).length = 128 := by
  simp [itemBytes, length_operandRecord]

/-- A SIGNAL that no earlier stitch, write or partner holds back writes its word. -/
theorem runSignal_runs {id i : Nat} {joined : Bool} {e : Env} {st : Stitch} {d : TDesc} {s : State}
    (hst : startable id i 13 s = some (e, st)) (hover : overran e.run i s = false)
    (hj : st.op 128 1 = 0 ∨ coupled e.run joined s = true) (hd : e.prog.desc st.dst = some d)
    (hacc : unaccepted e.run.ctx ((st.roles e.prog).map e.actual) s = false)
    (hearlier : ∀ j o, j < i → e.run.openAt e.prog j = true → e.prog.stitch j = some o →
      ∀ q ∈ o.roles e.prog, q ∉ st.roles e.prog)
    (hwin : ∀ w ∈ s.pair.winReqs, w.2 ≠ .write id ∧ w.2 ≠ .signal id i) :
    runSignal id i joined s =
      match (if d.kind = kindWindow then windowOf s e.run.ctx d.base else none) with
      | some (w, off) =>
        if s.viaduct.up then sendWindowWrite (.signal id i) w e.run.ctx off (leBytes 8 (st.op 192 64)) s
        else haltRun id i 3 (e.actual ((st.roles e.prog).headD 0)) s
      | none => finish id i 0 0 (foldS (if d.replicated || d.isPartial then d.piers else [d.pierFirst])
          (fun q s => writeBytes e d q 0 (leBytes 8 (st.op 192 64)) s) s) := by
  have he : (List.range i).any (fun j => e.run.openAt e.prog j &&
      (((e.prog.stitch j).map (fun o => (o.roles e.prog).any (st.roles e.prog).contains)).getD false)) = false := by
    rw [List.any_eq_false]
    intro j hj
    rw [Bool.and_eq_true, not_and]
    intro hopen
    cases ho : e.prog.stitch j with
    | none => simp
    | some o =>
      have := hearlier j o (List.mem_range.1 hj) hopen ho
      simpa using this
  have hw : s.pair.winReqs.any (fun w => w.2 = .write id) = false := by
    rw [List.any_eq_false]
    exact fun w h => by simpa using (hwin w h).1
  have hs : s.pair.winReqs.any (fun w => w.2 = .signal id i) = false := by
    rw [List.any_eq_false]
    exact fun w h => by simpa using (hwin w h).2
  have hp : (decide (st.op 128 1 = 1) && !coupled e.run joined s) = false := by
    rcases hj with h | h <;> simp [h]
  unfold runSignal
  rw [hst]
  dsimp only
  rw [he, hover, hacc, hw, hs, hp, if_neg (by simp), if_neg (by simp), hd] <;> rfl

/-- The item that an OFFLOAD queues. -/
def offloadItem (id i mask : Nat) (e : Env) (st : Stitch) (s : State) : Item :=
  let p := portGet s (st.op 128 3)
  let tag := freshTag p.items (p.items.length + 1) p.nextTag
  { tag := tag, ctx := e.run.ctx, run := id, stitch := i, pier := (st.roles e.prog).headD 0
    deadline := after s.piers.offloadTimeout.toNat s
    bytes := itemBytes e st tag mask (s.tsNow.toNat + s.piers.offloadTimeout.toNat) s, sent := false, aborted := none }

section
variable {id i : Nat} {e : Env} {st : Stitch} {s : State} (hst : startable id i 11 s = some (e, st))
include hst

theorem runOffload_masked (hd : (e.prog.desc (st.op 184 12)).isSome = true)
    (hm : (laneMask e (st.op 184 12) (st.op 196 10) s).toNat % 65536 = 0) : runOffload id i s = finish id i 0 0 s := by
  simp [runOffload, hst, hd, hm]

theorem runOffload_down (h : (e.prog.desc (st.op 184 12)).isNone = true ∨ (laneMask e (st.op 184 12) (st.op 196 10) s).toNat % 65536 ≠ 0)
    (hu : (portGet s (st.op 128 3)).st ≠ .up) (hq : (portGet s (st.op 128 3)).st ≠ .quiescing) :
    runOffload id i s = haltRun id i 6 ((st.roles e.prog).headD 0) s := by
  have hmask : ((e.prog.desc (st.op 184 12)).isSome &&
      decide ((laneMask e (st.op 184 12) (st.op 196 10) s).toNat % 65536 = 0)) = false := by
    rcases h with h | h
    · rw [Option.isNone_iff_eq_none.1 h]
      rfl
    · simp [h]
  simp only [runOffload, hst, hmask]
  simp [hu, hq]

theorem runOffload_queued (h : (e.prog.desc (st.op 184 12)).isNone = true ∨ (laneMask e (st.op 184 12) (st.op 196 10) s).toNat % 65536 ≠ 0)
    (hu : (portGet s (st.op 128 3)).st = .up) :
    runOffload id i s =
      let it := offloadItem id i ((laneMask e (st.op 184 12) (st.op 196 10) s).toNat % 65536) e st s
      runMod id (fun r => { r with items := r.items ++ [(i, st.op 128 3, it.tag.toNat)] })
        (portSet (st.op 128 3) { portGet s (st.op 128 3) with
          items := (portGet s (st.op 128 3)).items ++ [it], nextTag := it.tag + 1 } s) := by
  have hmask : ((e.prog.desc (st.op 184 12)).isSome &&
      decide ((laneMask e (st.op 184 12) (st.op 196 10) s).toNat % 65536 = 0)) = false := by
    rcases h with h | h
    · rw [Option.isNone_iff_eq_none.1 h]
      rfl
    · simp [h]
  simp only [runOffload, hst, hmask]
  simp [hu, offloadItem]

end

/-- Settles O19. -/
theorem signalAndOffload : Obligations.SignalAndOffload := by
  constructor
  · intro run idx e st d joined s hst hover hj hd hacc hearlier hwin
    have hrun := runSignal_runs hst hover hj hd hacc hearlier hwin
    refine ⟨fun hk => congrArg Host.Outcome.next (hrun.trans ?_), fun w off hk hw hu => congrArg Host.Outcome.next (hrun.trans ?_)⟩
    · rw [if_neg hk]
    · rw [if_pos hk, hw]
      dsimp only
      rw [if_pos hu]
  · intro run idx e st s hst mask port
    refine ⟨fun hd hm => congrArg _ (runOffload_masked hst hd hm), fun h hu hlen => ?_,
      fun h hu hq => congrArg _ (runOffload_down hst h hu hq)⟩
    have hrun := congrArg (Host.Outcome.next (σ := State) (φ := Fault) (ρ := Refusal)) (runOffload_queued hst h hu)
    refine ⟨offloadItem run idx mask e st s, _, hrun, ?_, freshTag_unused _ hlen, rfl, rfl, rfl, rfl, rfl,
      length_itemBytes _ _ _ _ _ _, ?_, rfl, rfl⟩
    · exact congrArg GirthPort.items (portGet_portSet_self _ _ _)
    · exact congrArg GirthPort.nextTag (portGet_portSet_self _ _ _)

end Sys2Proof.Machine
end

section
/-!
PROOFS of O21: lines read and written.
-/
namespace Sys2Proof.Machine

/-! ### A touched line -/

theorem checkOut_none : checkOut [] = .clean := by decide +kernel

theorem residual_none : residual [] = List.replicate 36 0 := by decide +kernel

/-- A word without symbol errors and without poison leaves the line as it is. -/
theorem checkLine_sound {p a : Nat} {s : State} (h : (sideGet s p a).poison = false) : checkLine p a [] s = s := by
  have hall : (List.replicate 36 (0 : W16)).all (fun e => e = 0) = true := by decide
  have hzero : (List.replicate 36 (0 : W16)).getD 32 0 = 0 := by decide
  unfold checkLine
  rw [checkOut_none, residual_none]
  dsimp only
  rw [hall, hzero]
  simp [sideError, h]

theorem lineAt_touch (r : Region) (p a l : Nat) (s : State) : lineAt (touch p a s) r p a l = lineAt s r p a l := rfl

theorem tagRefuses_touch (r : Region) (x : Option Nat) (p a : Nat) (s : State) :
    tagRefuses (touch p a s) r x p a = tagRefuses s r x p a := rfl

theorem tagRefuses_eq_false {s : State} {r : Region} {x : Option Nat} {p a k : Nat}
    (hk : readKey s r (sideGet s p a) = some k)
    (hx : ∀ c, x = some c → r.owner = 1 → (sideGet s p a).ctxTag.toNat = c) : tagRefuses s r x p a = false := by
  cases x with
  | none => simp [tagRefuses, hk]
  | some c =>
    by_cases ho : r.owner = 1
    · simp [tagRefuses, hk, hx c rfl ho]
    · have ho' : decide (r.owner = 1) = false := by simpa using ho
      rw [tagRefuses, hk, ho']
      rfl

/-- A line of an unmirrored region whose pier is up is read at its one place. -/
theorem memRead_primary {dpa : Nat} {req : MemRequester} {h : Hit} {k : Nat} {s : State}
    (hm : mapDpa s.store.regions dpa = some h) (hmir : h.region.mirror = false) (hup : memUp s (primaryPlace h).pier = true)
    (htag : ∀ x, reqTagged req = some x → h.region.owner = 1 →
      (sideGet s (primaryPlace h).pier (primaryPlace h).addr).ctxTag.toNat = x)
    (hk : readKey s h.region (sideGet s (primaryPlace h).pier (primaryPlace h).addr) = some k)
    (hp : (sideGet s (primaryPlace h).pier (primaryPlace h).addr).poison = false) :
    memRead dpa req [] s = (⟨decrypt s (primaryPlace h).pier (primaryPlace h).addr k (dpa / 64), false⟩,
      touch (primaryPlace h).pier (primaryPlace h).addr s) := by
  have hplaces : (readPlaces s h).filter (fun c => memUp s c.pier) = [primaryPlace h] := by
    simp [readPlaces, hmir, hup]
  have hcheck : checkLine (primaryPlace h).pier (primaryPlace h).addr [] (touch (primaryPlace h).pier (primaryPlace h).addr s) =
      touch (primaryPlace h).pier (primaryPlace h).addr s := checkLine_sound hp
  have hline : lineAt s h.region (primaryPlace h).pier (primaryPlace h).addr (dpa / 64) =
      some ⟨decrypt s (primaryPlace h).pier (primaryPlace h).addr k (dpa / 64), false⟩ := by
    rw [lineAt, hk, ← hp]
  simp only [memRead, hm, hplaces, readPlace, hcheck, tagRefuses_touch, tagRefuses_eq_false hk htag, lineAt_touch, hline]
  rfl

/-! ### What a line written leaves -/

theorem length_lineBytes (d : LineData) : (lineBytes d).length = 64 := length_leBytes _ _

theorem mgetN_putLine (p a : Nat) (d : LineData) (x : Side) (s : State) :
    mgetN (putLine p a d x s).store.cells (byteKey p (a / 64 * 64)) 64 = lineBytes d := by
  have h := mgetN_msetN s.store.cells (byteKey p (a / 64 * 64)) (lineBytes d)
  rwa [length_lineBytes] at h

theorem mget_putLine_other (p a : Nat) (d : LineData) (x : Side) (s : State) {b : Nat}
    (h : b < byteKey p (a / 64 * 64) ∨ byteKey p (a / 64 * 64) + 64 ≤ b) :
    mget (putLine p a d x s).store.cells b = mget s.store.cells b :=
  mget_msetN_other _ _ _ (by rwa [length_lineBytes])

theorem mget_writePlace_other (r : Region) (ctx p a l : Nat) (d : LineData) (mask : W64) (poison : Bool) (s : State) {b : Nat}
    (h : b < byteKey p (a / 64 * 64) ∨ byteKey p (a / 64 * 64) + 64 ≤ b) :
    mget (writePlace r ctx p a l d mask poison s).store.cells b = mget s.store.cells b := by
  unfold writePlace
  dsimp only
  split
  · rfl
  · split
    · exact mget_putLine_other _ _ _ _ _ h
    · exact mget_putLine_other _ _ _ _ _ h

theorem mget_writePlaces_other (r : Region) (ctx l : Nat) (d : LineData) (mask : W64) (poison : Bool) {cs : List Place} {b : Nat}
    (h : ∀ c ∈ cs, b < byteKey c.pier (c.addr / 64 * 64) ∨ byteKey c.pier (c.addr / 64 * 64) + 64 ≤ b) (s : State) :
    mget (foldS cs (fun c => writePlace r ctx c.pier c.addr l d mask poison) s).store.cells b = mget s.store.cells b := by
  induction cs generalizing s with
  | nil => rfl
  | cons c cs ih =>
    exact (ih (fun x hx => h x (by simp [hx])) _).trans (mget_writePlace_other _ _ _ _ _ _ _ _ _ (h c (by simp)))

/-! ### An event leaves memory as it is, whatever it resets -/

theorem chipReset_cells (cause : BitVec 4) (s : State) : (chipReset cause s).store.cells = s.store.cells := by
  obtain ⟨t, ht, -, -, -, -, -, ⟨hc, -⟩, -⟩ := chipReset_leaves cause s
  rw [ht, hc]

theorem handover_cells (next : Option (BitVec 4)) (s : State) : (handover next s).store.cells = s.store.cells := by
  unfold handover
  split
  · rfl
  · split
    · rfl
    · cases next with
      | none => rfl
      | some c => exact chipReset_cells c s

theorem interrupt_store (v : BitVec 11) (s : State) : (interrupt v s).store = s.store := by
  obtain ⟨p, o, e, -⟩ := interrupt_eq v s
  rw [e]

theorem react_cells (n : Nat) (c : FaultClass) (r : BitVec 6) (v : BitVec 11) (s : State) :
    (react n c r v s).store.cells = s.store.cells := by
  unfold react
  extract_lets s1 flt s2
  have h1 : s1.store = s.store := by
    unfold s1
    split
    · exact interrupt_store v s
    · rfl
  have h2 : s2.store = s.store := by
    unfold s2
    split
    · exact h1
    · exact h1
  split
  · rfl
  · split
    · rw [handover_cells, h2]
    · rw [h2]

theorem latch_cells (n : Nat) (cls : FaultClass) (wire : Bool) (detail : Nat) (s : State) :
    (latch n cls wire detail s).store.cells = s.store.cells := by
  unfold latch
  extract_lets c x s1
  have h1 : s1.store = s.store := by
    obtain ⟨m, b, o, em⟩ := emcyOf_eq n c (!x.status c) (wire && !x.wire) detail
      (trace 0x01 uCollector (n + 4096 * clsCode c + 16384 * b2n wire) detail (latchRegs n c wire detail s))
    obtain ⟨b', eb⟩ := trace_eq 0x01 uCollector (n + 4096 * clsCode c + 16384 * b2n wire) detail (latchRegs n c wire detail s)
    show (emcyOf _ _ _ _ _ _).store = _
    rw [em, eb, latchRegs_faults]
  split
  · rfl
  · split
    · rw [h1]
    · rw [react_cells, h1]

theorem unmapped_cells (req : MemRequester) (s : State) : (unmapped req s).store.cells = s.store.cells :=
  latch_cells 2930 .uc false 0 s

/-- A write leaves every byte outside its places as it was. -/
theorem mget_memWrite_other {dpa : Nat} {req : MemRequester} {d : LineData} {mask : W64} {poison : Bool} {s : State} {b : Nat}
    (h : ∀ h, mapDpa s.store.regions dpa = some h → ∀ c ∈ writePlaces s h,
      b < byteKey c.pier (c.addr / 64 * 64) ∨ byteKey c.pier (c.addr / 64 * 64) + 64 ≤ b) :
    mget (memWrite dpa req d mask poison s).store.cells b = mget s.store.cells b := by
  unfold memWrite memWriteFor
  split
  · rw [unmapped_cells]
  · rename_i hit hhit
    split
    · rfl
    · refine mget_writePlaces_other _ _ _ _ _ _ (fun c hc => h hit hhit c ?_) _
      exact (List.mem_filter.1 hc).1

/-- A whole line of an unmirrored region is written at its one place. -/
theorem memWrite_primary {dpa : Nat} {req : MemRequester} {d : LineData} {poison : Bool} {h : Hit} {s : State}
    (hm : mapDpa s.store.regions dpa = some h) (hmir : h.region.mirror = false) (hup : memUp s (primaryPlace h).pier = true)
    (hk : (writeSide s h.region ((reqCtx req).getD 0)).key ≠ 0) :
    memWrite dpa req d (BitVec.allOnes 64) poison s =
      putLine (primaryPlace h).pier (primaryPlace h).addr d
        { writeSide s h.region ((reqCtx req).getD 0) with poison := poison }
        (touch (primaryPlace h).pier (primaryPlace h).addr s) := by
  have hplaces : (writePlaces s h).filter (fun c => memUp s c.pier) = [primaryPlace h] := by
    simp [writePlaces, hmir, hup]
  simp only [memWrite, memWriteFor, hm, hplaces]
  show writePlace _ _ _ _ _ _ _ _ s = _
  simp [writePlace, hk]

/-- Settles O21. -/
theorem linesAreReadAndWritten : Obligations.LinesAreReadAndWritten := by
  refine ⟨fun dpa req h k s ha hm hmir hup htag hk hp => ?_, fun dpa req d poison h s ha _ hm hmir hup hk => ⟨?_, ?_⟩,
    fun dpa req d mask poison s ha => ⟨memWrite (dpa.toNat / 64 * 64) req d mask poison s, ?_, fun ⟨hc, hs⟩ => ?_, fun b hb => ?_⟩⟩
  · have hread := memRead_primary (req := req) hm hmir hup htag hk hp
    have hl : dpa.toNat / 64 * 64 / 64 = dpa.toNat / 64 := by omega
    rw [hl] at hread
    refine ⟨?_, by rw [hread]⟩
    show execMemoryRead dpa req [] s = _
    unfold execMemoryRead
    rw [ha, hread]
    cases req <;> rfl
  · show execMemoryWrite dpa req d _ poison s = _
    rw [execMemoryWrite, if_pos ha, memWrite_primary hm hmir hup hk]
  · exact mgetN_putLine _ _ _ _ _
  · show execMemoryWrite dpa req d mask poison s = _
    rw [execMemoryWrite, if_pos ha]
  · have hkeep := (Keeps.refl s).memWrite (dpa := dpa.toNat / 64 * 64) (req := req) (d := d) (mask := mask) (poison := poison)
    exact ⟨hkeep.cells hc, hkeep.scratch hs⟩
  · exact mget_memWrite_other hb

end Sys2Proof.Machine
end

section
/-!
PROOFS of O29: a context's binding.
-/
namespace Sys2Proof.Machine

/-- GO and UNBIND stand above the fields of CTX_BIND. -/
theorem fld_or_twoPow {v : W64} {b lo len : Nat} (h : lo + len ≤ b) : fld (v ||| BitVec.twoPow 64 b) lo len = fld v lo len := by
  have hz : BitVec.setWidth len (BitVec.twoPow 64 b >>> lo) = 0#len := by
    ext i hi
    have hb : ¬(b = lo + i) := by omega
    simp [hb]
  have hw : BitVec.setWidth len ((v ||| BitVec.twoPow 64 b) >>> lo) = BitVec.setWidth len (v >>> lo) := by
    rw [BitVec.ushiftRight_or_distrib, BitVec.setWidth_or, hz, BitVec.or_zero]
  have := congrArg BitVec.toNat hw
  simpa [fld, Nat.shiftRight_eq_div_pow] using this

theorem bindFields_or_twoPow {v : W64} {b : Nat} (h : 60 ≤ b) (s : State) :
    bindFields (v ||| BitVec.twoPow 64 b) s = bindFields v s := by
  simp only [bindFields, fld_or_twoPow (v := v) (show 48 + 12 ≤ b by omega), fld_or_twoPow (v := v) (show 0 + 20 ≤ b by omega)]

/-- A write while no key request waits and not both bits are set asks core 7. -/
theorem execCtxBind_eq {v : W64} {s : State} (h : bar0Open s = true) (hr : s.host.bindReq = none) :
    execCtxBind v s = .next (if v.getLsbD 62 then bindResult stFormat (bindFields v s)
      else bindRequest ⟨fld v 48 12, some (BitVec.ofNat 20 (fld v 0 20), s.host.bindCred)⟩ (bindFields v s)) := by
  have hv : v ||| 0x8000000000000000 = v ||| BitVec.twoPow 64 63 := by rfl
  have h62 : (v ||| BitVec.twoPow 64 63).getLsbD 62 = v.getLsbD 62 := by simp
  have h63 : (v ||| BitVec.twoPow 64 63).getLsbD 63 = true := by simp
  unfold execCtxBind bindWrite
  rw [hv, h, hr, h62, h63, bindFields_or_twoPow (by omega), fld_or_twoPow (by omega)]
  simp only [Bool.and_true]
  rfl

theorem execCtxUnbind_eq {v : W64} {s : State} (h : bar0Open s = true) (hr : s.host.bindReq = none) :
    execCtxUnbind v s = .next (if v.getLsbD 63 then bindResult stFormat (bindFields v s)
      else bindRequest ⟨fld v 48 12, none⟩ (bindFields v s)) := by
  have hv : v ||| 0x4000000000000000 = v ||| BitVec.twoPow 64 62 := by rfl
  have h62 : (v ||| BitVec.twoPow 64 62).getLsbD 62 = true := by simp
  have h63 : (v ||| BitVec.twoPow 64 62).getLsbD 63 = v.getLsbD 63 := by simp
  unfold execCtxUnbind bindWrite
  rw [hv, h, hr, h62, h63, bindFields_or_twoPow (by omega), fld_or_twoPow (by omega)]
  simp only [Bool.true_and]
  rfl

theorem bindWrite_busy {v : W64} {u : Bool} {r : BindReq} {s : State} (h : bar0Open s = true) (hr : s.host.bindReq = some r) :
    bindWrite v u s = countIgnored 0x40010 s := by
  simp [bindWrite, h, hr]

/-- A core that has to wait for its handler keeps the request; a free one serves it. -/
theorem bindRequest_waits {r : BindReq} {s : State} (h : coreFree 7 s = false) :
    bindRequest r s = ringDoorbell 7 0 { s with host := { s.host with bindReq := some r } } := by
  rw [bindRequest, if_neg (by simp [h])]

theorem bindRequest_free {r : BindReq} {s : State} (h : coreFree 7 s = true) :
    bindRequest r s = serveBind r (dispatchBit 7 0 s) := by
  rw [bindRequest, if_pos h]

section
variable {c : Nat} {pasid : BitVec 20} {cred : W64} {s : State}

theorem bindCtx_locked (h : s.ticks < (bindingGet s c).lockout) : bindCtx c pasid cred s = bindResult stPerm s := by
  have hd : due (bindingGet s c).lockout s = false := by simp [due, h]
  have hz : (bindingGet s c).lockout ≠ 0 := by omega
  simp [bindCtx, hd, hz]

theorem bindCtx_state (hl : (bindingGet s c).lockout = 0)
    (h : (ctxGet s c).st = .free ∨ (ctxGet s c).owner = 0 ∨ (bindingGet s c).bound = true) :
    bindCtx c pasid cred s = bindResult stState s := by
  simp only [bindCtx, hl]
  rcases h with h | h | h <;> simp [h, hl]

theorem bindCtx_wrongCred (hl : (bindingGet s c).lockout = 0) (hf : (ctxGet s c).st ≠ .free) (ho : (ctxGet s c).owner ≠ 0)
    (hb : (bindingGet s c).bound = false) (hc : (ctxGet s c).cred ≠ cred) :
    bindCtx c pasid cred s = traceCtx 7 c 5 0 (count 2552 (bindResult stPerm (bindingSet c { bindingGet s c with
      mismatches := (bindingGet s c).mismatches + 1
      lockout := if 16 ≤ (bindingGet s c).mismatches + 1 then after s.host.bindLockout.toNat s else 0 } s))) := by
  unfold bindCtx
  simp only [hl, ne_eq, not_true_eq_false, decide_false, Bool.false_and, Bool.false_eq_true, if_false]
  rw [if_neg (by simpa [hf, hb] using ho), if_pos (by simpa using hc)]

theorem bindCtx_rightCred (hl : (bindingGet s c).lockout = 0) (hf : (ctxGet s c).st ≠ .free) (ho : (ctxGet s c).owner ≠ 0)
    (hb : (bindingGet s c).bound = false) (hc : (ctxGet s c).cred = cred) :
    bindCtx c pasid cred s = resumeEngines (traceCtx 7 c 3 pasid.toNat
      (putContext c (bindingSet c { bound := true, pasid := pasid } (bindResult stOk s)))) := by
  unfold bindCtx
  simp only [hl, ne_eq, not_true_eq_false, decide_false, Bool.false_and, Bool.false_eq_true, if_false]
  rw [if_neg (by simpa [hf, hb] using ho), if_neg (by simpa using hc)]

end

/-- What a bind with a wrong credential leaves: REJECT_PERM and one mismatch more, the sixteenth starting the lockout. -/
theorem bindCtx_mismatch {c : Nat} {pasid : BitVec 20} {cred : W64} {s : State} (hl : (bindingGet s c).lockout = 0)
    (hf : (ctxGet s c).st ≠ .free) (ho : (ctxGet s c).owner ≠ 0) (hb : (bindingGet s c).bound = false) (hc : (ctxGet s c).cred ≠ cred) :
    ∃ h o, bindCtx c pasid cred s = { s with host := h, obs := o } ∧ h.bindStatus = 0x12 ∧
      (tget (fun _ => {}) h.bindings c : Binding).mismatches = (bindingGet s c).mismatches + 1 ∧
      (tget (fun _ => {}) h.bindings c : Binding).lockout =
        (if 16 ≤ (bindingGet s c).mismatches + 1 then after s.host.bindLockout.toNat s else 0) := by
  rw [bindCtx_wrongCred hl hf ho hb hc]
  generalize hb1 : ({ bindingGet s c with
      mismatches := (bindingGet s c).mismatches + 1
      lockout := if 16 ≤ (bindingGet s c).mismatches + 1 then after s.host.bindLockout.toNat s else 0 } : Binding) = b1
  have hget : bindingGet (bindingSet c b1 s) c = b1 := bindingGet_bindingSet_self c b1 s
  obtain ⟨o, ho⟩ := countN_eq 2552 1 (bindResult stPerm (bindingSet c b1 s))
  rw [count, ho, traceCtx]
  obtain ⟨o', ho'⟩ := trace_eq 0x28 (uCore 7) (c + 65536 * 5) 0 { bindResult stPerm (bindingSet c b1 s) with obs := o }
  rw [ho']
  refine ⟨(bindResult stPerm (bindingSet c b1 s)).host, o', rfl, rfl, ?_, ?_⟩
  · exact (congrArg Binding.mismatches hget).trans (by rw [← hb1])
  · exact (congrArg Binding.lockout hget).trans (by rw [← hb1])

theorem unbindCtx_not_bound {c : Nat} {s : State} (h : (bindingGet s c).bound = false) : unbindCtx c s = s := by
  simp [unbindCtx, h]

theorem unbindCtx_bound {c : Nat} {s : State} (h : (bindingGet s c).bound = true) :
    unbindCtx c s = traceCtx 7 c 4 0 (putContext c (bindingSet c { bindingGet s c with bound := false, pasid := 0 } (xlUnbind c s))) := by
  simp [unbindCtx, h]

/-- The request without a credential unbinds, unless an armed queue pair uses the context. -/
theorem serveBind_unbind {c : Nat} {s : State} (h : ∀ q ∈ s.host.qps, q.2.armed = true → q.2.ctx.toNat ≠ c) :
    serveBind ⟨c, none⟩ s = unbindCtx c (bindResult stOk { s with host := { s.host with bindReq := none } }) := by
  unfold serveBind
  dsimp only
  rw [if_neg (by simpa using fun a b hq ha => h (a, b) hq ha)]

theorem serveBind_in_use {c : Nat} {s : State} (h : ∃ q ∈ s.host.qps, q.2.armed = true ∧ q.2.ctx.toNat = c) :
    serveBind ⟨c, none⟩ s = bindResult stState { s with host := { s.host with bindReq := none } } := by
  obtain ⟨q, hq, ha, hc⟩ := h
  unfold serveBind
  dsimp only
  rw [if_pos (List.any_eq_true.2 ⟨q, hq, by simp [ha, hc]⟩)]

/-- Core 7 dispatched by its doorbell bit 0 serves the key request that waits. -/
theorem execTrestleDispatch_serves {r : BindReq} {s : State} (hr : coreRuns 7 s = true) (hb : s.host.bindReq = some r)
    (hbit : (trestleGet s 7).doorbell.getLsbD 0 = true) :
    execTrestleDispatch 7 s = .next (serveBind r (dispatchBit 7 0 s)) := by
  have hh : handlerRuns 7 s = false := by
    unfold handlerRuns
    split <;> rfl
  have hrun : runHandler 7 0 (dispatchBit 7 0 s) = serveBind r (dispatchBit 7 0 s) := by
    simp only [runHandler, dispatchBit, trestleSet_host, hb]
  unfold execTrestleDispatch
  rw [show ((7 : Core) : Nat) = 7 from rfl, if_neg (by simp [hr, hh]), if_neg (by simp),
    findBelow_eq_some (b := 0) (by omega) hbit (by omega)]
  exact congrArg _ hrun

/-- Settles O29: GO and UNBIND stand above the fields, so each write is its key request; `bindCtx` and `unbindCtx` then say what
a served request leaves. -/
theorem contextsAreBoundAndUnbound : Obligations.ContextsAreBoundAndUnbound := by
  refine ⟨fun v s h hr => ⟨fun hv => ?_, fun hv hf => ?_, fun hv hf => ?_⟩, fun v r s h hr => ⟨?_, ?_⟩, fun r s h hr hb => ?_,
    fun v s h hr hf => ⟨fun hv => ?_, fun hv => ?_⟩, fun c s ha hl hd => ?_⟩
  · show execCtxBind v s = _
    rw [execCtxBind_eq h hr, if_pos hv]
    rfl
  · show execCtxBind v s = _
    rw [execCtxBind_eq h hr, hv, if_neg Bool.false_ne_true, bindRequest_waits (s := bindFields v s) hf]
    rfl
  · have e : exec (.ctxBind v) s = .next (serveBind ⟨fld v 48 12, some (BitVec.ofNat 20 (fld v 0 20), s.host.bindCred)⟩
        (dispatchBit 7 0 (bindFields v s))) := by
      show execCtxBind v s = _
      rw [execCtxBind_eq h hr, hv, if_neg Bool.false_ne_true, bindRequest_free (s := bindFields v s) hf]
    refine ⟨fun hl => e.trans ?_, fun hl hx => e.trans ?_, fun hl hx ho hb hc => ?_, fun hl hx ho hb hc => e.trans ?_⟩
    · exact congrArg _ (bindCtx_locked hl)
    · exact congrArg _ (bindCtx_state hl hx)
    · obtain ⟨h', o, ht, hs, hm, hk⟩ := bindCtx_mismatch (pasid := BitVec.ofNat 20 (fld v 0 20))
        (s := { dispatchBit 7 0 (bindFields v s) with host := { (dispatchBit 7 0 (bindFields v s)).host with bindReq := none } })
        hl hx ho hb hc
      exact ⟨_, e.trans (congrArg _ ht), rfl, hs, hm, hk⟩
    · exact congrArg _ (bindCtx_rightCred hl hx ho hb hc)
  · show Host.Outcome.next (bindWrite _ _ s) = _
    rw [bindWrite_busy h hr]
  · show Host.Outcome.next (bindWrite _ _ s) = _
    rw [bindWrite_busy h hr]
  · exact execTrestleDispatch_serves h hr hb
  · show execCtxUnbind v s = _
    rw [execCtxUnbind_eq h hr, if_pos hv]
    rfl
  · have e : exec (.ctxUnbind v) s = .next (serveBind ⟨fld v 48 12, none⟩ (dispatchBit 7 0 (bindFields v s))) := by
      show execCtxUnbind v s = _
      rw [execCtxUnbind_eq h hr, hv, if_neg Bool.false_ne_true, bindRequest_free (s := bindFields v s) hf]
    refine ⟨fun hq => e.trans (congrArg _ (serveBind_in_use hq)), fun hq => ?_⟩
    have e' := e.trans (congrArg _ (serveBind_unbind hq))
    exact ⟨fun hb => e'.trans (congrArg _ (unbindCtx_not_bound hb)), fun hb => ⟨e', _, unbindCtx_bound hb⟩⟩
  · show execBindLockoutExpiry c s = _
    unfold execBindLockoutExpiry
    dsimp only
    rw [if_pos (by simp [ha, hl, due, hd])]

end Sys2Proof.Machine
end

section
/-!
PROOFS of O31: what is written to the rings, and the consumer head.
-/
namespace Sys2Proof.Machine

@[simp] theorem qpGet_qpSet_self (n : Nat) (q : QpEntry) (s : State) : qpGet (qpSet n q s) n = q := tget_tset_self _ _ _ _

@[simp] theorem qpSet_qpSet (n : Nat) (q r : QpEntry) (s : State) : qpSet n r (qpSet n q s) = qpSet n r s := by
  simp [qpSet]

/-- Without an interrupt enabled a flag is written and nothing more. -/
theorem flagWritten_quiet {n : Nat} {s : State} (h : (qpGet s n).ien = false) : flagWritten n s = s := by
  simp [flagWritten, h]

/-- Byte `k` of the slot of the next write (R213). -/
def ringAt (q : QpEntry) (k : Nat) : W64 :=
  BitVec.ofNat 64 (q.cqAddr.toNat * 4096 + 128 * (q.produced % ringSize q.cqSize.toNat) + k)

/-- The kind and the flags of the entry at the next write, its phase among them. -/
def ringFlags (q : QpEntry) (b : List Byte) : List Byte :=
  [b.getD 0 0, b.getD 1 0 ||| BitVec.ofNat 8 (phaseOf q.produced (ringSize q.cqSize.toNat))]

theorem ringWrite_def (n : Nat) (b : List Byte) (use : SlotUse) (s : State) :
    ringWrite n b use s = flagWritten n (qpSet n { qpGet s n with produced := (qpGet s n).produced + 1, ring := (qpGet s n).ring ++ [use] }
      (hostWrite (ringAt (qpGet s n) 0) none (ringFlags (qpGet s n) b) (hostWrite (ringAt (qpGet s n) 2) none (slice b 2 126) s))) := by
  simp only [ringWrite, ringAt, ringFlags, Nat.add_zero]

/-- One ring entry: its bytes 2 to 127 first, its flag bytes after them; then the write number moves on. -/
theorem ringWrite_quiet {n : Nat} {b : List Byte} {use : SlotUse} {s : State} (h : (qpGet s n).ien = false) :
    ∃ o, ringWrite n b use s =
      { qpSet n { qpGet s n with produced := (qpGet s n).produced + 1, ring := (qpGet s n).ring ++ [use] } s with
        obs := o
        out := s.out ++ [.hostWrite (ringAt (qpGet s n) 2) none (slice b 2 126),
          .hostWrite (ringAt (qpGet s n) 0) none (ringFlags (qpGet s n) b)] } := by
  rw [ringWrite_def]
  generalize qpGet s n = q at h ⊢
  generalize ringAt q 2 = at2
  generalize ringAt q 0 = at0
  generalize ringFlags q b = flags
  obtain ⟨o1, h1⟩ := hostWrite_eq at2 none (slice b 2 126) s
  rw [h1]
  obtain ⟨o2, h2⟩ := hostWrite_eq at0 none flags { s with obs := o1, out := s.out ++ [.hostWrite at2 none (slice b 2 126)] }
  rw [h2]
  refine ⟨o2, (flagWritten_quiet (by rw [qpGet_qpSet_self]; exact h)).trans ?_⟩
  simp only [qpSet, List.append_assoc, List.cons_append, List.nil_append]

theorem execCompletionWrite_waiting {qp : Qp} {c : Completion} {rest : List Completion} {s : State} (hc : canRequest s = true)
    (ha : (qpGet s qp).armed = true) (hw : (qpGet s qp).waiting = c :: rest) :
    execCompletionWrite qp s = .next (ringWrite qp c.bytes .completion
      (qpSet qp { qpGet s qp with waiting := rest, reserved := (qpGet s qp).reserved - 1 } s)) := by
  unfold execCompletionWrite
  dsimp only
  rw [if_neg (by simp [hc, ha]), hw]

theorem execRecordWrite_ready {rec : Fin 262144} {r : OutRec} {q : QpEntry} {s : State} (hc : canRequest s = true)
    (hn : nextRecord s rec = some (r, q)) (hroom : q.room = true)
    (hv : q.vis = true → ∀ l ∈ referenced s (streamGet s rec) r, unflushed s l = false) :
    execRecordWrite rec s =
      let x := streamGet s rec
      let again := decide (x.writeSeq.toNat < x.writtenTo.toNat)
      let x1 := { x with writeSeq := x.writeSeq + 1, writtenTo := if again then x.writtenTo else x.writeSeq + 1 }
      .next (ringWrite x.deliverCq.toNat (recordBytes x rec r false) (.record rec (x.handle rec) r.seq r.final)
        (count (if again then 2604 else 2603) (streamSet rec x1 s))) := by
  unfold execRecordWrite
  dsimp only
  rw [hn]
  dsimp only
  rw [if_neg (by simp [hc]), if_neg (by simp [hroom]), if_neg]
  rw [Bool.and_eq_true, not_and]
  intro h
  simpa using hv h

theorem execCqHeadWrite_word {qp : Qp} {value : W16} {s : State} (h : barOpen s = true) (ha : (qpGet s qp).armed = true) :
    execCqHeadWrite qp 3 value s =
      let q := qpGet s qp
      let size := ringSize q.cqSize.toNat
      let back := (q.produced + size - value.toNat % size) % size
      .next (if q.produced < q.head + back then raise 2921 .ce qp (count 2551 s)
        else foldS (q.ring.take (q.produced - back - q.head)) slotDelivered
          (qpSet qp { q with head := q.produced - back, ring := q.ring.drop (q.produced - back - q.head) } s)) := by
  unfold execCqHeadWrite
  dsimp only
  rw [if_neg (by simp [h]), if_neg (by simp [ha]), if_neg (by decide)]

/-- Settles O31. -/
theorem ringsAreWrittenAndRead : Obligations.RingsAreWrittenAndRead := by
  refine ⟨fun qp c rest s hc ha hw hi => ?_, fun rec r q s hc hn hroom hv => ⟨fun h => ?_, fun h => ?_⟩,
    fun qp value s h ha => ⟨fun hle => ?_, fun hlt => ?_⟩, fun qp s ha hq hi ht hu hd => ?_⟩
  · generalize hs1 : qpSet qp { qpGet s qp with waiting := rest, reserved := (qpGet s qp).reserved - 1 } s = s1
    have hq : qpGet s1 qp = { qpGet s qp with waiting := rest, reserved := (qpGet s qp).reserved - 1 } := by
      rw [← hs1, qpGet_qpSet_self]
    obtain ⟨o, ho⟩ := ringWrite_quiet (n := qp) (b := c.bytes) (use := .completion) (s := s1) (by rw [hq]; exact hi)
    refine ⟨_, (execCompletionWrite_waiting hc ha hw).trans (congrArg _ ((congrArg _ hs1).trans ho)), ?_, ?_, ?_⟩
    · rw [← hs1]
      rfl
    · have hf : ringFlags (qpGet s1 qp) c.bytes =
          [c.kind, BitVec.ofNat 8 (phaseOf (qpGet s qp).produced (ringSize (qpGet s qp).cqSize.toNat))] := by
        rw [hq]
        exact congrArg (fun f => [c.kind, f]) BitVec.zero_or
      show s1.out ++ _ = _
      rw [hf, hq, ← hs1]
      simp only [ringAt, qpSet, Nat.add_zero]
    · refine (qpGet_qpSet_self qp _ s1).trans ?_
      rw [hq]
  · refine (execRecordWrite_ready hc hn hroom hv).trans ?_
    dsimp only
    rw [decide_eq_true h]
    rfl
  · refine (execRecordWrite_ready hc hn hroom hv).trans ?_
    dsimp only
    rw [decide_eq_false (by omega)]
    rfl
  · exact (execCqHeadWrite_word h ha).trans (congrArg _ (if_neg (by simpa using hle)))
  · exact (execCqHeadWrite_word h ha).trans (congrArg _ (if_pos hlt))
  · show execCoalTimeout qp s = _
    unfold execCoalTimeout
    dsimp only
    rw [if_pos (by simp [ha, hq, hi, show (qpGet s qp).coalTicks ≠ 0#16 from ht, hu, due, hd])]

end Sys2Proof.Machine
end

section
/-!
PROOFS of O32: interrupts, and the completions of idern's host reads.
-/
namespace Sys2Proof.Machine

@[simp] theorem msixGet_msixSet_self (v : Nat) (e : MsixEntry) (s : State) : msixGet (msixSet v e s) v = e := tget_tset_self _ _ _ _

@[simp] theorem msixSet_msixSet (v : Nat) (e f : MsixEntry) (s : State) : msixSet v f (msixSet v e s) = msixSet v f s := by
  simp [msixSet]

theorem execMsixUnmask_one {v : Fin 2048} {s : State} (h : bar0Open s = true) (hf : s.host.flr = none) :
    execMsixUnmask (some v) s = .next (sendPending v (msixSet v { msixGet s v with masked := false } s)) := by
  unfold execMsixUnmask
  dsimp only
  rw [if_neg (by simp [h]), if_neg (by simp [hf])]

theorem sendPending_sent {v : Nat} {s : State} (hp : (msixGet s v).pend = true) (hm : (msixGet s v).masked = false)
    (hen : s.host.msixEn = true) (hmask : s.host.msixMask = false) (hc : canRequest s = true) :
    sendPending v s = emit (.msix (BitVec.ofNat 11 v)) (msixSet v { msixGet s v with pend := false } s) := by
  simp [sendPending, hp, hm, hen, hmask, hc]

theorem sendPending_not_pending {v : Nat} {s : State} (hp : (msixGet s v).pend = false) : sendPending v s = s := by
  simp [sendPending, hp]

/-- With nothing pending, a sweep over the vectors sends nothing. -/
theorem sendAllPending_none {s : State} (h : ∀ v, (msixGet s v).pend = false) : sendAllPending s = s := by
  unfold sendAllPending foldS
  generalize s.host.msix.map (·.1) = l
  induction l with
  | nil => rfl
  | cons v l ih => rw [List.foldl_cons, sendPending_not_pending (h v), ih]

/-- The bits that one word of a write covers. -/
theorem getLsbD_wordMask (w : Fin 32) (ones : W64) (n : Nat) (hn : n < 2048) :
    ((ones.setWidth 2048) <<< (64 * w.val)).getLsbD n = (decide (64 * w.val ≤ n) && ones.getLsbD (n - 64 * w.val)) := by
  have hlt : n - 64 * w.val < 2048 := by omega
  simp only [BitVec.getLsbD_shiftLeft, BitVec.getLsbD_setWidth, hn, hlt, decide_true, Bool.true_and]
  by_cases h : 64 * w.val ≤ n
  · simp [h]
  · simp [h, Nat.lt_of_not_le h]

/-- INTx is deasserted where the mode lets a message out. -/
theorem mayIntx_of_bar0Open {s : State} (h : bar0Open s = true) :
    mayIntx s = (!s.host.msixEn && !s.host.intxDisable && !resetBusy s) := by
  have hd : s.host.dlUp = true ∧ s.faults.safe = false := by
    simp only [bar0Open, hostServes, Bool.and_eq_true, Bool.not_eq_true'] at h
    exact ⟨h.1.1.1.1, h.2⟩
  simp [mayIntx, hd.1, hd.2]

theorem intxClear_leaves (w : Fin 32) (ones : W64) (s : State) (h : bar0Open s = true) :
    ∃ t, intxClear ((ones.setWidth 2048) <<< (64 * w.val)) s = t ∧ t = { s with host := t.host, out := t.out } ∧
      (∀ n < 2048, t.host.intxStatus.getLsbD n =
        (s.host.intxStatus.getLsbD n && !(decide (64 * w.val ≤ n) && ones.getLsbD (n - 64 * w.val)))) ∧
      t.host.intxAsserted = (s.host.intxAsserted && decide (t.host.intxStatus ≠ 0)) ∧
      t.out = s.out ++ (if s.host.intxAsserted = true ∧ t.host.intxStatus = 0 ∧ s.host.msixEn = false ∧
        s.host.intxDisable = false ∧ resetBusy s = false then [.intx false] else []) := by
  have hbits : ∀ n < 2048, (s.host.intxStatus &&& ~~~((ones.setWidth 2048) <<< (64 * w.val))).getLsbD n =
      (s.host.intxStatus.getLsbD n && !(decide (64 * w.val ≤ n) && ones.getLsbD (n - 64 * w.val))) := by
    intro n hn
    rw [BitVec.getLsbD_and, BitVec.getLsbD_not, getLsbD_wordMask w ones n hn, decide_eq_true hn, Bool.true_and]
  unfold intxClear
  rw [mayIntx_of_bar0Open h]
  generalize s.host.intxStatus &&& ~~~((ones.setWidth 2048) <<< (64 * w.val)) = st at hbits ⊢
  dsimp only
  by_cases hs : s.host.intxAsserted = true ∧ st = 0 ∧ s.host.msixEn = false ∧ s.host.intxDisable = false ∧ resetBusy s = false
  · obtain ⟨ha, hz, hm, hd, hr⟩ := hs
    rw [if_pos (by simp [ha, hz, hm, hd, hr])]
    refine ⟨_, rfl, rfl, hbits, by simp, ?_⟩
    simp [emit, ha, hz, hm, hd, hr]
  · rw [if_neg (by simpa using hs)]
    refine ⟨_, rfl, rfl, hbits, by simp, ?_⟩
    rw [if_neg hs, List.append_nil]

theorem execHostReadCompletion_inTime {tag : BitVec 14} {st : CplStatus} {data : List Byte} {r : HostRead} {s : State}
    (ha : alive s = true) (hu : s.host.dlUp = true) (hr : s.host.reads.find? (fun r => r.tag = tag.toNat) = some r)
    (hd : s.ticks < r.deadline) :
    execHostReadCompletion tag st data s =
      .next (match st with
        | .ok => pumpReads (match r.use with
          | .walker e => walkData e (le64 data) (dropRead r.tag (countN 2544 data.length s))
          | _ => dropRead r.tag (countN 2544 data.length s))
        | .ep => pumpReads (readFailed r 7 (raise 2919 .uc r.tag (dropRead r.tag (countN 2544 data.length s))))
        | _ => pumpReads (readFailed r 6 (raise 2919 .uc r.tag (dropRead r.tag (countN 2544 data.length s))))) := by
  unfold execHostReadCompletion
  rw [hr]
  dsimp only
  rw [if_neg (by simp [ha, hu]), if_neg (by simp [due, hd])] <;> rfl

theorem execCompletionTimeout_due {tag : BitVec 14} {r : HostRead} {s : State} (ha : alive s = true)
    (hr : s.host.reads.find? (fun r => r.tag = tag.toNat) = some r) (hd : r.deadline ≤ s.ticks) :
    execCompletionTimeout tag s = .next (readTimesOut r s) := by
  unfold execCompletionTimeout
  rw [hr]
  dsimp only
  rw [if_neg (by simp [ha, due, hd])]

/-- A read that may be tried again is to be issued again by what issued it. -/
theorem readTimesOut_again {r : HostRead} {s : State} (h : r.retries < s.host.readRetries.toNat) :
    readTimesOut r s =
      let s1 := quarantine r.tag (raise 2917 .uc r.tag (aerLog 14 (count 2547 (dropRead r.tag s))))
      match r.use with
      | .orphan => pumpReads s1
      | .walker e =>
        match xferGet s1 e with
        | none => pumpReads s1
        | some x => pumpReads (xferSet e (some { x with walk := x.walk.map (fun w =>
            { w with retries := r.retries + 1, toIssue := true }) }) s1)
      | .engine e =>
        match xferGet s1 e with
        | none => pumpReads s1
        | some x => pumpReads (xferSet e (some { x with toRead := (r.addr.toNat, r.bytes, r.retries + 1) :: x.toRead }) s1) := by
  unfold readTimesOut
  rw [if_neg (by omega)] <;> rfl

theorem readTimesOut_failed {r : HostRead} {s : State} (h : s.host.readRetries.toNat ≤ r.retries) :
    readTimesOut r s =
      let s1 := quarantine r.tag (raise 2917 .uc r.tag (aerLog 14 (count 2547 (dropRead r.tag s))))
      pumpReads (readFailed r (Config.freeWord s1.freeCtr).toNat { s1 with freeCtr := s1.freeCtr + 1 }) := by
  unfold readTimesOut
  rw [if_pos h] <;> rfl

/-- Settles O32. -/
theorem interruptsAndHostReads : Obligations.InterruptsAndHostReads := by
  refine ⟨⟨fun v s h hf => ⟨fun hp hen hmask hc => ?_, fun hp => ?_⟩, fun s hc hp => ?_, fun w ones s h hf => ?_⟩,
    fun tag data r s ha hu hr hd => ⟨fun hw => ?_, fun e hw => ?_, ?_, ?_, ?_⟩, fun tag r s ha hr hd => ?_,
    fun tag s ha hu ⟨q, hq, ht⟩ => ?_, fun tag s ha ⟨q, hq, ht, hd⟩ => ?_⟩
  · refine ⟨_, (execMsixUnmask_one h hf).trans (congrArg _ (sendPending_sent (by simpa using hp) (by simp) hen hmask hc)), rfl, ?_, ?_⟩
    · rw [msixGet_msixSet_self]
      exact msixGet_msixSet_self _ _ _
    · rw [msixSet_msixSet]
      rfl
  · exact ⟨_, (execMsixUnmask_one h hf).trans (congrArg _ (sendPending_not_pending (by simpa using hp))), rfl,
      msixGet_msixSet_self _ _ _, rfl⟩
  · show execMsixUnmask none s = _
    unfold execMsixUnmask
    dsimp only
    rw [if_pos hc]
    exact congrArg _ (sendAllPending_none hp)
  · obtain ⟨t, he, ht⟩ := intxClear_leaves w ones s h
    refine ⟨t, ?_, ht⟩
    show execIntxClear w ones s = _
    unfold execIntxClear
    rw [if_neg (by simp [h]), if_neg (by simp [hf]), he]
  · refine (execHostReadCompletion_inTime (st := .ok) (data := data) ha hu hr hd).trans ?_
    dsimp only
    split
    · exact absurd ‹_› (hw _)
    · rfl
  · refine (execHostReadCompletion_inTime (st := .ok) (data := data) ha hu hr hd).trans ?_
    dsimp only
    rw [hw]
  · exact execHostReadCompletion_inTime (st := .ep) (data := data) ha hu hr hd
  · exact execHostReadCompletion_inTime (st := .ur) (data := data) ha hu hr hd
  · exact execHostReadCompletion_inTime (st := .ca) (data := data) ha hu hr hd
  · have e := execCompletionTimeout_due ha hr hd
    refine ⟨fun hn hu => e.trans (congrArg _ ((readTimesOut_again hn).trans ?_)), fun i x hn hu hx => e.trans (congrArg _ ((readTimesOut_again hn).trans ?_)),
      fun i x hn hu hx => e.trans (congrArg _ ((readTimesOut_again hn).trans ?_)), fun hn => e.trans (congrArg _ (readTimesOut_failed hn))⟩
    · dsimp only
      rw [hu]
    · dsimp only
      rw [hu]
      dsimp only
      rw [hx]
    · dsimp only
      rw [hu]
      dsimp only
      rw [hx]
  · show execLateCompletion tag s = _
    unfold execLateCompletion
    rw [if_pos (by simpa [ha, hu] using ⟨q.2, ht ▸ hq⟩)] <;> rfl
  · show execTagQuarantineExpiry tag s = _
    unfold execTagQuarantineExpiry
    dsimp only
    rw [if_pos]
    exact Bool.and_eq_true_iff.2 ⟨ha, List.any_eq_true.2 ⟨q, hq, by simp [ht, due, hd]⟩⟩

end Sys2Proof.Machine
end

section
/-!
PROOFS of O28 (refuted): the read-back of a page.
-/
namespace Sys2Proof.Machine

/-- A page in transit whose stored bytes are more than the bytes it is said to have. -/
def overlongPage : KvPage :=
  { tensor := 0, unit := 0, index := 0, pier := 0, resident := false, frame := 0, bytes := 0, moving := true, data := [0] }

/-- A serving part whose only pool region has no bytes, and whose unmapped accesses (source 2930) reset the chip. -/
def overlongReadback : State :=
  { power := { phase := .served, step := 7 }
    host := { phyUp := true, dlUp := true, mse := true, bme := true }
    store := { regions := [(0, { valid := true, owner := 1, pierCount := 1 })] }
    service := { streams := [(0, { st := .decode, kv := [overlongPage] })] }
    faults := { sources := [(2930, { reactUc := rChiprst })] } }

/-- The room of no bytes, whatever free value places it. -/
theorem poolPlace_overlong : poolPlace overlongReadback.freeCtr 0 0 (drawFree overlongReadback).2 = some 0 := by
  have hu : memUp (drawFree overlongReadback).2 0 = true := by decide +kernel
  have hs : poolShares (drawFree overlongReadback).2 0 = [(0, 0)] := by decide +kernel
  have hf : poolUsed (drawFree overlongReadback).2 0 = [] := by decide +kernel
  rw [poolPlace, hu, hs, hf]
  simp [placeIn, Nat.mod_one, clearOf]

/-- A page whose transfers have moved all of it, and that finds room, is written there. -/
theorem readbackDone_placed {i n a : Nat} {k : KvPage} {s : State} (hk : (streamGet s i).kv[n]? = some k) (hr : k.resident = false)
    (hm : k.moving = true) (hb : k.bytes ≤ k.moved) (hc : canRequest s = true)
    (hp : poolPlace s.freeCtr k.pier k.bytes (drawFree s).2 = some a) :
    readbackDone i n true s =
      let c := (streamGet s i).ctx.toNat
      count 2609 (setPage i n { k with resident := true, frame := a / 256, moving := false, data := [] }
        (engineWrite k.pier a c k.data (ctxSet c { ctxGet s c with spillUsed := (ctxGet s c).spillUsed.filter (· ≠ k.frame) }
          (drawFree s).2))) := by
  unfold readbackDone
  dsimp only
  rw [hk]
  dsimp only
  rw [if_neg (by simp [hr, hm, hc, hb]), if_neg (by simp)]
  dsimp only [drawFree] at hp ⊢
  rw [hp] <;> rfl

theorem execKvReadbackDone_alive {rec : Fin 262144} {n : Nat} {ok : Bool} {s : State} (ha : alive s = true) :
    execKvReadbackDone rec n ok s = .next (readbackDone rec n ok s) := by
  rw [execKvReadbackDone, if_pos ha]

theorem kv_setPage (i n : Nat) (k : KvPage) (s : State) : (streamGet (setPage i n k s) i).kv = (streamGet s i).kv.set n k := by
  rw [setPage, streamMod, streamGet_streamSet_self]

/-- The byte beyond the region is an unmapped write; the chip reset that follows takes the stream and its pages. -/
theorem streams_overlong : (engineWrite overlongPage.pier 0 0 overlongPage.data (ctxSet 0 { ctxGet overlongReadback 0 with
      spillUsed := (ctxGet overlongReadback 0).spillUsed.filter (· ≠ overlongPage.frame) }
    (drawFree overlongReadback).2)).service.streams = [] := by
  decide +kernel

/-- Refutes O28: nothing ties the bytes that a page in transit holds to its length, so a read-back can write past its room. Where
the bytes past it are mapped to no region, source 2930 is raised; with CHIPRST in its set the chip is reset in the middle of the
command, and no stream is left whose page could be resident again. -/
theorem not_flushDeadlineAndPages : ¬ Obligations.FlushDeadlineAndPages := by
  rintro ⟨-, -, -, hread, -⟩
  have ha : alive overlongReadback = true := by decide +kernel
  have hc : canRequest overlongReadback = true := by decide +kernel
  have hk : (streamGet overlongReadback 0).kv[0]? = some overlongPage := by decide +kernel
  have hx : (streamGet overlongReadback 0).ctx.toNat = 0 := by decide +kernel
  obtain ⟨t, ht, hkv, -⟩ := (hread 0 0 overlongPage overlongReadback ha hk rfl rfl (Nat.le_refl 0) hc).2 0 poolPlace_overlong
  have ht' := Host.Outcome.next.inj (ht.symm.trans ((execKvReadbackDone_alive ha).trans
    (congrArg _ (readbackDone_placed (i := 0) (n := 0) hk rfl rfl (Nat.le_refl 0) hc poolPlace_overlong))))
  have hpages : (streamGet t 0).kv = [] := by
    rw [ht', hx]
    refine (kv_setPage 0 0 _ _).trans ?_
    rw [streamGet, streams_overlong]
    rfl
  rw [show ((0 : Fin 262144) : Nat) = 0 from rfl, hpages] at hkv
  cases hkv

end Sys2Proof.Machine
end

section
/-!
PROOFS of O24: SUBMIT.
-/
namespace Sys2Proof.Machine

/-- What taking a fetched entry leaves: the entry is off the queue pair's list, and the queue pair is armed. -/
theorem takeCmd_eq {n row : Nat} {e : BitVec 512} {s s1 : State} (h : takeCmd n row s = some (e, s1)) :
    ∃ l, s1 = qpSet n { qpGet s n with fetched := l } s ∧ (qpGet s1 n).armed = true ∧ serves n s = true := by
  unfold takeCmd at h
  dsimp only at h
  split at h
  · cases h
  next k e' hf =>
    split at h
    · cases h
    next hg =>
      simp only [Option.some.injEq, Prod.mk.injEq] at h
      obtain ⟨-, rfl⟩ := h
      rw [Bool.or_eq_true, not_or, Bool.not_eq_true', Bool.not_eq_false] at hg
      have ha : (qpGet s n).armed = true := by
        have := hg.1
        simp only [serves, Bool.and_eq_true] at this
        exact this.2
      exact ⟨_, rfl, (congrArg QpEntry.armed (qpGet_qpSet_self _ _ _)).trans ha, hg.1⟩

theorem withCmd_taken {n row : Nat} {f : BitVec 512 → State → State} {e : BitVec 512} {s s1 : State}
    (h : takeCmd n row s = some (e, s1)) : withCmd n row f s = f e s1 := by
  rw [withCmd, h]

/-- A completion waits at the armed queue pair. -/
theorem complete_armed {n : Nat} {c : Completion} {s : State} (h : (qpGet s n).armed = true) :
    complete n c s = qpSet n { qpGet s n with waiting := (qpGet s n).waiting ++ [c] } s := by
  rw [complete, if_pos h]

theorem qpGet_count (k n : Nat) (s : State) : qpGet (count k s) n = qpGet s n := rfl

/-- A rejection carries its status and detail and no handle. -/
theorem answer_rejected {n : Nat} {e : BitVec 512} {status detail : Nat} {s : State} (ha : (qpGet s n).armed = true)
    (h1 : 0x10 ≤ status) (h2 : status < 0x20) (handle : W64) (l : List Byte) :
    answer n e status detail handle l s = qpSet n { qpGet s n with waiting := (qpGet s n).waiting ++
      [⟨2, BitVec.ofNat 8 status, BitVec.ofNat 8 detail, cmdCid e, BitVec.ofNat 16 n, 0, 0, l⟩] } s := by
  rw [answer, complete_armed ha, if_pos (by simp [h1, h2])]

/-- With a record and an extent free, and no partner to mirror to, the request is cinched. -/
theorem takeSubmit_cinches {n i at_ : Nat} {e : BitVec 512} {s : State} (hw : waits s = false)
    (hi : freeRecord s s.freeCtr = some i)
    (hat : freeExtent s s.freeCtr (extentLinesOf (reqOf e) ((reqBytesOf e (winBytes s ((reqOf e).page * 4096) (reqOf e).blockBytes)
      (if (reqOf e).raw then inputsOf (qpGet s n).ctx.toNat
        (streamOf n e (winBytes s ((reqOf e).page * 4096) (reqOf e).blockBytes) (qpGet s n).ctx).slots s else [])).length / 64)) = some at_) :
    ∃ s4, takeSubmit n e s = cinch i s4 := by
  unfold takeSubmit
  dsimp only
  rw [hi, hat]
  dsimp only
  rw [if_neg (by simp [hw])]
  exact ⟨_, rfl⟩

/-- Settles O24. -/
theorem submitIsCheckedOrAdmitted : Obligations.SubmitIsCheckedOrAdmitted := by
  intro qp e s s1 h
  have he : exec (.submit qp) s = .next (submitCmd qp e s1) := congrArg _ (withCmd_taken h)
  have hnone : submitFails qp e s1 = none →
      submitCmd qp e s1 = takeSubmit qp e (winTouch ((reqOf e).page * 4096) (reqOf e).blockBytes s1) := fun hf => by
    rw [submitCmd, hf]
  refine ⟨fun status detail hf h1 h2 => ?_, fun hf => he.trans (congrArg _ (hnone hf)), fun i at_ hf hw hi hat => ?_⟩
  · obtain ⟨l, hs1, ha, -⟩ := takeCmd_eq h
    have hs : submitCmd qp e s1 = answer qp e status detail 0 [] (count (2593 + (status - stState)) s1) := by
      rw [submitCmd, hf]
    rw [answer_rejected (by exact ha) h1 h2] at hs
    refine ⟨_, he.trans (congrArg _ hs), ?_, ?_⟩
    · exact congrArg QpEntry.waiting (qpGet_qpSet_self _ _ _)
    · rw [hs1]
      rfl
  · obtain ⟨s4, h4⟩ := takeSubmit_cinches hw hi hat
    exact ⟨s4, he.trans (congrArg _ ((hnone hf).trans h4))⟩

end Sys2Proof.Machine
end

section
/-!
PROOFS of O42: completions and grants, write-backs, counts.
-/
namespace Sys2Proof.Machine

theorem execCmp_ready {line : LineAddr} {t : Txn} {s : State} (ha : alive s = true) (hb : busyTxn s line = some t)
    (hp : t.phase = .ready) (hf : fwdArrived s t = true) :
    execCmp line s = .next (if reqAgent t.requester = some 7 then pumpEngines (releaseCmps (completeTxn t s))
      else releaseCmps (completeTxn t s)) := by
  rw [execCmp, hb]
  dsimp only
  rw [if_pos (by simp [ha, hp, hf])]

/-- The entry of an exclusive grant holds its owner and nobody else. -/
theorem xEntry_has {a b : Nat} (ha : a < 9) (hb : b < 9) : (xEntry a).has b = decide (b = a) := by
  have h : ∀ a b : Fin 9, (xEntry a).has b = decide (b.val = a.val) := by decide
  exact h ⟨a, ha⟩ ⟨b, hb⟩

theorem xEntry_owner {a : Nat} (ha : a < 9) : (xEntry a).owner.toNat = a := by
  simp only [xEntry, BitVec.toNat_ofNat]
  omega

section
variable {moesi : Bool} {t : Txn} {a : Fin 9} (hr : t.requester = .slot a) (hg : t.ownerGone = false)
include hr

/-- A read of a line nobody holds. -/
theorem cohOutcome_rdS_unheld (hq : t.req = .rdS) (hi : t.before.st = .i) :
    ∃ m, cohOutcome moesi t = ⟨.e, xEntry a, true, m⟩ := by
  simp [cohOutcome, hq, hi, hr, reqAgent]

/-- A read of a shared line under MOESI. -/
theorem cohOutcome_rdS_shared (hq : t.req = .rdS) (hi : t.before.st = .s) :
    ∃ m, cohOutcome true t = ⟨.s, { t.before with st := .s, owner := 0, presence := withBit t.before.presence a }, true, m⟩ := by
  simp [cohOutcome, hq, hi, hr, reqAgent, shareEntry]

include hg

/-- Ownership of a line that no one forwards. -/
theorem cohOutcome_rdX (hq : t.req = .rdX) (hf : t.before.st ≠ .fo) :
    (cohOutcome moesi t).entry = xEntry a ∧ (t.data = none → (cohOutcome moesi t).grant = .e) ∧
      ∀ d p, t.before.st ≠ .i → t.data = some (d, true, p) → (cohOutcome moesi t).grant = .m := by
  by_cases hi : t.before.st = .i
  · simp [cohOutcome, hq, hi, hr, reqAgent]
  · refine ⟨by simp [cohOutcome, hq, hf, hi, hr, reqAgent], fun hd => by simp [cohOutcome, hq, hf, hi, hd], fun d p _ hd => ?_⟩
    simp [cohOutcome, hq, hf, hi, hd, hg]

end

theorem execGrantAck_inside {a : Fin 9} {line : LineAddr} {t : Txn} {s : State} (ha : alive s = true)
    (hb : busyTxn s line = some t) (hp : t.phase = .granted) (hr : t.requester = .slot a) (ho : portOf a.val = none) :
    execGrantAck a line s = .next (finishTxn line (t.holder t.grant) s) := by
  rw [execGrantAck, hb]
  dsimp only
  rw [if_pos (by simp [ha, hp, hr, portTalks, ho]), ho]

/-- A write-back that finds its home in place, no mark of it and a buffer free enters the buffer. -/
theorem wbArrives_taken {a : Fin 9} {line : LineAddr} {d : LineData} {p : Bool} {s : State} (ha : alive s = true)
    (hh : homeAway s line = false) (ht : portTalks s a.val = true) (hl : s.coh.late = []) (hre : s.coh.retried = [])
    (hv : s.coh.victims = []) (he : s.coh.evict.length < 32) (hb : busy s line = false) :
    wbArrives a line d p s =
      let t := wbHome a.val line s
      { t with coh := { t.coh with evict := t.coh.evict ++ [⟨line, a.val, d, p, false, false, false⟩] } } := by
  have hm : s.coh.qmoves.any (fun m => decide (m.q = serving s (ownQuarter line))) = false := by
    simp only [homeAway, Bool.or_eq_false_iff] at hh
    exact hh.1
  have hlate : lateOf s line a = none := by rw [lateOf, hl]; rfl
  have hbt : busyTxn s line = none := by simpa [busy] using hb
  have haw : wbAwaited s line a = false := by simp [wbAwaited, hbt, hv]
  have hlen : (s.coh.evict.filter (fun b => !b.own && decide (homeOf s b.line = homeOf s line))).length < 32 :=
    Nat.lt_of_le_of_lt (List.length_filter_le ..) he
  unfold wbArrives
  dsimp only
  rw [hm, hlate, haw, hre, hbt, if_neg (by simp [ha, ht, hh]), if_neg (by simp), if_neg (by simp), if_neg (by simp)]
  simp only [List.filter_nil, List.find?_nil, List.length_nil, Nat.add_zero, show ¬ 4 ≤ 0 by omega, Nat.not_le.2 hlen, if_false]

theorem execWbAck_host {line : LineAddr} {b : EvictBuf} {s : State} (ha : alive s = true) (hb : busy s line = false)
    (hslot : b.slot = 0) (hp : b.pend = false) (hf : s.coh.evict.find? (fun b => b.line = line) = some b) :
    execWbAck 0 line s = .next (emit (.memCmp line 0) { drainEvicts line s with coh := { (drainEvicts line s).coh with
      evict := dropFirst (fun b => b.line = line && b.slot = 0) (drainEvicts line s).coh.evict } }) := by
  have hbt : busyTxn s line = none := by simpa [busy] using hb
  unfold execWbAck
  dsimp only
  rw [hbt, hf]
  dsimp only
  rw [if_neg (by simp [ha, hp, hslot])] <;> rfl

/-- Settles O42. -/
theorem completionsGrantAndCount : Obligations.CompletionsGrantAndCount := by
  refine ⟨fun line t s ha hb hp hf => execCmp_ready ha hb hp hf, fun moesi t a hr hg => ⟨fun hq hi => ?_, fun hq hi hm => ?_, fun hq hf => ?_⟩,
    fun a line t s ha hb hp hr ho => execGrantAck_inside ha hb hp hr ho, fun line s => rfl,
    fun a line d p s ha hh ht hl hre hv he hb => ?_, fun line b s ha hb _ hslot hp hf => execWbAck_host ha hb hslot hp hf,
    fun line k s ha hk => ⟨fun hi => ?_, fun hd hz he => ?_⟩, fun line t s ha hb hp hi => ?_⟩
  · obtain ⟨m, h⟩ := cohOutcome_rdS_unheld (moesi := moesi) hr hq hi
    rw [h]
    exact ⟨rfl, rfl, rfl, xEntry_owner a.isLt, fun b hb => xEntry_has a.isLt hb⟩
  · subst hm
    obtain ⟨m, h⟩ := cohOutcome_rdS_shared hr hq hi
    rw [h]
    refine ⟨rfl, rfl, fun b hb => ?_⟩
    exact getLsbD_withBit _ (by omega)
  · obtain ⟨he, hn, hd⟩ := cohOutcome_rdX (moesi := moesi) hr hg hq hf
    rw [he]
    exact ⟨rfl, xEntry_owner a.isLt, fun b hb => xEntry_has a.isLt hb, hn, hd⟩
  · exact congrArg (fun t => Host.Outcome.next (releaseCmps t)) (wbArrives_taken ha hh ht hl hre hv he hb)
  · show execTrackInc line s = _
    rw [execTrackInc, hk]
    dsimp only
    rw [if_pos (by simp [ha, hi])] <;> rfl
  · show execTrackDec line s = _
    have hany : s.coh.evict.any (fun b => b.line = line && !b.written) = false := by
      rw [List.any_eq_false]
      intro b hb
      simpa using he b hb
    rw [execTrackDec, hk]
    dsimp only
    rw [if_pos (by simp [ha, hd, hany])]
    have hone : b2n (decide (tget (fun _ => (0 : W16)) s.coh.track k ≠ 0)) = 1 := by
      rw [decide_eq_true (by exact hz)]
      rfl
    rw [tmod, hone] <;> rfl
  · show execTrackIncAck line s = _
    rw [execTrackIncAck, hb]
    dsimp only
    rw [if_pos (by simpa [ha, hp] using hi)]

end Sys2Proof.Machine
end

section
/-!
PROOFS of O51: contexts are created, keyed and retired by vendor-defined messages.
-/
namespace Sys2Proof.Machine

/-! ### The message and its answer -/

theorem vendorRsp_ok (session : SessionId) (code : Nat) (s : State) :
    vendorRsp session code stOk s = emit (.spdm session (.vendor (BitVec.ofNat 8 code) (BitVec.ofNat 8 stOk))) s := rfl

section
variable {session : SessionId} {code : Nat} {refused : State → State} {f : Session → State → State} {z : State}

/-- A message in a secured session is carried out, core 7's doorbell set. -/
theorem vendor_secured {x : Session} (hp : z.host.phyUp = true) (hs : z.power.phase = .served) (hsafe : z.faults.safe = false)
    (hl : (ringDoorbell 7 0 z).sec.lifecycle = .provisioned ∨ (ringDoorbell 7 0 z).sec.lifecycle = .deployed)
    (hx : session.bind (fun i => sessGet (ringDoorbell 7 0 z) i.val) = some x) (hsec : x.secured = true) :
    vendor session code refused f z = f x (ringDoorbell 7 0 z) := by
  have hl' : fullSpdm (ringDoorbell 7 0 z) = true := by
    unfold fullSpdm
    rcases hl with h | h <;> rw [h] <;> rfl
  unfold vendor doe
  rw [if_pos (by simp [cfgOpen, hp, hs])]
  dsimp only
  rw [hl', Bool.not_true, if_neg Bool.false_ne_true, if_neg (by simpa using hsafe), hx]
  dsimp only
  rw [if_pos hsec]

/-- A message outside a session is refused by permission. -/
theorem vendor_no_session (hp : z.host.phyUp = true) (hs : z.power.phase = .served) (hsafe : z.faults.safe = false)
    (hl : z.sec.lifecycle = .deployed) :
    vendor none code refused f z = vendorRsp none code stPerm (refused (ringDoorbell 7 0 z)) := by
  have hl' : fullSpdm (ringDoorbell 7 0 z) = true := by simp [fullSpdm, hl]
  unfold vendor doe
  rw [if_pos (by simp [cfgOpen, hp, hs])]
  dsimp only
  rw [hl', Bool.not_true, if_neg Bool.false_ne_true, if_neg (by simpa using hsafe)] <;> rfl

end

/-! ### Records of contexts -/

/-- A context set holds what was set, but for the stamp it carries. -/
theorem ctxGet_ctxSet_fields (n : Nat) (x : Context) (s : State) : ∃ k, ctxGet (ctxSet n x s) n = { x with stamp := k } := by
  unfold ctxSet
  dsimp only
  split
  · exact ⟨x.stamp, tget_tset_self _ _ _ _⟩
  · exact ⟨x.stamp + 1, tget_tset_self _ _ _ _⟩

theorem ctxGet_traceCtx (core ctx code b : Nat) (s : State) (n : Nat) : ctxGet (traceCtx core ctx code b s) n = ctxGet s n := by
  obtain ⟨o, ho⟩ := trace_eq 0x28 (uCore core) (ctx + 65536 * code) b s
  rw [traceCtx, ho]
  rfl

/-! ### CTX_CREATE -/

section
variable {session : SessionId} {n : W16} {host : Bool} {rsv : BitVec 47} {cred : W64} {x : Session} {s : State}

/-- The service of CTX_CREATE in a secured session. -/
def serveCreate (session : SessionId) (n : Nat) (host : Bool) (rsv : BitVec 47) (cred : W64) (x : Session) (s : State) : State :=
  if cred = 0 || rsv ≠ 0 || 4095 < n then vendorRsp session 2 stFormat s
  else if !x.mutualAuth then vendorRsp session 2 stPerm s
  else if !(ctxGet s n).admitted then vendorRsp session 2 stPerm s
  else if !creatable s n then vendorRsp session 2 stState s
  else
    match tryLock s with
    | none => vendorRsp session 2 stState (lockRefused s)
    | some s1 => createCtx session x n host cred s1

theorem execCtxCreate_eq (z : State) : execCtxCreate session n host rsv cred z =
    .next (vendor session 2 id (serveCreate session n.toNat host rsv cred) z) := by rfl

theorem serveCreate_format {n : Nat} (h : cred = 0 ∨ rsv ≠ 0 ∨ 4095 < n) :
    serveCreate session n host rsv cred x s = vendorRsp session 2 stFormat s := by
  rw [serveCreate, if_pos]
  simpa [or_assoc] using h

theorem serveCreate_perm {n : Nat} (hc : cred ≠ 0) (hr : rsv = 0) (hn : n ≤ 4095) (h : x.mutualAuth = false ∨ (ctxGet s n).admitted = false) :
    serveCreate session n host rsv cred x s = vendorRsp session 2 stPerm s := by
  have hf : ¬ (decide (cred = 0) || decide (rsv ≠ 0) || decide (4095 < n)) = true := by
    simpa [hr, hn] using hc
  rw [serveCreate, if_neg hf]
  by_cases hm : x.mutualAuth = true
  · have ha := h.resolve_left (by simp [hm])
    rw [if_neg (by simp [hm]), if_pos (by simp [ha])]
  · rw [if_pos (by simpa using hm)]

theorem creatable_free {n : Nat} (hst : (ctxGet s n).st = .free) (ho : ownContext n s = true) : creatable s n = true := by
  have hp : s.pair.st ≠ .pairing := by
    intro h
    simp [ownContext, h] at ho
  simp [creatable, hst, ho, hp]

theorem serveCreate_locks {n : Nat} (hc : cred ≠ 0) (hr : rsv = 0) (hn : n ≤ 4095) (hm : x.mutualAuth = true)
    (ha : (ctxGet s n).admitted = true) (hst : (ctxGet s n).st = .free) (ho : ownContext n s = true) :
    serveCreate session n host rsv cred x s =
      match tryLock s with
      | none => vendorRsp session 2 stState (lockRefused s)
      | some s1 => createCtx session x n host cred s1 := by
  have hf : ¬ (decide (cred = 0) || decide (rsv ≠ 0) || decide (4095 < n)) = true := by
    simpa [hr, hn] using hc
  rw [serveCreate, if_neg hf, if_neg (by simp [hm]), if_neg (by simp [ha]), if_neg (by simp [creatable_free hst ho])]

/-- A free context gets its record and its live key. -/
def createdState (x : Session) (n : Nat) (host : Bool) (cred : W64) (c : Context) (s : State) : State :=
  trace 0x28 (uCore 7) (n + 65536) 0 <| ctxSet n { c with
    st := .created, owner := x.requester, cred := cred, hostmemOn := c.hostmem && host, epoch := 0, rotOpen := false
    modelKey := 0, keyId := 0, spillCtr := 0 }
    { s with sec := { s.sec with draw := s.sec.draw + 1
                                 slots := tset (fun _ => {}) s.sec.slots (2 * n) (⟨s.sec.draw, .live⟩ : KeySlot) }
             sb := { s.sb with lock := true } }

theorem createdState_rest (x : Session) (n : Nat) (host : Bool) (cred : W64) (c : Context) (s : State) :
    (createdState x n host cred c s).pair = s.pair ∧ (createdState x n host cred c s).viaduct = s.viaduct := by
  unfold createdState
  obtain ⟨o, ho⟩ := trace_eq 0x28 (uCore 7) (n + 65536) 0 (ctxSet n { c with
    st := .created, owner := x.requester, cred := cred, hostmemOn := c.hostmem && host, epoch := 0, rotOpen := false
    modelKey := 0, keyId := 0, spillCtr := 0 }
    { s with sec := { s.sec with draw := s.sec.draw + 1
                                 slots := tset (fun _ => {}) s.sec.slots (2 * n) (⟨s.sec.draw, .live⟩ : KeySlot) }
             sb := { s.sb with lock := true } })
  rw [ho]
  exact ⟨rfl, rfl⟩

theorem createCtx_free {n : Nat} {c : Context} (hc : ctxGet s n = c) (hst : c.st = .free) :
    createCtx session x n host cred s =
      if waits s then
        { putContext n (createdState x n host cred c s) with
          sec := { (putContext n (createdState x n host cred c s)).sec with
            createWait := (putContext n (createdState x n host cred c s)).sec.createWait ++ [(s.viaduct.nextTag, session)] } }
      else vendorRsp session 2 stOk (putContext n (createdState x n host cred c s)) := by
  obtain ⟨hp, hv⟩ := createdState_rest x n host cred c s
  have hw : waits (createdState x n host cred c s) = waits s := by rw [waits, hp]; rfl
  subst hc
  rw [← hw, ← hv]
  unfold createCtx
  dsimp only
  rw [if_neg (by simp [hst])]
  rfl

theorem createdState_context (x : Session) (n : Nat) (host : Bool) (cred : W64) (c : Context) (s : State) :
    (ctxGet (createdState x n host cred c s) n).st = .created ∧ (ctxGet (createdState x n host cred c s) n).owner = x.requester ∧
      (ctxGet (createdState x n host cred c s) n).cred = cred := by
  unfold createdState
  generalize ({ s with sec := _, sb := _ } : State) = u
  generalize hy : ({ c with
    st := .created, owner := x.requester, cred := cred, hostmemOn := c.hostmem && host, epoch := 0, rotOpen := false
    modelKey := 0, keyId := 0, spillCtr := 0 } : Context) = y
  obtain ⟨k, hk⟩ := ctxGet_ctxSet_fields n y u
  have ht : ctxGet (trace 0x28 (uCore 7) (n + 65536) 0 (ctxSet n y u)) n = ctxGet (ctxSet n y u) n := ctxGet_traceCtx 7 n 1 0 _ n
  rw [ht, hk, ← hy]
  exact ⟨rfl, rfl, rfl⟩

end

/-! ### KEY_RELEASE -/

section
variable {session : SessionId} {n : Nat} {rsv : W16} {keyId : W32} {key : BitVec 256} {x : Session} {s : State}

/-- The service of KEY_RELEASE in a secured session. -/
def serveRelease (session : SessionId) (n : Nat) (rsv : W16) (keyId : W32) (key : BitVec 256) (x : Session) (s : State) : State :=
  let c := ctxGet s n
  if 4095 < n || rsv ≠ 0 || keyId = 0 then vendorRsp session 3 stFormat (keyRefused n s)
  else if c.st = .free || c.owner = 0 || x.requester ≠ c.owner then vendorRsp session 3 stPerm (keyRefused n s)
  else if s.sec.lifecycle ≠ .deployed || !attested s x n then vendorRsp session 3 stKey (keyRefused n s)
  else if (modelOf s n).isSome || loading s n then vendorRsp session 3 stState (keyRefused n s)
  else
    let s1 := traceCtx 7 n 2 0 (ctxSet n { c with modelKey := modelKeyName key, keyId := keyId, st := .keyed } s)
    vendorRsp session 3 stOk (if ownContext n s1 then putContext n s1 else s1)

theorem execKeyRelease_eq (n : W16) (z : State) : execKeyRelease session n rsv keyId key z =
    .next (vendor session 3 (keyRefused n.toNat) (serveRelease session n.toNat rsv keyId key) z) := by rfl

section
variable (hn : n ≤ 4095) (hk : keyId ≠ 0)
include hn hk

theorem serveRelease_perm (h : (ctxGet s n).st = .free ∨ (ctxGet s n).owner = 0 ∨ x.requester ≠ (ctxGet s n).owner) :
    serveRelease session n 0 keyId key x s = vendorRsp session 3 stPerm (keyRefused n s) := by
  unfold serveRelease
  dsimp only
  rw [if_neg (by simpa [hn] using hk), if_pos]
  simpa [or_assoc] using h

variable (hst : (ctxGet s n).st ≠ .free) (ho : (ctxGet s n).owner ≠ 0) (hx : x.requester = (ctxGet s n).owner)
include hst ho hx

theorem serveRelease_key (h : s.sec.lifecycle ≠ .deployed ∨ attested s x n = false) :
    serveRelease session n 0 keyId key x s = vendorRsp session 3 stKey (keyRefused n s) := by
  unfold serveRelease
  dsimp only
  rw [if_neg (by simpa [hn] using hk), if_neg (by simpa [hst, hx] using ho), if_pos]
  simpa using h

theorem serveRelease_keyed (hl : s.sec.lifecycle = .deployed) (ha : attested s x n = true) (hm : modelOf s n = none)
    (hload : loading s n = false) :
    serveRelease session n 0 keyId key x s =
      let s1 := traceCtx 7 n 2 0 (ctxSet n { ctxGet s n with modelKey := modelKeyName key, keyId := keyId, st := .keyed } s)
      vendorRsp session 3 stOk (if ownContext n s1 then putContext n s1 else s1) := by
  unfold serveRelease
  dsimp only
  rw [if_neg (by simpa [hn] using hk), if_neg (by simpa [hst, hx] using ho), if_neg (by simp [hl, ha]), if_neg (by simp [hm, hload])]

end
end

/-! ### RETIRE -/

theorem chipReset_sec (cause : BitVec 4) (s : State) :
    (chipReset cause s).sec.lifecycle = s.sec.lifecycle ∧ (chipReset cause s).sec.slots = s.sec.slots ∧
      (chipReset cause s).sec.hostKey = s.sec.hostKey ∧ (chipReset cause s).sec.serviceKey = s.sec.serviceKey := by
  unfold chipReset
  extract_lets r r' present pairSt s1
  obtain ⟨o, ho⟩ := trace_eq 0x05 uObserve cause.toNat 0 s1
  rw [ho]
  exact ⟨rfl, rfl, rfl, rfl⟩

/-- The service of RETIRE in a secured session. -/
def serveRetire (session : SessionId) (serial : W64) (ok : Bool) (s : State) : State :=
  if s.sec.contexts.any (fun c => c.2.st ≠ .free) then vendorRsp session 4 stState s
  else if !ok || serial ≠ Config.serial then vendorRsp session 4 stPerm s
  else
    let s1 := zeroKeys (vendorRsp session 4 stOk s)
    chipReset 6 (restamp 2 { s1 with sec := { s1.sec with lifecycle := .retired } })

section
variable {session : SessionId} {serial : W64} {ok : Bool} {s : State}

theorem serveRetire_state (h : ∃ e ∈ s.sec.contexts, e.2.st ≠ .free) : serveRetire session serial ok s = vendorRsp session 4 stState s := by
  obtain ⟨e, he, hst⟩ := h
  rw [serveRetire, if_pos (List.any_eq_true.2 ⟨e, he, by simpa using hst⟩)]

theorem contexts_any_free (h : ∀ e ∈ s.sec.contexts, e.2.st = .free) : s.sec.contexts.any (fun c => decide (c.2.st ≠ .free)) = false := by
  rw [List.any_eq_false]
  intro e he
  simp [h e he]

theorem serveRetire_perm (h : ∀ e ∈ s.sec.contexts, e.2.st = .free) (hbad : ok = false ∨ serial ≠ Config.serial) :
    serveRetire session serial ok s = vendorRsp session 4 stPerm s := by
  rw [serveRetire, contexts_any_free h, if_neg Bool.false_ne_true, if_pos (by simpa using hbad)]

theorem serveRetire_retired (h : ∀ e ∈ s.sec.contexts, e.2.st = .free) (hok : ok = true) (hs : serial = Config.serial) :
    (serveRetire session serial ok s).sec.lifecycle = .retired ∧ (serveRetire session serial ok s).sec.slots = [] ∧
      (serveRetire session serial ok s).sec.hostKey = 0 ∧ (serveRetire session serial ok s).sec.serviceKey = 0 := by
  rw [serveRetire, contexts_any_free h, if_neg Bool.false_ne_true, if_neg (by simp [hok, hs])]
  dsimp only
  obtain ⟨hl, hsl, hh, hk⟩ := chipReset_sec 6 (restamp 2 { zeroKeys (vendorRsp session 4 stOk s) with
    sec := { (zeroKeys (vendorRsp session 4 stOk s)).sec with lifecycle := .retired } })
  exact ⟨hl, hsl, hh, hk⟩

end

/-- Settles O51. -/
theorem contextsAreCreatedAndKeyed : Obligations.ContextsAreCreatedAndKeyed := by
  refine ⟨fun session x z hp hs hsafe => ?_, fun z n hp hs hsafe hl => ?_⟩
  · intro s hl hx hsec
    have hv := fun code refused f => vendor_secured (code := code) (refused := refused) (f := f) hp hs hsafe hl hx hsec
    refine ⟨fun n => ⟨fun hn => ?_, fun hn => ?_⟩, fun n host rsv cred => ?_, fun n keyId key hn hk => ?_, fun serial ok => ?_⟩
    · show Host.Outcome.next (vendor session 1 id _ z) = _
      rw [hv, if_neg (by omega)] <;> rfl
    · show Host.Outcome.next (vendor session 1 id _ z) = _
      rw [hv, if_pos hn]
    · have e : exec (.ctxCreate session n host rsv cred) z = .next (serveCreate session n.toNat host rsv cred x s) :=
        (execCtxCreate_eq z).trans (congrArg _ (hv ..))
      refine ⟨fun h => e.trans (congrArg _ (serveCreate_format h)), fun hc hr hn h => e.trans (congrArg _ (serveCreate_perm hc hr hn h)),
        fun hc hr hn hm ha hst ho => ?_⟩
      have e' := e.trans (congrArg _ (serveCreate_locks hc hr hn hm ha hst ho))
      refine ⟨fun hlock => e'.trans (by rw [hlock]), fun s1 hlock hsame => ?_⟩
      rw [hlock] at e'
      have hfree := createCtx_free (session := session) (x := x) (host := host) (cred := cred) hsame hst
      refine ⟨fun hw => e'.trans (congrArg _ (hfree.trans ?_)), fun hw => e'.trans (congrArg _ (hfree.trans ?_)),
        createdState_context x n.toNat host cred _ s1⟩
      · exact if_neg (by simp [hw])
      · exact if_pos hw
    · have e : exec (.keyRelease session n 0 keyId key) z = .next (serveRelease session n.toNat 0 keyId key x s) :=
        (execKeyRelease_eq n z).trans (congrArg _ (hv ..))
      refine ⟨fun h => e.trans (congrArg _ (serveRelease_perm hn hk h)), fun hst ho hx => ⟨fun h => e.trans (congrArg _ (serveRelease_key hn hk hst ho hx h)),
        fun hl ha hm hload => ⟨e.trans (congrArg _ (serveRelease_keyed hn hk hst ho hx hl ha hm hload)), ?_⟩⟩⟩
      generalize hy : ({ ctxGet s n.toNat with modelKey := key.toNat + 1, keyId := keyId, st := .keyed } : Context) = y
      obtain ⟨k, hk'⟩ := ctxGet_ctxSet_fields n.toNat y s
      have ht : ctxGet (trace 0x28 (uCore 7) (n.toNat + 65536 * 2) 0 (ctxSet n.toNat y s)) n.toNat = { y with stamp := k } :=
        (ctxGet_traceCtx 7 n.toNat 2 0 _ n.toNat).trans hk'
      rw [ht, ← hy]
      exact ⟨rfl, rfl, rfl⟩
    · have e : exec (.retire session serial ok) z = .next (serveRetire session serial ok s) := congrArg _ (hv ..)
      exact ⟨fun h => e.trans (congrArg _ (serveRetire_state h)), fun h hb => e.trans (congrArg _ (serveRetire_perm h hb)),
        fun h hok hser => ⟨_, e, serveRetire_retired h hok hser⟩⟩
  · have hv := fun code refused f => vendor_no_session (code := code) (refused := refused) (f := f) hp hs hsafe hl
    exact ⟨congrArg _ (hv ..), fun h r c => congrArg _ (hv ..), fun r i k => congrArg _ (hv ..), fun a b => congrArg _ (hv ..)⟩

end Sys2Proof.Machine
end

section
/-!
PROOFS of O54 (refuted): a write of the interrupt line.
-/
namespace Sys2Proof.Machine

/-- A serving part whose configuration space lists a doubleword at its reset value. -/
def listedAtReset : State :=
  { power := { phase := .served, step := 7 }
    host := { phyUp := true, cfg := [(0x38, cfgReset 0x38)] } }

/-- The write stores the doubleword below the interrupt line again, and storing the reset value takes the entry off the list. -/
theorem cfg_of_intLine_write : (nextOf (execRegisterWrite ⟨.config, 0x3C, 1, 0⟩ listedAtReset) listedAtReset).host.cfg = [] := by
  decide +kernel

/-- Refutes O54: the clause of the interrupt line says that nothing else changes, for every state. A state may list a doubleword of
configuration space with its reset value, which reads the same as not listing it; the write passes through that doubleword and the
entry goes. What configuration space reads as does not change, but the state is another one. -/
theorem not_registersAndDictionary : ¬ Obligations.RegistersAndDictionary := by
  rintro ⟨-, -, -, -, hconfig, -⟩
  have h : execRegisterWrite ⟨.config, 0x3C, 1, 0⟩ listedAtReset = _ := (hconfig listedAtReset rfl rfl).1 0
  have hcfg := cfg_of_intLine_write
  rw [h] at hcfg
  cases (show [((0x38 : Nat), cfgReset 0x38)] = [] from hcfg)

end Sys2Proof.Machine
end

section
/-!
PROOFS of O30: arming and disarming of queue pairs.
-/
namespace Sys2Proof.Machine

theorem execQpArm_open {qp : Qp} {v : W64} {s : State} (h : bar0Open s = true) (hf : s.host.flr = none) :
    execQpArm qp v s = .next (armQp qp v s) := by
  rw [execQpArm, if_neg (by simp [h]), if_neg (by simp [hf])]

section
variable {n : Nat} {v : W64} {s : State} (ha : (qpGet s n).armed = false)
include ha

/-- A failing check of Table 7-9 is reported. -/
theorem armQp_fails (hc : armCheck n (withWord3 (qpGet s n) v) s ≠ 0) :
    armQp n v s = qpSet n { withWord3 (qpGet s n) v with armErr := BitVec.ofNat 8 (armCheck n (withWord3 (qpGet s n) v) s) } s := by
  unfold armQp
  dsimp only
  rw [ha, if_neg Bool.false_ne_true, if_neg Bool.false_ne_true, if_neg (by simp), if_pos hc]

/-- With none the pair starts with empty rings. -/
theorem armQp_armed (hc : armCheck n (withWord3 (qpGet s n) v) s = 0) :
    armQp n v s =
      let q := withWord3 (qpGet s n) v
      let q1 := { q with armed := true, armErr := 0, sqHead := 0, sqTail := 0, pendingBit := false, fetched := [], reserved := 0
                         waiting := [], produced := 0, head := 0, ring := [], unsignalled := 0 }
      foldS (deliverers s n q.ctx.toNat)
        (fun i s => unsuspend i suspHost (streamMod i (fun x => { x with writeSeq := x.ackedSeq }) s))
        (putTwin n q1 (qpSet n q1 s)) := by
  unfold armQp
  dsimp only
  rw [ha, if_neg Bool.false_ne_true, if_neg Bool.false_ne_true, if_neg (by simp), if_neg (by simpa using hc)]

end

/-- Settles O30. -/
theorem queuePairsArmAndDisarm : Obligations.QueuePairsArmAndDisarm := by
  refine ⟨fun qp v s h hf ha => ⟨fun hc => ?_, fun hc => ?_⟩, fun qp s h hf => ?_, fun qp s ha h1 h2 h3 h4 h5 => ?_⟩
  · exact (execQpArm_open h hf).trans (congrArg _ (armQp_fails ha hc))
  · exact (execQpArm_open h hf).trans (congrArg _ (armQp_armed ha hc))
  · show execQpDisarm qp s = _
    unfold execQpDisarm
    dsimp only
    rw [if_neg (by simp [h]), if_neg (by simp [hf])]
  · show execQpDisarmComplete qp s = _
    unfold execQpDisarmComplete
    dsimp only
    rw [if_neg (by simp [ha, h1, h2, h3, h4, h5])]

end Sys2Proof.Machine
end

section
/-!
PROOFS of O23: fetching commands, and the units of a running long operation.
-/
namespace Sys2Proof.Machine

section
variable {qp : Qp} {be : BitVec 2} {value : W16} {s : State} (h : barOpen s = true)
include h

theorem execSqTailWrite_rings (ha : (qpGet s qp).armed = true) (hb : be = 3)
    (hv : value.toNat < ringSize (qpGet s qp).sqSize.toNat) :
    execSqTailWrite qp be value s = .next (ringDoorbell (schedCore (qpGet s qp).ctx.toNat) 0
      (qpSet qp { qpGet s qp with sqTail := value.toNat, pendingBit := true } s)) := by
  unfold execSqTailWrite
  dsimp only
  rw [if_neg (by simp [h]), if_neg (by simp [ha, hb, hv])]

theorem execSqTailWrite_counted
    (hbad : (qpGet s qp).armed = false ∨ be ≠ 3 ∨ ringSize (qpGet s qp).sqSize.toNat ≤ value.toNat) :
    execSqTailWrite qp be value s = .next (count 2550 s) := by
  unfold execSqTailWrite
  dsimp only
  rw [if_neg (by simp [h]), if_pos (by simpa [or_assoc] using hbad)]

end

/-- A unit of an operation that runs is its opcode's. -/
theorem execLongopUnit_runs {slot : Fin 1024} {chunk : List Byte} {ok : Bool} {s : State} (ha : alive s = true)
    (hs : s.faults.safe = false) (hq : s.service.quiesced = false) (hr : (opGet s slot).st = .running)
    (hb : (opGet s slot).binding = false) :
    execLongopUnit slot chunk ok s = .next (
      if (opGet s slot).opcode = 0x10 then loadUnit slot chunk ok s
      else if (opGet s slot).opcode = 0x12 then burnishUnit slot s
      else if (opGet s slot).opcode = 0x13 then rotateUnit slot s
      else if (opGet s slot).opcode = 0x14 then migrateUnit slot s
      else s) := by
  unfold execLongopUnit
  dsimp only
  rw [if_neg (by simp [ha, hs, hq, hr, hb])]

/-- A chunk whose tag fails, between the header and the last tag, ends the load and gives back what it reserved. -/
theorem loadUnit_badTag {j : Nat} {chunk : List Byte} {m : Model} {s : State} (hc : canRequest s = true)
    (h0 : (opGet s j).doneUnits.toNat ≠ 0) (hk : (opGet s j).doneUnits.toNat < m.tagChunk)
    (hm : modelOf s (opGet s j).target.toNat = some m) :
    loadUnit j chunk false s = failLoad j stFormat 0 0 s := by
  unfold loadUnit
  dsimp only
  rw [if_neg h0, hm, if_neg (by simp [hc])]
  dsimp only
  rw [if_pos (by simp [Nat.pos_of_ne_zero h0, hk])]

theorem burnishUnit_end {j : Nat} {s : State} (h : (opGet s j).todo = []) : burnishUnit j s = burnishEnd j s := by
  unfold burnishUnit
  dsimp only
  rw [h]

/-- A page whose lines no cache holds is overwritten. -/
theorem burnishUnit_page {j p base : Nat} {rest : List (Nat × Nat)} {s s1 : State} (hp : p ≠ 1024)
    (ht : (opGet s j).todo = (p, base) :: rest) (hr : rest ≠ [])
    (hs : scrubPage (opGet s j).target.toNat p base
      ((((ctxGet s (opGet s j).target.toNat).withheld.find? (fun w => w.1 = p && w.2.1 = base)).map (·.2.2)).getD 0) s = some s1) :
    burnishUnit j s = opMod j (fun x => { x with todo := rest }) (unitDone j s1) := by
  unfold burnishUnit
  dsimp only
  rw [ht]
  dsimp only
  rw [if_neg hp, hs]
  dsimp only
  rw [if_neg (by simpa using hr)]

theorem rotateUnit_end {j : Nat} {s : State} (h : (opGet s j).todo = []) : rotateUnit j s = rotateEnd j s := by
  unfold rotateUnit
  dsimp only
  rw [h]

theorem migrateUnit_counts {j : Nat} {s : State} (h : (opGet s j).xferDone ≠ 0) :
    migrateUnit j s =
      let s1 := unitDone j (opMod j (fun x => { x with xferDone := x.xferDone - 1 }) s)
      if (opGet s1 j).totalUnits ≤ (opGet s1 j).doneUnits then endOp j .done stDone 0 0 s1 else s1 := by
  unfold migrateUnit
  dsimp only
  rw [if_neg h]

/-- Settles O23. -/
theorem commandsAreFetchedAndAdvanced : Obligations.CommandsAreFetchedAndAdvanced := by
  refine ⟨⟨fun qp be value s h => ⟨fun ⟨ha, hb, hv⟩ => execSqTailWrite_rings h ha hb hv, fun hbad => execSqTailWrite_counted h hbad⟩,
    fun qp s hq hf hr hfetch hlow => ?_⟩, fun slot chunk ok s ha hs hq hr hb => ?_⟩
  · show execSqFetch qp s = _
    unfold execSqFetch
    dsimp only
    rw [if_neg (by simp [hq, hf, hr, hfetch, hlow])]
  · have e : exec (.longopUnit slot chunk ok) s = _ := execLongopUnit_runs (chunk := chunk) (ok := ok) ha hs hq hr hb
    refine ⟨fun h => ?_, fun m h hc h0 hk hm hok => ?_, fun h ht => ?_, fun base rest s1 h p hp ht hrest hscrub => ?_,
      fun h => ?_, fun h ht => ?_, fun h hx => ?_⟩ <;> rw [h] at e
    · exact e
    · subst hok
      exact e.trans (congrArg _ (loadUnit_badTag hc h0 hk hm))
    · exact e.trans (congrArg _ (burnishUnit_end ht))
    · exact e.trans (congrArg _ (burnishUnit_page hp ht hrest hscrub))
    · exact e
    · exact e.trans (congrArg _ (rotateUnit_end ht))
    · exact e.trans (congrArg _ (migrateUnit_counts hx))

end Sys2Proof.Machine
end

section
/-!
PROOFS of O25 and O26: commands that name a handle, and the commands of a context.
-/
namespace Sys2Proof.Machine

/-! ### Commands that name a handle -/

/-- Each of the five commands is the entry's service. -/
theorem exec_handleCmd {qp : Qp} {op : Nat} {c : Instr} {e : BitVec 512} {s s1 : State}
    (hc : (c, op) ∈ [(Instr.suspend qp, 2), (.resume qp, 3), (.cancel qp, 4), (.query qp, 5), (.setPriority qp, 6)])
    (h : takeCmd qp op s = some (e, s1)) : exec c s = .next (handleCmd qp e s1) := by
  simp only [List.mem_cons, Prod.mk.injEq, List.not_mem_nil, or_false] at hc
  rcases hc with ⟨rfl, rfl⟩ | ⟨rfl, rfl⟩ | ⟨rfl, rfl⟩ | ⟨rfl, rfl⟩ | ⟨rfl, rfl⟩ <;> exact congrArg _ (withCmd_taken h)

section
variable {n : Nat} {e : BitVec 512} {s : State}

theorem handleCmd_malformed (h : cmdFormat e = false) : handleCmd n e s = answer n e stFormat 0 0 [] s := by
  simp [handleCmd, h]

theorem handleCmd_formed (h : cmdFormat e = true) : handleCmd n e s =
    match targetOf s (some (qpGet s n).ctx) (cmdField e 8 8) with
    | .stream i => streamCmdSoon i n e s
    | .longOp j => opCmdFrom j n e s
    | .rejected st => answer n e st 0 0 [] s := by
  unfold handleCmd
  rw [if_neg (by simp [h])] <;> rfl

variable {i : Nat}

theorem streamCmdSoon_now (h : (streamGet s i).holds = false) : streamCmdSoon i n e s = streamCmd i n e s := by
  simp [streamCmdSoon, h]

theorem Stream.live_iff (x : Stream) : x.live = true ↔ x.st ≠ .free ∧ x.st ≠ .done ∧ x.st ≠ .cancelled ∧ x.st ≠ .limited := by
  cases h : x.st <;> simp [Stream.live, Stream.terminal, h]

theorem streamCmd_query (ho : cmdByte e 0 = 5) :
    streamCmd i n e s = answer n e stOk 0 ((streamGet s i).handle i) (queryStream (streamGet s i)) s := by
  simp [streamCmd, ho]

theorem streamCmd_suspend (ho : cmdByte e 0 = 2) (hl : (streamGet s i).live = true) (hs : (streamGet s i).st ≠ .submitted)
    (hn : (streamGet s i).st ≠ .suspended) :
    streamCmd i n e s = answerAfter s n e stOk ((streamGet s i).handle i) (suspend i suspCmd s) := by
  obtain ⟨-, hd, hc, hlim⟩ := (Stream.live_iff _).1 hl
  simp [streamCmd, ho, hs, hn, Stream.terminal, hd, hc, hlim]

theorem streamCmd_resume (ho : cmdByte e 0 = 3) (hs : (streamGet s i).st = .suspended) (h1 : cmdByte e 1 = 0)
    (hb : (streamGet s i).susp &&& suspCmd ≠ 0) :
    streamCmd i n e s = answerAfter s n e stOk ((streamGet s i).handle i) (unsuspend i suspCmd s) := by
  simp [streamCmd, ho, hs, h1, show (streamGet s i).susp &&& suspCmd ≠ 0#5 from hb]

theorem streamCmd_cancel (ho : cmdByte e 0 = 4) (hl : (streamGet s i).live = true) (hs : (streamGet s i).st ≠ .submitted) :
    streamCmd i n e s = answer n e stOk 0 ((streamGet s i).handle i) [] (endStream i .cancelled 4 0 s) := by
  obtain ⟨-, hd, hc, hlim⟩ := (Stream.live_iff _).1 hl
  simp [streamCmd, ho, hs, Stream.terminal, hd, hc, hlim]

theorem streamCmd_setPriority (ho : cmdByte e 0 = 6) (hl : (streamGet s i).live = true) (hs : (streamGet s i).st ≠ .submitted) :
    streamCmd i n e s = answerAfter s n e stOk ((streamGet s i).handle i)
      (putIndex i .other (streamSet i { streamGet s i with priority := BitVec.ofNat 3 (cmdByte e 0x10) } s)) := by
  obtain ⟨-, hd, hc, hlim⟩ := (Stream.live_iff _).1 hl
  simp [streamCmd, ho, hs, Stream.terminal, hd, hc, hlim]

theorem opCmdFrom_answers {j st : Nat} {s2 : State} (h1 : cmdByte e 1 = 0) (ho : opCmd j (cmdByte e 0) s = some (st, s2)) :
    opCmdFrom j n e s =
      answer n e st 0 ((opGet s j).handle j) (if cmdByte e 0 = 5 then queryOp (opGet s j) else []) s2 := by
  unfold opCmdFrom
  dsimp only
  rw [if_neg (by simp [h1]), ho]

end

/-- Settles O25. -/
theorem handleCommandsTakeEffect : Obligations.HandleCommandsTakeEffect := by
  intro qp op c e s s1 hc h hop
  have he := exec_handleCmd hc h
  subst hop
  refine ⟨fun hf => he.trans (congrArg _ (handleCmd_malformed hf)), fun st hf ht => he.trans (congrArg _ ?_),
    fun i hf ht => ?_, fun j st s2 hf ht hcmd h1 => he.trans (congrArg _ ?_)⟩
  · rw [handleCmd_formed hf, ht]
  · intro x handle hh
    have hs : exec c s = .next (streamCmd i qp e s1) := by
      rw [he, handleCmd_formed hf, ht]
      exact congrArg _ (streamCmdSoon_now hh)
    exact ⟨fun ho => hs.trans (congrArg _ (streamCmd_query ho)),
      fun ho hl hsub hn => hs.trans (congrArg _ (streamCmd_suspend ho hl hsub hn)),
      fun ho hst h1 hb => hs.trans (congrArg _ (streamCmd_resume ho hst h1 hb)),
      fun ho hl hsub => hs.trans (congrArg _ (streamCmd_cancel ho hl hsub)),
      fun ho hl hsub => hs.trans (congrArg _ (streamCmd_setPriority ho hl hsub))⟩
  · rw [handleCmd_formed hf, ht]
    exact opCmdFrom_answers h1 hcmd

/-! ### Commands of a context -/

/-- A number that is picked is a free one. -/
theorem free_of_pickFree {fresh lo n i : Nat} {free : Nat → Bool} (h : pickFree fresh lo n free = some i) : free i = true := by
  unfold pickFree at h
  dsimp only at h
  split at h
  · simp_all
  · obtain ⟨k, hk, rfl⟩ := Option.map_eq_some_iff.1 h
    exact (List.find?_eq_some_iff_append.1 hk).1

theorem opGet_free_of_startOp {x : LongOp} {s s2 : State} {j : Nat} (h : startOp x s = some (j, s2)) : (opGet s j).st = .free := by
  obtain ⟨k, hk, he⟩ := Option.map_eq_some_iff.1 h
  obtain ⟨rfl, -⟩ := Prod.mk.inj he
  unfold freeSlot at hk
  rcases ownPart 1024 s with ⟨lo, n⟩
  have := free_of_pickFree hk
  simp only [Bool.and_eq_true, decide_eq_true_eq] at this
  exact this.1

theorem acceptOp_full {n : Nat} {e : BitVec 512} {x : LongOp} {f : Nat → State → State} {s : State} (h : startOp x s = none) :
    acceptOp n e x f s = answer n e stFull 0 0 [] s := by
  rw [acceptOp, h]

theorem acceptOp_accepted {n : Nat} {e : BitVec 512} {x : LongOp} {f : Nat → State → State} {s s2 : State} {j : Nat}
    (h : startOp x s = some (j, s2)) : acceptOp n e x f s = f j (answerAfter s n e stOk ((opGet s2 j).handle j) s2) := by
  rw [acceptOp, h]

/-- UNLOAD takes the model and its pages away and leaves the context keyed. -/
theorem unloadCmd_unloads {n : Nat} {e : BitVec 512} {m : Model} {s : State} (hf : cmdFormat e = true)
    (hb : (ctxGet s (qpGet s n).ctx.toNat).st = .bound) (hm : modelOf s (qpGet s n).ctx.toNat = some m)
    (hl : liveOf s (qpGet s n).ctx.toNat = []) (ho : anyOpOpen s (qpGet s n).ctx.toNat = false) :
    ∃ s2, unloadCmd n e s = answerAfter s n e stOk 0 (putContext (qpGet s n).ctx.toNat s2) ∧
      modelOf s2 (qpGet s n).ctx.toNat = none ∧ (ctxGet s2 (qpGet s n).ctx.toNat).st = .keyed ∧
      (∀ p ∈ s2.piers.pool, p.1 ≠ (qpGet s n).ctx.toNat) := by
  unfold unloadCmd
  generalize (qpGet s n).ctx.toNat = ctx at *
  have hh : hasModel s ctx = true := by simp [hasModel, hb, hm]
  dsimp only
  rw [if_neg (by simp [hf]), if_neg (by simp [hh, hl, ho])]
  refine ⟨_, rfl, ?_, ?_, ?_⟩
  · simp [modelOf, ctxSet, modelSet]
  · obtain ⟨k, hk⟩ := ctxGet_ctxSet_fields ctx { ctxGet { modelSet ctx none (takeRoles ctx s) with
      piers := { (modelSet ctx none (takeRoles ctx s)).piers with
        pool := (modelSet ctx none (takeRoles ctx s)).piers.pool.filter (fun p => p.1 ≠ ctx) } } ctx with st := .keyed }
      { modelSet ctx none (takeRoles ctx s) with piers := { (modelSet ctx none (takeRoles ctx s)).piers with
        pool := (modelSet ctx none (takeRoles ctx s)).piers.pool.filter (fun p => p.1 ≠ ctx) } }
    exact congrArg Context.st hk
  · intro p hp
    have : p ∈ (modelSet ctx none (takeRoles ctx s)).piers.pool.filter (fun p => p.1 ≠ ctx) := hp
    simpa using (List.mem_filter.1 this).2

/-- Settles O26. -/
theorem contextCommandsAreAccepted : Obligations.ContextCommandsAreAccepted := by
  intro qp e s s1 ctx
  refine ⟨fun s2 h hf hslot hlock => ?_, fun h hf hslot => ?_, fun h hf hslot hlock => ?_, fun m h hf hb hm hl ho => ?_,
    fun h hf => ⟨fun hp hm hl ho => ?_, fun hp => ?_⟩, fun h hf hm ho => ?_, fun h hf hb hlen ho => ?_,
    fun x f => ⟨fun h => acceptOp_full h, fun j s2 h => ⟨opGet_free_of_startOp h, acceptOp_accepted h⟩⟩⟩
  · refine congrArg _ ((withCmd_taken h).trans ?_)
    rw [loadModelCmd, hf]
    dsimp only
    rw [if_neg (by simpa using Option.isSome_iff_ne_none.1 hslot), hlock]
  · refine congrArg _ ((withCmd_taken h).trans ?_)
    rw [loadModelCmd, hf]
    dsimp only
    rw [if_pos (by simp [hslot])] <;> rfl
  · refine congrArg _ ((withCmd_taken h).trans ?_)
    rw [loadModelCmd, hf]
    dsimp only
    rw [if_neg (by simpa using Option.isSome_iff_ne_none.1 hslot), hlock] <;> rfl
  · obtain ⟨s2, hs2, h2⟩ := unloadCmd_unloads hf hb hm hl ho
    exact ⟨s2, congrArg _ ((withCmd_taken h).trans hs2), h2⟩
  · refine congrArg _ ((withCmd_taken h).trans ?_)
    have hlegal : burnishLegal s1 (cmdField e 4 2) = true := by simp [burnishLegal, hm, hl, ho]
    unfold burnishCmd
    dsimp only
    rw [if_neg (by simp [hf]), if_neg (by simp [hp]), if_neg (by simp [hlegal])]
  · refine congrArg _ ((withCmd_taken h).trans ?_)
    unfold burnishCmd
    dsimp only
    rw [if_neg (by simp [hf]), if_pos (by simp [hp])] <;> rfl
  · refine congrArg _ ((withCmd_taken h).trans ?_)
    unfold rotateCmd
    dsimp only
    rw [if_neg (by simp [hf]), if_neg (by simp [show hasModel s1 (qpGet s1 qp).ctx.toNat = true from hm,
      show opOpen s1 (qpGet s1 qp).ctx.toNat [0x10#8, 0x12#8, 0x13#8] = false from ho])]
  · refine congrArg _ ((withCmd_taken h).trans ?_)
    unfold migrateCmd
    dsimp only
    rw [if_neg (by simpa [hf] using hlen), if_neg (by simp [show (bindingGet s1 (qpGet s1 qp).ctx.toNat).bound = true from hb,
      show opOpen s1 (qpGet s1 qp).ctx.toNat [0x12#8, 0x14#8] = false from ho])]

end Sys2Proof.Machine
end

section
/-!
PROOFS of O22: the region table, rebuilds, scrub and refresh.
-/
namespace Sys2Proof.Machine

/-- The part that a rebuild's end copies. -/
theorem execMirrorRebuildEnd_found {b : Rebuild} {s : State}
    (h : s.store.rebuilds.find? (fun b => memUp s b.src.pier && memUp s b.dst.pier) = some b) :
    execMirrorRebuildEnd s = .next (
      let s1 := copySeats b { s with store := { s.store with rebuilds := s.store.rebuilds.erase b } }
      if b.back then s1
      else
        let put := fun (l : List Spare) =>
          l.filter (fun a => !(a.entry = b.entry && a.pair = b.pair)) ++ [⟨b.entry, b.pair, b.src, b.dst, b.layout⟩]
        { s1 with store := { s1.store with spares := put s1.store.spares }
                  power := { s1.power with retained := { s1.power.retained with spares := put s1.power.retained.spares } } }) := by
  rw [execMirrorRebuildEnd, h]

/-- The one spare assignment of a pair is the one put last. -/
theorem mem_putSpare {l : List Spare} {a x : Spare} :
    x ∈ l.filter (fun y => !(decide (y.entry = a.entry) && decide (y.pair = a.pair))) ++ [a] ↔
      (x ∈ l ∧ ¬ (x.entry = a.entry ∧ x.pair = a.pair)) ∨ x = a := by
  simp [Decidable.imp_iff_not_or]

theorem tryLock_locked {s : State} (h : s.store.lock = true) : tryLock s = some s := by
  rw [tryLock, if_pos h]

theorem tryLock_lockable {s : State} (h : s.store.lock = false) (hl : lockable s.store.regions = true) :
    tryLock s = some (restamp 10
      { s with store := { s.store with lock := true, errCode := 0, errEntry := 0 }
               power := { s.power with retained :=
                 { s.power.retained with regions := some s.store.regions, spares := s.store.spares } } }) := by
  rw [tryLock, if_neg (by simp [h]), if_pos hl]

theorem tryLock_not_lockable {s : State} (h : s.store.lock = false) (hl : lockable s.store.regions = false) : tryLock s = none := by
  rw [tryLock, if_neg (by simp [h]), if_neg (by simp [hl])]

theorem execRefresh_awake {target : RefreshTarget} {reading : Option Byte} {s : State} (ha : alive s = true)
    (hu : unitAsleep (targetUnit target) s = false) :
    execRefresh ⟨target, reading⟩ s = .next (stackReading (targetUnit target) reading { s with store := { s.store with
      openRow := s.store.openRow.filter (fun e => !bankInTarget target e.1)
      lastRefresh := tset (fun _ => 0) s.store.lastRefresh (targetIdx target) s.ticks } }) := by
  rw [execRefresh]
  dsimp only
  rw [if_neg (by simp [ha, hu])]

/-- Settles O22. -/
theorem regionsRebuildAndScrub : Obligations.RegionsRebuildAndScrub := by
  refine ⟨⟨fun n base s hw hl hv => ?_, fun n base s hw hbad => ?_, fun n s hw => ⟨fun hl => ?_, fun hl => ?_⟩,
    fun s hw => ⟨fun hl => ?_, fun hl hk => ?_, fun hl hk => ?_⟩⟩, fun b s h => ⟨fun hb => ?_, fun hb => ?_⟩,
    fun pier s => ?_, fun target reading s ha hu => ⟨execRefresh_awake ha hu, fun n v ht hr => ?_⟩,
    fun unit s ha => ⟨fun hi hd hu => ?_, fun hs hu hm => ?_⟩⟩
  · refine ⟨restamp 10 (regionErr _ n (regionPut n _ s)), ?_, rfl, rfl, rfl, rfl⟩
    show execRegionValidSet n base s = _
    unfold execRegionValidSet regionSet
    dsimp only
    rw [if_pos hw, if_neg (by simp [hl, hv])]
  · show execRegionValidSet n base s = _
    unfold execRegionValidSet regionSet
    dsimp only
    rw [if_pos hw, if_pos (by simpa using hbad)]
  · show execRegionValidClear n s = _
    rw [execRegionValidClear, if_pos hw, regionClear, if_pos hl]
  · refine ⟨restamp 10 (regionPut n _ s), ?_, rfl, rfl⟩
    show execRegionValidClear n s = _
    rw [execRegionValidClear, if_pos hw, regionClear, if_neg (by simp [hl])]
  · show execRegionLock s = _
    rw [execRegionLock, if_pos hw, setLock, tryLock_locked hl, Option.getD_some]
  · have e : exec .regionLock s = .next (restamp 10
        { s with store := { s.store with lock := true, errCode := 0, errEntry := 0 }
                 power := { s.power with retained :=
                   { s.power.retained with regions := some s.store.regions, spares := s.store.spares } } }) := by
      show execRegionLock s = _
      rw [execRegionLock, if_pos hw, setLock, tryLock_lockable hl hk, Option.getD_some]
    exact ⟨_, e, rfl, rfl, rfl, rfl⟩
  · show execRegionLock s = _
    rw [execRegionLock, if_pos hw, setLock, tryLock_not_lockable hl hk, Option.getD_none]
    rfl
  · refine (execMirrorRebuildEnd_found h).trans ?_
    dsimp only
    rw [if_pos hb]
    rfl
  · refine ⟨_, (execMirrorRebuildEnd_found h).trans (congrArg _ (if_neg (by simp [hb]))), rfl, rfl, fun x => mem_putSpare (a := ⟨b.entry, b.pair, b.src, b.dst, b.layout⟩), ?_⟩
    exact List.mem_append_right _ (List.mem_singleton.2 rfl)
  · intro p n u ha hm hr hp
    have hcheck : checkLine p (n * 64) [] u = u := checkLine_sound hp
    show execPatrolScrub pier [] s = _
    unfold execPatrolScrub
    dsimp only
    rw [if_neg (by simp [ha, hm, hr, p, n])]
    simp only [p, n, u] at hcheck
    rw [hcheck]
    rfl
  · refine ⟨_, execRefresh_awake ha hu, ?_⟩
    rw [ht, hr]
    rfl
  · show execSelfRefreshEntry unit s = _
    unfold execSelfRefreshEntry
    dsimp only
    have hi' : s.store.srIdle.toNat ≠ 0 := fun h0 => hi (BitVec.eq_of_toNat_eq (by simpa using h0))
    rw [if_pos (by simp [ha, hi', due, hd, hu])]
  · show execSelfRefreshExit unit s = _
    unfold execSelfRefreshExit
    dsimp only
    rw [if_pos (by simp [ha, hs, hu, hm])]

end Sys2Proof.Machine
end

section
/-!
PROOFS of O20 (refuted): a halt of a run with an item at a chiplet.
-/
namespace Sys2Proof.Machine

/-- A batch run without lanes whose one item has been sent over a port that is up. -/
def itemOut : State :=
  { piers := { runs := [{ id := 0, ctx := 0, prog := 0, kind := .batch 0 }] }
    girth := { ports := [(0, {
      st := .up, credits := [0, 0, 0, 0, 64]
      items := [{ tag := 0, ctx := 0, run := 0, stitch := 0, pier := 0, deadline := 0, bytes := [], sent := true, aborted := none }] })] } }

/-- The item is aborted at once, and its ABORT leaves the block. -/
theorem haltRun_itemOut_sends : (haltRun 0 0 1 0 itemOut).out ≠ [] := by decide +kernel

/-- Refutes O20: the clause on a halt of a run of no stream has what leaves the block unchanged. A run may end with an item at a
chiplet; the halt aborts it, and the ABORT goes out on the port (and its flit is counted). -/
theorem not_runsArrayAndSkive : ¬ Obligations.RunsArrayAndSkive := by
  rintro ⟨⟨-, -, -, hhalt, -⟩, -⟩
  have hrun : runGet itemOut 0 = some { id := 0, ctx := 0, prog := 0, kind := .batch 0 } := by decide +kernel
  have henv : envOf (abortItems 0 { itemOut with piers := { itemOut.piers with excs := itemOut.piers.excs ++ [(0, 0, 1, 0)] } })
      { id := 0, ctx := 0, prog := 0, kind := .batch 0 } = none := by decide +kernel
  obtain ⟨t, ht, -, -, hrest, -⟩ := hhalt 0 0 1 0 0 _ itemOut hrun rfl rfl henv
  have hout : t.out = itemOut.out := by rw [hrest]
  exact haltRun_itemOut_sends ((congrArg State.out ht).trans hout)

end Sys2Proof.Machine
end

section
/-!
PROOFS of O33: viaduct frames.
-/
namespace Sys2Proof.Machine

section
variable {s : State} (ha : alive s = true) (hh : s.faults.handover = none) (hf : framesFlow s = true)
include ha hh hf

theorem execViaductFrameSend_replay {n : W64} {rest : List W64} {h : HeldFrame} (hr : s.viaduct.replay = n :: rest)
    (hn : s.viaduct.held.find? (fun h => h.num = n) = some h) :
    execViaductFrameSend s = .next (count 2578 (emit (.viaFrame h.num h.ack h.nak h.msgs h.key)
      { s with viaduct := { s.viaduct with replay := rest } })) := by
  unfold execViaductFrameSend
  dsimp only
  rw [if_neg (by simp [ha, hh, hf]), hr]
  dsimp only
  rw [hn]

theorem execViaductFrameSend_fill (hr : s.viaduct.replay = []) (hn : 64 < (s.viaduct.txNum - s.viaduct.peerAck).toNat) :
    execViaductFrameSend s = .next (emit .viaFill s) := by
  unfold execViaductFrameSend
  dsimp only
  rw [if_neg (by simp [ha, hh, hf]), hr]
  dsimp only
  rw [if_pos hn]

theorem execViaductFrameSend_new (hr : s.viaduct.replay = []) (hn : (s.viaduct.txNum - s.viaduct.peerAck).toNat ≤ 64)
    (hk : s.sec.kxStep ≠ 5) :
    execViaductFrameSend s = .next (count 2576 (emit
      (.viaFrame s.viaduct.txNum s.viaduct.rxAck s.viaduct.nak (frameMsgs s).2 (viaKey s s.viaduct.txNum))
      { s with viaduct := { (frameMsgs s).1 with
        txNum := s.viaduct.txNum + 1, nak := false
        held := s.viaduct.held ++ [⟨s.viaduct.txNum, s.viaduct.rxAck, s.viaduct.nak, (frameMsgs s).2, viaKey s s.viaduct.txNum, 0⟩] } })) := by
  unfold execViaductFrameSend
  dsimp only
  rw [if_neg (by simp [ha, hh, hf]), hr]
  dsimp only
  rw [if_neg (by omega)]
  refine congrArg _ ?_
  unfold endExchange
  rw [if_neg (by simp [emit, hk])]

end

/-- A frame that is not whole only asks for a NAK. -/
theorem execViaductFrame_bad {f : ViaFrame} {s : State} (ha : alive s = true) (hf : framesFlow s = true)
    (hw : wholeFrame f = false) :
    execViaductFrame f s = .next { countN 2581 (strayBlocks f) s with viaduct := { s.viaduct with nak := true } } := by
  unfold execViaductFrame
  dsimp only
  rw [if_neg (by simp [ha, hf]), hw]
  rfl

/-- An acknowledgement changes what is held and to be replayed, and nothing else. -/
theorem ackFrames_eq (a : W64) (s : State) :
    ∃ p h r, ackFrames a s = { s with viaduct := { s.viaduct with peerAck := p, held := h, replay := r } } := by
  unfold ackFrames
  dsimp only
  split
  · exact ⟨s.viaduct.peerAck, s.viaduct.held, s.viaduct.replay, rfl⟩
  · exact ⟨_, _, _, rfl⟩

theorem ackFrames_acked {a : W64} {s : State} (h1 : (s.viaduct.peerAck + 1).toNat ≤ (a + 1).toNat)
    (h2 : (a + 1).toNat ≤ s.viaduct.txNum.toNat) :
    (ackFrames a s).viaduct.peerAck = a ∧ ∀ h ∈ (ackFrames a s).viaduct.held, (a + 1).toNat ≤ h.num.toNat := by
  unfold ackFrames
  dsimp only
  rw [if_neg]
  · exact ⟨rfl, fun h hm => by simpa using (List.mem_filter.1 hm).2⟩
  · rw [Bool.or_eq_true, decide_eq_true_eq, decide_eq_true_eq]
    omega

/-- The next whole frame, without a NAK or a reserved message, is acknowledged and counted. -/
theorem execViaductFrame_accepted {f : ViaFrame} {s : State} (ha : alive s = true) (hf : framesFlow s = true)
    (hw : wholeFrame f = true) (hn : f.nak = false) (hr : f.reservedMsgs = 0) (hnum : f.frameNum = s.viaduct.rxAck + 1) :
    execViaductFrame f s = .next (count 2577 { ackFrames f.ackNum (countN 2581 (strayBlocks f) s) with
      viaduct := { (ackFrames f.ackNum (countN 2581 (strayBlocks f) s)).viaduct with rxAck := f.frameNum } }) := by
  have hack : (ackFrames f.ackNum (countN 2581 (strayBlocks f) s)).viaduct.rxAck = s.viaduct.rxAck := by
    obtain ⟨p, h, r, e⟩ := ackFrames_eq f.ackNum (countN 2581 (strayBlocks f) s)
    rw [e]
    rfl
  unfold execViaductFrame
  dsimp only
  rw [if_neg (by simp [ha, hf]), hw, hn, hr]
  simp only [Bool.and_false, Bool.true_and, if_true, Bool.false_eq_true, if_false, hnum, hack, decide_true]
  rfl

theorem execFastRetrainTimeout_due {d : Nat} {s : State} (ha : alive s = true) (hr : s.viaduct.fastRetrain = some d)
    (hd : d ≤ s.ticks) : execFastRetrainTimeout s = .next (retrainFails s) := by
  rw [execFastRetrainTimeout, hr]
  dsimp only
  rw [if_pos (by simp [ha, due, hd])]

/-- Settles O33. -/
theorem viaductFramesFlow : Obligations.ViaductFramesFlow := by
  refine ⟨fun s ha hh hf => ⟨fun n rest h hr hn => execViaductFrameSend_replay ha hh hf hr hn,
    fun hr hn => execViaductFrameSend_fill ha hh hf hr hn, fun hr hn hk => execViaductFrameSend_new ha hh hf hr hn hk⟩,
    fun f s ha hf => ⟨fun hbad => ?_, fun h8 hdec htag hnak hres hnum => ?_⟩, fun d s ha hr hd => ⟨fun hu => ?_, fun hu => ?_⟩⟩
  · have hw : wholeFrame f = false := by
      simp only [wholeFrame, Bool.and_eq_false_iff, decide_eq_false_iff_not]
      exact or_assoc.2 hbad
    exact execViaductFrame_bad ha hf hw
  · have hw : wholeFrame f = true := by
      simp only [wholeFrame, Bool.and_eq_true, decide_eq_true_eq]
      exact ⟨⟨hdec, htag⟩, h8⟩
    have e := execViaductFrame_accepted ha hf hw hnak hres hnum
    have hacked := ackFrames_acked (a := f.ackNum) (s := countN 2581 (strayBlocks f) s)
    obtain ⟨p, h, r, he⟩ := ackFrames_eq f.ackNum (countN 2581 (strayBlocks f) s)
    rw [he] at e hacked
    exact ⟨_, e, rfl, rfl, rfl, hacked⟩
  · refine (execFastRetrainTimeout_due ha hr hd).trans (congrArg _ ?_)
    exact if_pos hu
  · refine (execFastRetrainTimeout_due ha hr hd).trans (congrArg _ ?_)
    exact if_neg (by simp [hu])

end Sys2Proof.Machine
end

section
/-!
PROOFS of O34: training, the pair's key exchange, and time.
-/
namespace Sys2Proof.Machine

theorem inTrainStep_inTime {f : State → State} {s : State} (h : s.ticks < s.viaduct.stepDeadline) : inTrainStep f s = f s := by
  rw [inTrainStep, if_neg (by simp [due, h])]

/-- A step of the training that ends in time. -/
theorem execTrainStepDone_inTime {rev : Bool} {s : State} (ha : alive s = true) (hs : s.faults.safe = false)
    (hf : s.viaduct.fastRetrain = none) :
    execTrainStepDone rev s = .next (
      if s.viaduct.step = 1 then inTrainStep (stepTo 2) s
      else if s.viaduct.step = 2 then inTrainStep (fun s => newNumbers 0 (stepTo 3 s)) s
      else if s.viaduct.step = 3 then
        inTrainStep (fun s => sendEcho { stepTo 4 s with viaduct := { (stepTo 4 s).viaduct with reversed := rev, samples := [] } }) s
      else s) := by
  unfold execTrainStepDone
  dsimp only
  rw [if_neg (by simp [ha, hs]), hf, if_neg (by simp), if_neg (by simp)]

theorem execTimeEchoReply_inTime {tag : W32} {ts : W64} {rt : Nat} {s : State} (ha : alive s = true) (h4 : s.viaduct.step = 4)
    (hd : s.ticks < s.viaduct.stepDeadline) :
    execTimeEchoReply tag ts rt s = .next (
      let l := s.viaduct.samples ++ [rt]
      let s1 := ringDoorbell 6 0 { s with viaduct := { s.viaduct with samples := l } }
      if l.length < 64 then sendEcho s1
      else startExchange (stepTo 5 { s1 with viaduct := { s1.viaduct with flightPs := BitVec.ofNat 16 (medianHalf l) } })) := by
  unfold execTimeEchoReply
  rw [if_neg (by simp [ha, h4]), inTrainStep_inTime hd]

theorem execPairKxRecord_inTime {r : PairKx} {s : State} (ha : alive s = true) (hs : s.faults.safe = false)
    (h5 : s.viaduct.step = 5) (hd : s.ticks < s.viaduct.stepDeadline) : execPairKxRecord r s = .next (kxRecord r s) := by
  rw [execPairKxRecord, if_pos (by simp [ha, hs, h5]), inTrainStep_inTime hd]

section
variable {s : State}

theorem kxRecord_share {n : BitVec 256} {p : BitVec 776} (h : s.sec.kxStep = 1) :
    kxRecord (.share n p) s = { s with viaduct := { s.viaduct with kx := s.viaduct.kx ++ [ownCert s] }
                                       sec := { s.sec with kxStep := 2 } } := by
  simp [kxRecord, h]

theorem kxRecord_cert_ok {svn : Byte} (h : s.sec.kxStep = 2) (hv : s.sec.minSvn.toNat ≤ svn.toNat) :
    kxRecord (.cert true true svn) s = { s with viaduct := { s.viaduct with kx := s.viaduct.kx ++ [.sig true] }
                                                sec := { s.sec with kxStep := 3 } } := by
  simp [kxRecord, h, hv]

theorem kxRecord_cert_bad {root dep : Bool} {svn : Byte} (h : s.sec.kxStep = 2)
    (hb : root = false ∨ dep = false ∨ svn.toNat < s.sec.minSvn.toNat) :
    kxRecord (.cert root dep svn) s = abortTraining (raise 2926 .uc s.viaduct.retrains.toNat s) := by
  unfold kxRecord
  dsimp only
  rw [if_neg (by simp [h]), if_neg]
  simp only [Bool.and_eq_true, decide_eq_true_eq]
  rintro ⟨⟨hr, hd⟩, hv⟩
  rcases hb with hb | hb | hb
  · simp [hb] at hr
  · simp [hb] at hd
  · omega

theorem kxRecord_sig_ok (h : s.sec.kxStep = 3) :
    kxRecord (.sig true) s = { s with viaduct := { s.viaduct with kx := s.viaduct.kx ++ ownBundles s }
                                      sec := { s.sec with kxStep := 4 } } := by
  simp [kxRecord, h]

theorem kxRecord_sig_bad (h : s.sec.kxStep = 3) : kxRecord (.sig false) s = abortTraining s := by
  simp [kxRecord, h]

theorem kxRecord_bundle {c : Ctx} {st : BitVec 2} {id : W32} {mk : Nat} {cr : W64} {ow : Nat} {hm : Bool} (h : s.sec.kxStep = 4) :
    kxRecord (.bundle c st id mk cr ow hm true) s = { s with sec := { s.sec with
      bundles := s.sec.bundles.filter (fun o => o.ctx ≠ c.val) ++ [⟨c.val, id, mk, cr, ow, hm, st⟩] } } := by
  simp [kxRecord, h]

theorem kxRecord_done (h : s.sec.kxStep = 4) : kxRecord .done s = endExchange { s with sec := { s.sec with kxStep := 5 } } := by
  simp [kxRecord, h]

end

theorem timeError_eq (ts : W64) (s : State) :
    timeError ts s = 7 * (((ts.toNat : Int) - s.tsNow.toNat) * 10000 + 5 * s.pace.stagePs.toNat + s.viaduct.flightPs.toNat) + 760000 := by
  rw [timeError, show (190 : Int) * 4000 = 760000 from rfl]

/-- Settles O34. -/
theorem trainingAndTime : Obligations.TrainingAndTime := by
  refine ⟨⟨fun rev s ha hs hf hd => ⟨fun h => ?_, fun h => ?_, fun h => ?_⟩, fun s ha h0 hd => ?_, fun d s ha hr hd => ?_,
    fun tag ts rt s ha h4 hd => ⟨fun hl => ?_, fun hl => ?_⟩, fun r s ha hs h5 hd => ?_⟩, fun s ha hs => ⟨fun hd hu hse hb => ?_,
    fun ts hu hb => ?_, fun hb hd => ⟨fun he => ?_, fun he => ?_⟩, fun tag ts hf => ?_⟩⟩
  · refine (execTrainStepDone_inTime ha hs hf).trans (congrArg _ ?_)
    rw [h, if_pos rfl, inTrainStep_inTime hd]
  · refine (execTrainStepDone_inTime ha hs hf).trans (congrArg _ ?_)
    rw [h, if_neg (by decide), if_pos rfl, inTrainStep_inTime hd]
  · refine (execTrainStepDone_inTime ha hs hf).trans (congrArg _ ?_)
    rw [h, if_neg (by decide), if_neg (by decide), if_pos rfl, inTrainStep_inTime hd]
  · show execTrainStepTimeout s = _
    rw [execTrainStepTimeout, if_pos (by simpa [ha, due, hd] using h0)]
  · show execTrainRestart s = _
    rw [execTrainRestart, hr]
    dsimp only
    rw [if_pos (by simp [ha, due, hd])]
  · refine (execTimeEchoReply_inTime (tag := tag) (ts := ts) ha h4 hd).trans (congrArg _ ?_)
    exact if_pos hl
  · refine (execTimeEchoReply_inTime (tag := tag) (ts := ts) ha h4 hd).trans (congrArg _ ?_)
    exact if_neg (by omega)
  · have e := fun r => execPairKxRecord_inTime (r := r) ha hs h5 hd
    refine ⟨fun n p hr hk => ?_, fun root dep svn hr hk => ⟨fun ⟨h1, h2, h3⟩ => ?_, fun hbad => ?_⟩, fun hr hk => ?_, fun hr hk => ?_,
      fun c st id mk cr ow hm hr hk => ?_, fun hr hk => ?_⟩ <;> subst hr
    · exact (e _).trans (congrArg _ (kxRecord_share hk))
    · subst h1 h2
      exact (e _).trans (congrArg _ (kxRecord_cert_ok hk h3))
    · exact (e _).trans (congrArg _ (kxRecord_cert_bad hk hbad))
    · exact (e _).trans (congrArg _ (kxRecord_sig_ok hk))
    · exact (e _).trans (congrArg _ (kxRecord_sig_bad hk))
    · refine ⟨_, (e _).trans (congrArg _ (kxRecord_bundle hk)), rfl, List.mem_append_right _ (List.mem_singleton.2 rfl)⟩
    · exact (e _).trans (congrArg _ (kxRecord_done hk))
  · show execTimeSyncInterval s = _
    unfold execTimeSyncInterval
    rw [if_neg (by simp [ha, hs, due, hd])]
    dsimp only
    rw [if_pos (by simp [hu, hse, hb])]
    rfl
  · show execTimeSync ts s = _
    rw [execTimeSync, if_neg (by simp [ha, hs, hu, hb]), timeError_eq]
  · show execTsSlew s = _
    unfold execTsSlew
    dsimp only
    rw [if_neg (by simp [ha, hs, hb, due, hd]), if_pos he]
  · show execTsSlew s = _
    unfold execTsSlew
    dsimp only
    rw [if_neg (by simp [ha, hs, hb, due, hd]), if_neg (by omega), if_pos he]
  · show execTimeEcho tag ts s = _
    rw [execTimeEcho, if_neg (by simp [ha, hs, hf])]

end Sys2Proof.Machine
end

section
/-!
PROOFS of O35 and O60: journal messages, the cursor, remote windows, and the pace, trim and training commands complete.
-/
namespace Sys2Proof.Machine

/-- One line stored is one store at its address. -/
theorem storeFor_singleton {ctx dpa : Nat} {r : MemRequester} {d : LineData} {mask : Nat → W64} {s : State} :
    foldS [d].zipIdx (fun x => storeFor ctx (dpa + 64 * x.2) r x.1 (mask x.2) false) s = storeFor ctx dpa r d (mask 0) false s := by
  show storeFor ctx (dpa + 64 * 0) r d (mask 0) false s = _
  rw [Nat.mul_zero, Nat.add_zero]

/-- What a window write leaves after its stores: the acknowledgement, or its tag at the stores that wait. -/
def windowAnswered (tag : W32) (n : Nat) (t : State) : State :=
  if t.coh.posted.length = n then replyWindow (.wWriteAck tag 0) t
  else { t with coh := { t.coh with posted := t.coh.posted.mapIdx (fun i p => if i < n then p else { p with ack := some tag }) } }

section
variable {s : State} (hl : linked s = true)
include hl

theorem linked_alive : alive s = true := by
  simp only [linked, Bool.and_eq_true] at hl
  exact hl.1.1

theorem linked_not_safe : s.faults.safe = false := by
  simp only [linked, Bool.and_eq_true, Bool.not_eq_true'] at hl
  exact hl.1.2

theorem execJournalAck_waited {tag : W32} {status : Byte} {w : AckWait} (hf : s.pair.acks.find? (fun a => a.1 = tag) = some (tag, w)) :
    execJournalAck tag status s = .next (createDone tag (ackDone w status
      (ringDoorbell 6 0 { s with pair := { s.pair with acks := s.pair.acks.filter (fun a => a.1 ≠ tag) } }))) := by
  have hr : (ringDoorbell 6 0 s).pair.acks.find? (fun a => a.1 = tag) = some (tag, w) := hf
  unfold execJournalAck
  dsimp only
  rw [if_neg (by simp [hl]), hr]
  rfl

theorem execWindowRead_served {tag : W32} {win : Byte} {ctx : Ctx} {off : W64} {n : W16} {w : Window}
    (hw : windowIn win ctx off n.toNat false s = some w) :
    execWindowRead tag win ctx off n s = .next (
      let r := windowLines ctx ((w.base.toNat * 2097152 + off.toNat) / 64 * 64) n.toNat s
      replyWindow (.wReadData tag (if r.2.1 then 2 else 0) r.1) r.2.2) := by
  unfold execWindowRead
  rw [if_neg (by simp [hl]), hw]
  rfl

/-- A window write of one line: the state its store leaves is acknowledged, or what now waits at a home has the tag. -/
theorem execWindowWrite_line {tag : W32} {win : Byte} {ctx : Ctx} {off be1 be2 : W64} {d : LineData} {w : Window}
    (hw : windowIn win ctx off 1 true s = some w) :
    execWindowWrite tag win ctx off be1 be2 [d] s = .next (windowAnswered tag s.coh.posted.length
      (storeFor ctx.val ((w.base.toNat * 2097152 + off.toNat) / 64 * 64) (.window ctx) d (be1 &&& be2) false s)) := by
  unfold execWindowWrite
  rw [if_neg (by simp [hl]), List.length_singleton, hw]
  exact congrArg (fun t => Host.Outcome.next (windowAnswered tag s.coh.posted.length t))
    (storeFor_singleton (mask := fun k => if k = 0 then (if 1 - 1 = 0 then be1 &&& be2 else be1)
      else if k = 1 - 1 then be2 else BitVec.allOnes 64))

theorem execWindowReadData_of {tag : W32} {status : Byte} {lines : List LineData} {u : WinUser}
    (hf : s.pair.winReqs.find? (fun w => w.1 = tag) = some (tag, u)) :
    execWindowReadData tag status lines s = .next (
      let s1 := { s with pair := { s.pair with winReqs := s.pair.winReqs.filter (fun w => w.1 ≠ tag) } }
      match u with
      | .engine e =>
        match xferGet s1 e with
        | some x => xferSet e (some { x with poison := x.poison || status ≠ 0 }) s1
        | none => s1
      | .read r i d p =>
        if status ≠ 0 then haltAt r i 2 s1
        else runMod r (fun x => { x with winData := x.winData ++ [(d, p, lines.flatMap lineBytes)] }) s1
      | .signal _ _ | .write _ => s1) := by
  unfold execWindowReadData
  rw [if_neg (by simp [hl])]
  simp only [hf]
  cases u <;> rfl

theorem execWindowWriteAck_of {tag : W32} {status : Byte} {u : WinUser}
    (hf : s.pair.winReqs.find? (fun w => w.1 = tag) = some (tag, u)) :
    execWindowWriteAck tag status s = .next (
      let s1 := { s with pair := { s.pair with winReqs := s.pair.winReqs.filter (fun w => w.1 ≠ tag) } }
      match u with
      | .signal r i => finish r i 0 0 s1
      | _ => s1) := by
  unfold execWindowWriteAck
  rw [if_neg (by simp [hl])]
  simp only [hf]
  cases u <;> rfl

variable (hse : sends s = true)
include hse

/-- Lines inside the journal region are acknowledged at once where no slot here holds a sweep for the partner. -/
theorem execJournalWrite_acked {tag : W32} {joff : W64} {lines : List LineData}
    (hin : joff.toNat % 64 = 0 ∧ 1 ≤ lines.length ∧ lines.length ≤ 64 ∧ joff.toNat + 64 * lines.length ≤ regionLines s * 64)
    (hsh : ∀ j, (opGet s j).shadow = false) :
    ∃ t, execJournalWrite tag joff lines s = .next t ∧ t.viaduct.journal.getLast? = some (.jAck tag 0) := by
  obtain ⟨h0, h1, h64, hr⟩ := hin
  refine ⟨journalWrite tag joff.toNat lines s, ?_, ?_⟩
  · unfold execJournalWrite
    dsimp only
    rw [if_neg (by simp [hl, hse]), if_neg]
    simp [h0, Nat.not_lt.2 h64, Nat.not_lt.2 hr]
    exact List.ne_nil_of_length_pos h1
  · have hb : (entriesIn 0x50000 0x70000 128 joff.toNat (64 * lines.length)).filter (fun j => (opGet s j).shadow) = [] := by
      simp [hsh]
    unfold journalWrite
    dsimp only
    rw [hb]
    exact List.getLast?_concat ..

theorem execJournalWrite_malformed {tag : W32} {joff : W64} {lines : List LineData}
    (hm : joff.toNat % 64 ≠ 0 ∨ lines = [] ∨ 64 < lines.length ∨ regionLines s * 64 < joff.toNat + 64 * lines.length) :
    execJournalWrite tag joff lines s = .next (count 2579 s) := by
  unfold execJournalWrite
  dsimp only
  rw [if_neg (by simp [hl, hse]), if_pos]
  simp only [Bool.or_eq_true, decide_eq_true_eq, List.isEmpty_iff]
  rcases hm with h | h | h | h
  · exact .inl (.inl (.inl h))
  · exact .inl (.inl (.inr h))
  · exact .inl (.inr h)
  · exact .inr h

theorem execJournalImage_badLength {tag : W32} {ctx : Ctx} {chunk : W32} {part : Fin 16} {units : List LineData}
    (hu : units.length ≠ 64) : execJournalImage tag ctx chunk part units s = .next (count 2579 s) := by
  unfold execJournalImage
  rw [if_neg (by simp [hl, hse]), if_pos hu]

/-- The first part of a chunk is kept: another sixteenth is still missing. -/
theorem execJournalImage_first {tag : W32} {ctx : Ctx} {chunk : W32} {part : Fin 16} {units : List LineData}
    (hu : units.length = 64) (hp : s.pair.imageParts = []) : execJournalImage tag ctx chunk part units s =
      .next { s with pair := { s.pair with imageParts := [(ctx.val, chunk.toNat, part.val, units)] }
                     viaduct := { s.viaduct with journal := s.viaduct.journal ++ [.jAck tag 0] } } := by
  unfold execJournalImage
  dsimp only
  rw [if_neg (by simp [hl, hse]), if_neg (by simp [hu]), hp, if_neg]
  · rfl
  · intro hall
    have hq : ∃ q, q < 16 ∧ part.val ≠ q := ⟨if part.val = 0 then 1 else 0, by split <;> omega⟩
    obtain ⟨q, hq, hne⟩ := hq
    have := List.all_eq_true.1 hall q (List.mem_range.2 hq)
    simp [hne] at this

theorem execCursorUpdate_linked {entries : List CursorEntry} :
    execCursorUpdate entries s = .next (foldS entries cursorEntry (ringDoorbell 6 0 s)) := by
  rw [execCursorUpdate, if_pos (by simp [hl, hse])]

theorem execCursorInterval_due (hd : s.pair.nextCursor ≤ s.ticks) : execCursorInterval s = .next (
    let es := s.pair.cursorDirty.map (·.2)
    let msgs := (List.range ((es.length + 255) / 256)).map (fun g => ViaMsg.cursor ((es.drop (256 * g)).take 256))
    { s with pair := { s.pair with nextCursor := s.ticks + s.pair.cursorTicks.toNat, cursorDirty := [] }
             viaduct := { s.viaduct with cursor := s.viaduct.cursor ++ msgs } }) := by
  unfold execCursorInterval
  dsimp only
  rw [if_neg (by simp [linked_alive hl, linked_not_safe hl, due, hd]), if_neg (by simp [hse])]

end

theorem execTimeSyncInterval_sent {s : State} (ha : alive s = true) (hs : s.faults.safe = false) (hd : s.pair.nextSync ≤ s.ticks)
    (hu : s.viaduct.up = true) (hse : sends s = true) (hb : s.pair.roleB = false) :
    execTimeSyncInterval s = .next (sendTime (fun _ => .sync s.tsNow)
      { s with pair := { s.pair with nextSync := s.pair.nextSync + 1000 } }) := by
  unfold execTimeSyncInterval
  rw [if_neg (by simp [ha, hs, due, hd])]
  dsimp only
  rw [if_pos (by simp [hu, hse, hb])]

theorem windowLines_length (ctx : Ctx) (dpa n : Nat) (s : State) : (windowLines ctx dpa n s).1.length = n := by
  induction n generalizing dpa s with
  | zero => rfl
  | succ n ih => exact congrArg (· + 1) (ih (dpa + 64) (readLine (.window ctx) dpa s).2)

/-- At most 256 entries go out as one message. -/
theorem cursorMessages_one {es : List CursorEntry} (h0 : es ≠ []) (h : es.length ≤ 256) :
    (List.range ((es.length + 255) / 256)).map (fun g => ViaMsg.cursor ((es.drop (256 * g)).take 256)) = [.cursor es] := by
  have hpos := List.length_pos_iff.2 h0
  have hone : (es.length + 255) / 256 = 1 := by omega
  simp [hone, List.take_of_length_le h]

/-- Settles O35. -/
theorem journalAndWindows : Obligations.JournalAndWindows := by
  refine ⟨fun s hl hse => ⟨fun tag joff lines => ⟨execJournalWrite_acked hl hse, execJournalWrite_malformed hl hse⟩,
    fun tag status w => execJournalAck_waited hl,
    fun tag ctx chunk part units => ⟨execJournalImage_badLength hl hse, execJournalImage_first hl hse⟩,
    fun entries => execCursorUpdate_linked hl hse, fun hd => ⟨fun h0 => ?_, fun h0 h256 => ?_⟩⟩,
    fun s hl => ⟨fun tag win ctx off n => ⟨fun hw => ?_, fun w hw => ⟨windowLines_length .., execWindowRead_served hl hw⟩⟩,
      fun tag win ctx off be1 be2 lines => ⟨fun hw => ?_, fun w d hw hd => ?_⟩, fun tag status lines u hf => ?_⟩⟩
  · refine (execCursorInterval_due hl hse hd).trans (congrArg _ ?_)
    dsimp only
    rw [show s.pair.cursorDirty.map (·.2) = [] from h0]
    simp
  · refine (execCursorInterval_due hl hse hd).trans (congrArg _ ?_)
    dsimp only
    rw [cursorMessages_one h0 h256]
  · show execWindowRead tag win ctx off n s = _
    rw [execWindowRead, if_neg (by simp [hl]), hw]
    rfl
  · show execWindowWrite tag win ctx off be1 be2 lines s = _
    rw [execWindowWrite, if_neg (by simp [hl]), hw]
    rfl
  · subst hd
    have e := execWindowWrite_line (tag := tag) (be1 := be1) (be2 := be2) (d := d) hl hw
    refine ⟨fun ht => e.trans (congrArg _ (if_pos ht)), fun ht => ⟨_, e.trans (congrArg _ (if_neg ht)), rfl, fun p hp => ?_⟩⟩
    obtain ⟨i, hi, rfl⟩ := List.mem_iff_getElem.1 hp
    have hnew : ¬ s.coh.posted.length + i < s.coh.posted.length := by omega
    simp [hnew]
  · have er := execWindowReadData_of (status := status) (lines := lines) hl hf
    have ea := execWindowWriteAck_of (status := status) hl hf
    refine ⟨fun r i d p hu => ⟨fun h => ?_, fun h => ?_⟩, fun e x hu hx => ?_, fun r i hu => ?_, fun r hu => ?_⟩ <;> subst hu
    · exact er.trans (congrArg _ (if_neg (by simp [h])))
    · exact er.trans (congrArg _ (if_pos h))
    · refine er.trans (congrArg _ ?_)
      dsimp only
      rw [hx]
    · exact ea
    · exact ea

/-- Settles O60. -/
theorem paceViaductAndJournalComplete : Obligations.PaceViaductAndJournalComplete := by
  refine ⟨fun s ha hs => ⟨fun counts hd => ?_, fun v => ?_, fun ht hd hr hslow hv => ?_, fun mv d hr hd => ?_, fun mv d hr hd => ?_⟩,
    fun s ha hs => ⟨fun rev hf h1 hd => ?_, fun h0 hd => ?_, fun d hr hd => ?_, fun tag ts rt h4 hd hlen => ?_, fun n p h5 hd hk => ?_,
      fun hd hu hse hb => ?_, fun ts hu hb => ?_, fun hb hd he => ?_, fun tag ts hf => ?_⟩,
    fun s hl hse => ⟨fun tag joff d h0 hr hsh => ?_, fun tag st hf => ?_, fun tag ctx chunk part units hu hp => ?_, fun e => ?_,
      fun hd h0 => ?_, fun tag win ctx off n w hw => ?_, fun tag win ctx off be1 be2 d w hw ht => ?_, fun tag ls r i d p hq => ?_,
      fun tag st r hq => ?_⟩⟩
  · refine ⟨?sa, (?ea : execPaceUpdate counts s = .next ?sa), ?fa⟩
    case ea => rw [execPaceUpdate, if_pos (by simp [ha, due, hd])]
    case fa => exact ⟨rfl, rfl, rfl, rfl⟩
  · exact ⟨_, execPaceTargetWrite_writable (writable_of ha hs), rfl, by simp [clampTarget, fld]⟩
  · exact ⟨_, execTrimInterval_slow (writable_of ha hs) ht hd hr hslow hv, rfl, rfl, rfl⟩
  · obtain ⟨hack, hrefused, -⟩ := trimAnswers_inTime hr hd
    exact ⟨hack, hrefused⟩
  · exact (trimAnswers_late hr hd).2.2
  · refine (execTrainStepDone_inTime ha hs hf).trans (congrArg _ ?_)
    rw [if_pos h1, inTrainStep_inTime hd]
  · show execTrainStepTimeout s = _
    rw [execTrainStepTimeout, if_pos (by simpa [ha, due, hd] using h0)]
  · show execTrainRestart s = _
    rw [execTrainRestart, hr]
    dsimp only
    rw [if_pos (by simp [ha, due, hd])]
  · have hl : (s.viaduct.samples ++ [rt]).length < 64 := by simpa using (by omega : s.viaduct.samples.length + 1 < 64)
    exact ⟨_, (execTimeEchoReply_inTime (tag := tag) (ts := ts) ha h4 hd).trans (congrArg _ (if_pos hl)), rfl, rfl⟩
  · exact (execPairKxRecord_inTime ha hs h5 hd).trans (congrArg _ (kxRecord_share hk))
  · exact ⟨_, execTimeSyncInterval_sent ha hs hd hu hse hb, rfl, rfl⟩
  · refine ⟨?sc, (?ec : execTimeSync ts s = .next ?sc), ?fc⟩
    case ec => rw [execTimeSync, if_neg (by simp [ha, hs, hu, hb])]
    case fc => rfl
  · show execTsSlew s = _
    unfold execTsSlew
    dsimp only
    rw [if_neg (by simp [ha, hs, hb, due, hd]), if_pos he]
  · refine ⟨?sd, (?ed : execTimeEcho tag ts s = .next ?sd), ?fd⟩
    case ed => rw [execTimeEcho, if_neg (by simp [ha, hs, hf])]
    case fd => rfl
  · exact execJournalWrite_acked hl hse ⟨h0, by simp, by simp, by simpa using hr⟩ hsh
  · exact ⟨_, execJournalAck_waited hl hf, rfl⟩
  · exact ⟨_, execJournalImage_first hl hse hu hp, rfl, rfl⟩
  · exact execCursorUpdate_linked hl hse
  · refine (execCursorInterval_due hl hse hd).trans (congrArg _ ?_)
    simp [h0]
  · exact execWindowRead_served hl hw
  · exact (execWindowWrite_line hl hw).trans (congrArg _ (if_pos ht))
  · have hf : s.pair.winReqs.find? (fun w => w.1 = tag) = some (tag, .read r i d p) := by simp [hq]
    refine (execWindowReadData_of hl hf).trans (congrArg _ ?_)
    simp [hq]
  · have hf : s.pair.winReqs.find? (fun w => w.1 = tag) = some (tag, .write r) := by simp [hq]
    refine (execWindowWriteAck_of (status := st) hl hf).trans (congrArg _ ?_)
    simp [hq]

end Sys2Proof.Machine
end

section
/-!
PROOFS of O36 (refuted): a stream takeover reads the stream's extent.
-/
namespace Sys2Proof.Machine

/-- A member that takes over one stream in an orderly way. Its journal region starts at address 0; record 0's index entry (at
100000h) names the extent at line 32, whose header (at 1000800h) is all zero but for its CHECK. -/
def takingOne : State :=
  { power := { phase := .served, step := 7 }
    deck := { pds := [(0, { st := .on })] }
    store := { regions := [(0, { valid := true, owner := 2, use := 1, size := 16, pierCount := 1 })]
               cells := [(0x100000, 32), (0x100004, 1), (0x100083C, 103), (0x100083D, 235), (0x100083E, 200), (0x100083F, 3)]
               side := [0xC0000, 0x100000, 0x1000800, 0x1000840, 0x1000880].map (fun a => (a / 64, { key := 2 })) }
    pair := { take := .taking [0] true } }

/-- What the statement says that the takeover of an extent leaves: the rebuilt stream, and the takeover's end. -/
def takenWithoutReads : Extent → State
  | .held x recs => takeEnd (takeStream 0 x recs true takingOne)
  | _ => takingOne

/-- Record 0. -/
def recordZero : Fin 262144 := ⟨0, by omega⟩

/-- The rows of memory open after an outcome. -/
def openRowsOf : Host.Outcome State Fault Refusal → Tbl Nat
  | .next t => t.store.openRow
  | _ => []

/-- The header's row, in a bank that the index entry's write does not use, is open only where the extent was read. -/
theorem openRows_takingOne : openRowsOf (execStreamTakeover recordZero takingOne) ≠
    openRowsOf (.next (takenWithoutReads (extentAt takingOne 0))) := by
  decide +kernel

def Extent.isHeld : Extent → Bool
  | .held _ _ => true
  | _ => false

theorem extentAt_takingOne : ∃ x recs, extentAt takingOne 0 = .held x recs := by
  have hh : (extentAt takingOne 0).isHeld = true := by decide +kernel
  match he : extentAt takingOne 0 with
  | .held x recs => exact ⟨x, recs, rfl⟩
  | .bad => simp [he, Extent.isHeld] at hh
  | .free => simp [he, Extent.isHeld] at hh

/-- Refutes O36: STREAM_TAKEOVER reads the index entry, header and records of the extent that it takes over, and a read opens the
row of its bank; the statement's next state has the rebuilt stream but no row opened by those reads. -/
theorem not_pairStatesAndPartnerBay : ¬ Obligations.PairStatesAndPartnerBay := by
  intro h
  obtain ⟨-, -, -, -, -, htake, -⟩ := h.1 takingOne rfl rfl
  obtain ⟨x, recs, hx⟩ := extentAt_takingOne
  have e : execStreamTakeover recordZero takingOne = .next (takenWithoutReads (extentAt takingOne 0)) :=
    (((htake recordZero [] true rfl (by simp)).1 x recs hx).1 rfl).trans (congrArg _ (by rw [hx] <;> rfl))
  exact openRows_takingOne (congrArg openRowsOf e)

end Sys2Proof.Machine
end

section
/-!
PROOFS of O37, O38 and O39: the host link and its resets, bus mastering and decoders, and the host's own accesses.
-/
namespace Sys2Proof.Machine

theorem served_of_hostServes {s : State} (h : hostServes s = true) : s.host.dlUp = true ∧ s.power.phase = .served ∧ alive s = true := by
  simp only [hostServes, Bool.and_eq_true, decide_eq_true_eq] at h
  obtain ⟨hd, hp⟩ := h
  exact ⟨hd, hp, by simp [alive, hp]⟩

theorem bar0Open_iff {s : State} :
    bar0Open s = true ↔ hostServes s = true ∧ s.host.mse = true ∧ s.host.d3hot = false ∧ s.faults.safe = false := by
  simp [bar0Open, and_assoc]

/-! ### The link and the host-side resets -/

section
variable {s : State}

theorem execLinkUp_served {w sp : BitVec 4} {f : Bool} (hp : s.power.phase = .served) (hu : s.host.phyUp = false) :
    execLinkUp w sp f s =
      .next (trace 0x20 uHost (1 + 16 * sp.toNat + 256 * w.toNat) 0 (raiseLevel 2916 .uc false 0 { s with
        power := { s.power with perstN := true }
        host := { s.host with phyUp := true, dlUp := s.host.ideFailed.isNone, width := w, speed := sp, flit256 := f } })) := by
  unfold execLinkUp
  rw [hp]
  dsimp only
  rw [if_neg (by simp [hu])]

theorem linkEnds_up (ha : alive s = true) (hu : s.host.phyUp = true) :
    execLinkDrop s = .next (linkFalls 5 s) ∧ execLinkRetrain false s = .next (linkFalls 5 s) ∧
      execLinkRetrain true s = .next s ∧ execHotReset s = .next (linkFalls 3 s) := by
  simp [execLinkDrop, execLinkRetrain, execHotReset, ha, hu]

theorem execIdeFailure_protected {st : IdeStream} (ha : alive s = true) (hd : s.host.dlUp = true) (hi : ideOn s st = true) :
    execIdeFailure st s = .next (dropEffects 5
      (raise 2922 .uc (ideNum st) { s with host := { s.host with dlUp := false, ideFailed := some st } })) := by
  rw [execIdeFailure, if_neg (by simp [ha, hd, hi])]

theorem resetsBegin (ho : cfgOpen s = true) (hb : resetBusy s = false) :
    execFlr s = .next (resetBegins 1 { s with host := { s.host with flr := some ⟨after 9000000 s⟩ } }) ∧
      execCxlReset s = .next (resetBegins 2 { s with host := { s.host with cxlReset := some ⟨after 9000000 s⟩ } }) := by
  rw [execFlr, execCxlReset, if_neg (by simp [ho, hb]), if_neg (by simp [ho, hb])]
  exact ⟨rfl, rfl⟩

/-- The wait of a host-side reset is over once no read is out, or at its bound. -/
theorem resetWait_over {d : Nat} (h : s.host.reads = [] ∨ d ≤ s.ticks) : (s.host.reads.isEmpty || due d s) = true := by
  simpa [due] using h

theorem execFlrComplete_over {w : ResetWait} (ha : alive s = true) (hw : s.host.flr = some w)
    (h : s.host.reads = [] ∨ w.deadline ≤ s.ticks) :
    execFlrComplete s = .next { configReset true (zeroWindow (unbindAll (clearQueues (abandonReads s)))) with
      host := { (configReset true (zeroWindow (unbindAll (clearQueues (abandonReads s))))).host with flr := none } } := by
  unfold execFlrComplete clearStep
  rw [hw]
  dsimp only
  rw [if_neg (by simp [ha, resetWait_over h])]

theorem execCxlResetComplete_over {w : ResetWait} (ha : alive s = true) (hw : s.host.cxlReset = some w)
    (h : s.host.reads = [] ∨ w.deadline ≤ s.ticks) :
    execCxlResetComplete s = .next { cxlStateReset (zeroWindow (unbindAll (clearQueues (abandonReads s)))) with
      host := { (cxlStateReset (zeroWindow (unbindAll (clearQueues (abandonReads s))))).host with cxlReset := none } } := by
  unfold execCxlResetComplete clearStep
  rw [hw]
  dsimp only
  rw [if_neg (by simp [ha, resetWait_over h])]

/-- A window that was zeroed lists no byte. -/
theorem zeroWindow_lists_none {c : Nat × Byte} (hc : c ∈ (zeroWindow s).store.cells) :
    (regionOfLocal s.store.regions (c.1 / 4294967296) (c.1 % 4294967296)).any (fun e => e.2.isWindow) = false := by
  unfold zeroWindow at hc
  have h := (List.mem_filter.1 hc).2
  rw [Bool.not_eq_true'] at h
  exact h

end

/-- Settles O37. -/
theorem hostLinkAndResets : Obligations.HostLinkAndResets := by
  intro s ha
  refine ⟨fun w sp f => execLinkUp_served, linkEnds_up ha, ?_, fun st => execIdeFailure_protected ha, resetsBegin,
    fun w hw h => ⟨_, rfl, execFlrComplete_over ha hw h⟩, fun w hw h => ⟨_, rfl, execCxlResetComplete_over ha hw h⟩,
    fun c => zeroWindow_lists_none⟩
  show execPerst s = _
  rw [execPerst, if_pos ha]

/-! ### Bus mastering and decoders -/

section
variable {s : State} (ho : cfgOpen s = true)
include ho

theorem execBmeClear_set (hb : s.host.bme = true) :
    execBmeClear s = .next (bmeStops (trace 0x22 uHost 0 0 { s with host := { s.host with bme := false } })) := by
  rw [execBmeClear, if_neg (by simp [ho, hb])]

omit ho in
theorem host_trace (code : Nat) (unit : BitVec 9) (a b : Nat) : (trace code unit a b s).host = s.host := by
  obtain ⟨o, e⟩ := trace_eq code unit a b s
  rw [e]

theorem execBmeSet_clear (hb : s.host.bme = false) :
    execBmeSet s = .next (if s.host.d3hot then trace 0x22 uHost 1 0 { s with host := { s.host with bme := true } }
      else bmeStarts (trace 0x22 uHost 1 0 { s with host := { s.host with bme := true } })) := by
  unfold execBmeSet
  rw [if_neg (by simp [ho, hb])]
  dsimp only
  rw [host_trace]

theorem execD3hotEntry_entered (hd : s.host.d3hot = false) :
    execD3hotEntry s = .next (if s.host.bme then bmeStops { s with host := { s.host with d3hot := true } }
      else { s with host := { s.host with d3hot := true } }) := by
  unfold execD3hotEntry
  rw [if_neg (by simp [ho, hd])]

end

/-- The DPA of a decoder: after the spans of the lower committed decoders, and its skip. -/
def hdmBase (n : Nat) (s : State) : Nat :=
  ((s.host.hdm.filter (fun e => e.1 < n && e.2.committed)).map (·.2)).foldl (fun m e => max m (e.dpa + e.span)) 0 + (hdmGet s n).skip.toNat

/-- What a commit checks of a decoder itself. -/
def hdmSound (n : Nat) (s : State) : Bool :=
  s.host.flit256 && decide ((hdmGet s n).iw.toNat ≤ 3) && decide ((hdmGet s n).ig.toNat ≤ 6) &&
    spanMapped s.store.regions 65 (hdmBase n s) (hdmGet s n).span

theorem execHdmCommit_eq {n : Fin 4} {s : State} (ho : bar0Open s = true) (hc : (hdmGet s n).committed = false) :
    execHdmCommit n s = .next (
      let d := hdmGet s n
      let failed := fun (s : State) => count 2554 (hdmSet n { d with commit := true, errNotCommitted := true } s)
      if !hdmSound n s then failed s
      else match tryLock s with
        | none => failed (regionErr 8 0 s)
        | some s1 => hdmSet n { d with commit := true, committed := true, errNotCommitted := false, dpa := hdmBase n s } s1) := by
  unfold execHdmCommit
  dsimp only
  rw [if_neg (by simp [ho]), if_neg (by simp [hc])]
  rfl

/-- Settles O38. -/
theorem masteringAndDecoders : Obligations.MasteringAndDecoders := by
  refine ⟨fun s ho => ⟨execBmeClear_set ho, fun hb hd => ?_, fun hb hd => ?_, fun hd hb => ?_, fun hd hb => ?_⟩, fun n s ho => ?_⟩
  · exact (execBmeSet_clear ho hb).trans (congrArg _ (if_neg (by simp [hd])))
  · exact (execBmeSet_clear ho hb).trans (congrArg _ (if_pos hd))
  · exact (execD3hotEntry_entered ho hd).trans (congrArg _ (if_neg (by simp [hb])))
  · exact (execD3hotEntry_entered ho hd).trans (congrArg _ (if_pos hb))
  · intro d lower base sound hc
    have e := execHdmCommit_eq ho hc
    have hsound : hdmSound n s = true ↔ sound := by
      show (_ && decide _ && decide _ && _) = true ↔ (_ ∧ _ ∧ _ ∧ _)
      simp only [Bool.and_eq_true, decide_eq_true_eq, and_assoc]
      rfl
    refine ⟨fun s1 hs hl => ?_, fun hs => ?_, fun hs hl => ?_⟩
    · refine e.trans (congrArg _ ?_)
      dsimp only
      rw [if_neg (by simp [hsound.2 hs]), hl] <;> rfl
    · exact e.trans (congrArg _ (if_pos (by simpa using mt hsound.1 hs)))
    · refine e.trans (congrArg _ ?_)
      dsimp only
      rw [if_neg (by simp [hsound.2 hs]), hl] <;> rfl

/-! ### The host's own accesses -/

section
variable {hpa : W64} {req : HostMemReq} {s : State} (ho : hostServes s = true) (hf : s.host.flit256 = true)
  (hs : s.faults.safe = false)
include ho hf hs

theorem execHostMemAccess_mapped {a : Nat} (ha : hpaToDpa s (hpa.toNat / 64 * 64) = some a) :
    execHostMemAccess hpa req s = .next (
      let line : LineAddr := BitVec.ofNat 32 (a / 64)
      let tag := ((lineTag s a).map (·.2)).getD 0
      if hostMay s a then hostReq line tag req s else raise 2920 .uc tag (count 2553 (hostRefused line req s))) := by
  unfold execHostMemAccess
  dsimp only
  rw [if_neg (by simp [ho, hf]), if_neg (by simp [hs]), ha] <;> rfl

theorem execHostMemAccess_unmapped (ha : hpaToDpa s (hpa.toNat / 64 * 64) = none) :
    execHostMemAccess hpa req s = .next (raise 2920 .uc 0 (count 2553 (hostRefused 0 req s))) := by
  unfold execHostMemAccess
  dsimp only
  rw [if_neg (by simp [ho, hf]), if_neg (by simp [hs]), ha] <;> rfl

end

section
variable {off : BitVec 31} {s : State}

theorem execBar4Access_closed {w : Option (LineData × W64)} (h : barOpen s = false) :
    execBar4Access off w s = .next (refuseAccess true (if w.isSome then none else some 64) s) := by
  unfold execBar4Access
  dsimp only
  rw [if_pos (by simp [h])]

theorem execBar4Access_read {b : Nat} (h : barOpen s = true) (hb : windowBase s = some b) :
    execBar4Access off none s = .next (ioRead (BitVec.ofNat 32 ((b + off.toNat / 64 * 64) / 64)) s) := by
  unfold execBar4Access
  dsimp only
  rw [if_neg (by simp [h]), hb] <;> rfl

theorem execBar4Access_write {b : Nat} {d : LineData} {m : W64} (h : barOpen s = true) (hb : windowBase s = some b) :
    execBar4Access off (some (d, m)) s = .next (ioWrite (BitVec.ofNat 32 ((b + off.toNat / 64 * 64) / 64)) d m s) := by
  unfold execBar4Access
  dsimp only
  rw [if_neg (by simp [h]), hb] <;> rfl

theorem execBar4Access_unbacked (h : barOpen s = true) (hb : windowBase s = none) :
    execBar4Access off none s = .next (emit (.cpl (.poisoned (List.replicate 64 0))) (unmapped .hostIo s)) ∧
      ∀ w, execBar4Access off (some w) s = .next (unmapped .hostIo s) := by
  unfold execBar4Access
  dsimp only
  rw [if_neg (by simp [h]), hb]
  refine ⟨rfl, fun w => ?_⟩
  rw [if_neg (by simp [h])]

/-- The host path has an access to the line before this one. -/
def ioBefore (l : LineAddr) (s : State) : Prop := (∃ p ∈ s.coh.posted, p.requester = .hostIo ∧ p.line = l) ∨ l ∈ s.coh.ioReads

theorem ioBefore_iff (l : LineAddr) (s : State) :
    (s.coh.posted.any (fun p => p.requester = .hostIo && p.line = l) || s.coh.ioReads.contains l) = true ↔ ioBefore l s := by
  simp [ioBefore]

theorem ioRead_eq (l : LineAddr) (s : State) : let rd := { s with coh := { s.coh with ioReads := s.coh.ioReads ++ [l] } }
    (ioBefore l s ∨ ioMayAsk s l = false → ioRead l s = rd) ∧
      (¬ ioBefore l s → ioMayAsk s l = true → ioRead l s = cohRequest .hostIo 0 l .rdCur 0 4 rd) := by
  refine ⟨fun h => if_pos ?_, fun h ha => if_neg ?_⟩
  · show (_ || !ioMayAsk s l) = true
    rw [Bool.or_eq_true, ioBefore_iff]
    simpa using h
  · show ¬ (_ || !ioMayAsk s l) = true
    rw [Bool.or_eq_true, ioBefore_iff]
    simp [h, ha]

theorem ioWrite_eq (l : LineAddr) (d : LineData) (m : W64) (s : State) :
    let wr := { s with coh := { s.coh with posted := s.coh.posted ++ [⟨.hostIo, 0, l, d, m, false, none⟩] } }
    (ioBefore l s ∨ ioMayAsk s l = false → ioWrite l d m s = wr) ∧
      (¬ ioBefore l s → ioMayAsk s l = true → ioWrite l d m s = cohRequest .hostIo 0 l (.wrInv d m false) 0 4 wr) := by
  refine ⟨fun h => if_pos ?_, fun h ha => if_neg ?_⟩
  · show (_ || !ioMayAsk s l) = true
    rw [Bool.or_eq_true, ioBefore_iff]
    simpa using h
  · show ¬ (_ || !ioMayAsk s l) = true
    rw [Bool.or_eq_true, ioBefore_iff]
    simp [h, ha]

/-- What a closed BAR answers, by why it is closed. -/
theorem refuseAccess_undecoded {q : Bool} {n : Option Nat} (ho : hostServes s = true) (hc : s.host.mse = false ∨ s.host.d3hot = true) :
    refuseAccess q n s = answerUr s := by
  obtain ⟨hd, hp, ha⟩ := served_of_hostServes ho
  unfold refuseAccess
  dsimp only
  rw [if_neg (by simp [hd, ha]), if_pos (by simpa [hp] using hc)]

theorem refuseAccess_resetting (ho : bar0Open s = true) (hr : resetBusy s = true) :
    refuseAccess true none s = count 2555 (aerLog 20 s) ∧
      refuseAccess true (some 64) s = emit (.cpl (.data (List.replicate 64 0))) (count 2555 (aerLog 20 s)) := by
  obtain ⟨hh, hm, h3, hs⟩ := bar0Open_iff.1 ho
  obtain ⟨hd, hp, ha⟩ := served_of_hostServes hh
  unfold refuseAccess
  dsimp only
  rw [if_neg (by simp [hd, ha]), if_neg (by simp [hp, hm, h3]), if_neg (by simp [hs]), if_pos (by simp [hr]),
    if_neg (by simp [hd, ha]), if_neg (by simp [hp, hm, h3]), if_neg (by simp [hs]), if_pos (by simp [hr])]
  exact ⟨rfl, rfl⟩

theorem refuseAccess_safe (hh : hostServes s = true) (hs : s.faults.safe = true) (hm : s.host.mse = true) (h3 : s.host.d3hot = false) :
    refuseAccess true none s = s ∧ refuseAccess true (some 64) s = emit (.cpl (.data (List.replicate 64 0))) s := by
  obtain ⟨hd, hp, ha⟩ := served_of_hostServes hh
  unfold refuseAccess
  dsimp only
  rw [if_neg (by simp [hd, ha]), if_neg (by simp [hp, hm, h3]), if_pos hs, if_neg (by simp [hd, ha]),
    if_neg (by simp [hp, hm, h3]), if_pos hs]
  exact ⟨rfl, rfl⟩

end

section
variable {s : State}

theorem execUnsupportedRequest_ur {r : BadRequest} (ha : alive s = true) (hd : s.host.dlUp = true)
    (hr : r ∈ [BadRequest.outsideBars, .mseClear, .tooLong, .atomicOp, .pasidPrefix, .translated, .romWrite, .vdm0]) :
    execUnsupportedRequest r s = .next (answerUr s) := by
  unfold execUnsupportedRequest
  rw [if_neg (by simp [ha, hd])]
  cases r <;> first | rfl | simp at hr

theorem execExpansionRomRead_enabled {off : BitVec 24} {w : W32} (ho : hostServes s = true) (hr : s.host.romEnable = true)
    (hm : s.host.mse = true) (h3 : s.host.d3hot = false) : execExpansionRomRead off w s =
      .next (emit (.cpl (.data (if romHolds off.toNat && !s.faults.safe then leBytes 4 w.toNat else [0, 0, 0, 0]))) s) := by
  rw [execExpansionRomRead, if_neg (by simp [ho]), if_neg (by simp [hr, hm, h3])]

end

/-- Settles O39. -/
theorem hostAccessesAreServed : Obligations.HostAccessesAreServed := by
  refine ⟨fun hpa req s ho hf hs => ⟨fun a ha => ?_, execHostMemAccess_unmapped ho hf hs⟩,
    fun off s => ⟨fun b hb hw => ?_, execBar4Access_unbacked, fun ho hc w => ?_, fun ho hr w => ?_, fun ho hs hm h3 w => ?_⟩,
    fun s ha hd => ⟨fun r hr => execUnsupportedRequest_ur ha hd hr, ?_, ?_⟩,
    fun off w s ho => ⟨fun hr hm h3 => ⟨fun hlt hs => ?_, fun hge => ?_, ?_⟩, fun hr => ?_⟩⟩
  · have e := execHostMemAccess_mapped (req := req) ho hf hs ha
    refine ⟨fun hmay => ?_, fun hmay => e.trans (congrArg _ (if_neg (by simp [hmay])))⟩
    have e1 := e.trans (congrArg _ (if_pos hmay))
    refine ⟨?_, ?_, ?_, ?_, ?_, ?_⟩
    · rintro rfl
      exact e1
    · rintro rfl
      exact e1
    · rintro (rfl | rfl) <;> exact e1
    · rintro d m p rfl
      exact e1
    · rintro d p rfl
      exact e1
    · rintro rfl
      exact e1
  · obtain ⟨hr, hr'⟩ := ioRead_eq (BitVec.ofNat 32 ((b + off.toNat / 64 * 64) / 64)) s
    have hw2 := fun d m => ioWrite_eq (BitVec.ofNat 32 ((b + off.toNat / 64 * 64) / 64)) d m s
    exact ⟨fun h => ⟨(execBar4Access_read hb hw).trans (congrArg _ (hr h)),
        fun d m => (execBar4Access_write hb hw).trans (congrArg _ ((hw2 d m).1 h))⟩,
      fun h ha => ⟨(execBar4Access_read hb hw).trans (congrArg _ (hr' h ha)),
        fun d m => (execBar4Access_write hb hw).trans (congrArg _ ((hw2 d m).2 h ha))⟩⟩
  · have hb : barOpen s = false := by
      rcases hc with hc | hc <;> simp [barOpen, bar0Open, hc]
    exact (execBar4Access_closed hb).trans (congrArg _ (refuseAccess_undecoded ho hc))
  · have hb : barOpen s = false := by simp [barOpen, hr]
    obtain ⟨hnone, h64⟩ := refuseAccess_resetting ho hr
    exact ⟨(execBar4Access_closed hb).trans (congrArg _ hnone), (execBar4Access_closed hb).trans (congrArg _ h64)⟩
  · have hb : barOpen s = false := by simp [barOpen, bar0Open, hs]
    obtain ⟨hnone, h64⟩ := refuseAccess_safe ho hs hm h3
    exact ⟨(execBar4Access_closed hb).trans (congrArg _ hnone), (execBar4Access_closed hb).trans (congrArg _ h64)⟩
  · show execUnsupportedRequest .vdm1 s = _
    rw [execUnsupportedRequest, if_neg (by simp [ha, hd])]
  · show execUnsupportedRequest (.duringReset true) s = _
    rw [execUnsupportedRequest, if_neg (by simp [ha, hd])]
  · refine (execExpansionRomRead_enabled ho hr hm h3).trans ?_
    rw [if_pos (by simpa [romHolds, hs] using hlt)]
  · refine (execExpansionRomRead_enabled ho hr hm h3).trans ?_
    rw [if_neg (by simpa [romHolds] using fun h => absurd h (Nat.not_lt.2 hge))]
  · show execFlashReadTimeout s = _
    rw [execFlashReadTimeout, if_pos (by simp [ho, hr, hm, h3])]
  · show execExpansionRomRead off w s = _
    rw [execExpansionRomRead, if_neg (by simp [ho]), if_pos (by simp [hr])]
    rfl

end Sys2Proof.Machine
end

section
/-!
PROOFS of O40: requests at their home.
-/
namespace Sys2Proof.Machine

/-- The line is free, nobody waits at any home, and the line's home has room for a transaction. -/
def homeOpen (s : State) (line : LineAddr) : Prop :=
  s.coh.retried = [] ∧ busy s line = false ∧ (s.coh.txns.filter (fun t => homeOf s t.line = homeOf s line)).length < 128

/-- A request at a home that is open to it is accepted. -/
theorem homeRequest_open {r : Requester} {l : LineAddr} {acc : State → State} {s : State} (ho : homeOpen s l) :
    homeRequest r l acc s = acc s := by
  obtain ⟨hr, hb, hn⟩ := ho
  unfold homeRequest
  dsimp only
  rw [hr]
  dsimp only [List.find?_nil]
  rw [if_neg (by simp), if_neg]
  rw [hb, decide_eq_false (Nat.not_le.2 (by simpa using hn))]
  simp

theorem homeRequest_busy {r : Requester} {l : LineAddr} {acc : State → State} {s : State} (hr : s.coh.retried = []) (hb : busy s l = true) :
    homeRequest r l acc s = { s with coh := { s.coh with retried := [{ line := l, requester := r, isWb := false }] } } := by
  unfold homeRequest
  dsimp only
  rw [hr]
  dsimp only [List.find?_nil]
  rw [if_neg (by simp), if_pos (by simp [hb])]
  rfl

/-- A request that comes from no port goes to its home. -/
theorem cohRequest_unported {r : Requester} {ctx : Nat} {l : LineAddr} {req : CohReq} {txn : BitVec 12} {op : Byte} {s : State}
    (hp : (reqAgent r).bind portOf = none) (ha : homeAway s l = false) :
    cohRequest r ctx l req txn op s = homeRequest r l (accept r ctx l req txn) s := by
  unfold cohRequest
  dsimp only
  rw [hp]
  dsimp only
  rw [atHome, if_neg (by simp [ha])]

/-- A chiplet's request with its checks passed and a TXN not in use is accepted, its TXN outstanding. -/
theorem cohRequest_ported {i : Fin 9} {n ctx : Nat} {l : LineAddr} {req : CohReq} {txn : BitVec 12} {op : Byte} {s : State}
    (hp : portOf i.val = some n) (ha : homeAway s l = false) (ho : homeOpen s l) (hu : (portGet s n).st = .up)
    (ht : ∀ t ∈ (portGet s n).txns, t.txn ≠ txn) (hn : girthNack s n ctx l = none) :
    cohRequest (.slot i) ctx l req txn op s =
      accept (.slot i) ctx l req txn (portSet n { portGet s n with txns := (portGet s n).txns ++ [⟨txn, l, op⟩] } s) := by
  have hlt : n < 6 := by
    simp only [portOf, Bool.and_eq_true, decide_eq_true_eq, Option.ite_none_right_eq_some, Option.some.injEq] at hp
    omega
  have htalk : portTalks s (n + 1) = true := by
    have hport : portOf (n + 1) = some n := by simp [portOf]; omega
    simp [portTalks, hport, hu]
  unfold cohRequest
  rw [show (reqAgent (.slot i)).bind portOf = some n from hp]
  dsimp only
  rw [if_neg (by simp [htalk]), if_neg, if_neg, hn]
  · dsimp only
    exact (if_neg (ne_true_of_eq_false ha)).trans (homeRequest_open ho)
  · simpa using ht
  · simpa [ho.1] using fun t hm e => absurd e (ht t hm)

section
variable {s : State} {line : LineAddr} (ha : alive s = true) (haway : homeAway s line = false) (ho : homeOpen s line)
include ha haway ho

/-- Requests of a slot that is no chiplet and not the device cache. -/
theorem slotRequests_accepted {i : Fin 9} {ctx : Ctx} {txn : BitVec 12} (hp : portOf i.val = none) (h7 : i.val ≠ 7)
    (h8 : i.val = 8 → storeRoom s line = true) :
    execRdS i ctx line txn s = .next (accept (.slot i) ctx.val line .rdS txn s) ∧
      execRdX i ctx line txn s = .next (accept (.slot i) ctx.val line .rdX txn s) ∧
      execUpg i ctx line txn s = .next (accept (.slot i) ctx.val line .upg txn s) ∧
      execRdCur (.slot i) ctx line txn s = .next (accept (.slot i) ctx.val line .rdCur txn s) := by
  have hroom : (i.val ≠ 8 || storeRoom s line) = true := by
    by_cases h : i.val = 8
    · simp [h8 h]
    · simp [h]
  have e := fun req op => (cohRequest_unported (req := req) (ctx := ctx.val) (txn := txn) (op := op) (r := .slot i) hp haway).trans
    (homeRequest_open ho)
  refine ⟨?_, ?_, ?_, ?_⟩
  · unfold execRdS
    dsimp only
    rw [hroom, if_pos (by simp [ha, h7]), e]
  · unfold execRdX
    dsimp only
    rw [hroom, if_pos (by simp [ha, h7]), e]
  · unfold execUpg
    rw [Bool.and_assoc, hroom, if_pos (by simp [ha, h7]), e]
  · unfold execRdCur
    dsimp only
    rw [if_pos (by simp [ha, reqAgent, h7]), e]

/-- Requests of a chiplet. -/
theorem chipletRequests_accepted {i : Fin 9} {n : Nat} {ctx : Ctx} {txn : BitVec 12} (hp : portOf i.val = some n)
    (hu : (portGet s n).st = .up) (ht : ∀ t ∈ (portGet s n).txns, t.txn ≠ txn) (hn : girthNack s n ctx.val line = none) :
    let out := fun (op : Byte) => portSet n { portGet s n with txns := (portGet s n).txns ++ [⟨txn, line, op⟩] } s
    execRdS i ctx line txn s = .next (accept (.slot i) ctx.val line .rdS txn (out 1)) ∧
      execRdX i ctx line txn s = .next (accept (.slot i) ctx.val line .rdX txn (out 2)) ∧
      execUpg i ctx line txn s = .next (accept (.slot i) ctx.val line .upg txn (out 3)) := by
  have hi : i.val ≠ 7 ∧ i.val ≠ 8 := by
    simp only [portOf, Bool.and_eq_true, decide_eq_true_eq, Option.ite_none_right_eq_some] at hp
    omega
  have e := fun req op => cohRequest_ported (req := req) (op := op) hp haway ho hu ht hn
  refine ⟨?_, ?_, ?_⟩
  · unfold execRdS
    dsimp only
    rw [if_pos (by simp [ha, hi]), e]
  · unfold execRdX
    dsimp only
    rw [if_pos (by simp [ha, hi]), e]
  · unfold execUpg
    rw [if_pos (by simp [ha, hi]), e]

section
variable {r : Requester} {ctx : Ctx} {d : LineData} {m : W64} {p : Bool} {txn : BitVec 12} (hr : reqAgent r = none)
include hr

theorem execRdCur_unslotted (hio : r = .hostIo → line ∈ s.coh.ioReads) :
    execRdCur r ctx line txn s = .next (accept r ctx.val line .rdCur txn s) := by
  have hcond : (r ≠ .hostIo || s.coh.ioReads.contains line) = true := by
    by_cases h : r = .hostIo
    · simp [hio h]
    · simp [h]
  unfold execRdCur
  dsimp only
  rw [hcond, if_pos (by simp [ha, hr]), cohRequest_unported (by simp [hr]) haway, homeRequest_open ho]

theorem execWrInv_direct (hq : ∀ q ∈ s.coh.posted, q.requester = r → q.line ≠ line ∧ r ≠ .window) :
    execWrInv r ctx line d m p txn s = .next (accept r ctx.val line (.wrInv d m p) txn s) := by
  have hf : s.coh.posted.find? (fun p => p.requester = r && (p.line = line || r = .window)) = none := by
    simpa [List.find?_eq_none] using hq
  unfold execWrInv
  rw [if_neg (by simp [ha]), if_neg (by simp [hr]), hf]
  dsimp only
  rw [cohRequest_unported (by simp [hr]) haway, homeRequest_open ho]

/-- The waiting store goes in the place of what the command carries. -/
theorem execWrInv_waiting {q : Posted} (hf : s.coh.posted.find? (fun q => q.requester = r && (q.line = line || r = .window)) = some q)
    (hl : q.line = line) : execWrInv r ctx line d m p txn s = .next (accept r q.ctx line (.wrInv q.data q.mask q.poison) txn s) := by
  unfold execWrInv
  rw [if_neg (by simp [ha]), if_neg (by simp [hr]), hf]
  dsimp only
  rw [if_neg (by simp [hl]), cohRequest_unported (by simp [hr]) haway, homeRequest_open ho]

end

theorem execFlush_open : execFlush line s = .next (accept .hostIo 0 line .flush 0 s) := by
  rw [execFlush, if_pos ha, cohRequest_unported (by rfl) haway, homeRequest_open ho]

end

section
variable {s : State} {line : LineAddr}

theorem execFlush_busy (ha : alive s = true) (haway : homeAway s line = false) (hb : busy s line = true) (hr : s.coh.retried = []) :
    execFlush line s = .next { s with coh := { s.coh with retried := [{ line := line, requester := .hostIo, isWb := false }] } } := by
  rw [execFlush, if_pos ha, cohRequest_unported (by rfl) haway, homeRequest_busy hr hb]

theorem execRetry_first {r : Requester} {x : Retried} {rest : List Retried} (hr : s.coh.retried = x :: rest) (hx : x.requester = r)
    (hl : x.line = line) (ht : x.told = false) (hn : reqAgent r = none) :
    execRetry r line s = .next (count (1280 + 4 * homeOf s line + 1)
      { s with coh := { s.coh with retried := { x with told := true } :: rest } }) := by
  unfold execRetry
  rw [hr, List.find?_cons_of_pos (by simp [hx, hl, ht])]
  dsimp only
  rw [hn, modFirst, if_pos (by simp)]
  rfl

theorem execGoRetry_only {x : Retried} (hr : s.coh.retried = [x]) (hl : x.line = line) (ht : x.told = true) (hg : x.go = false)
    (hw : x.isWb = false) (hn : reqAgent x.requester = none) (hb : busy s line = false)
    (h128 : (s.coh.txns.filter (fun t => homeOf s t.line = homeOf s line)).length < 128) :
    execGoRetry line s = .next { s with coh := { s.coh with retried := [{ x with go := true }] } } := by
  unfold execGoRetry
  simp only [hr, List.find?_cons, List.find?_nil, List.filter_cons, List.filter_nil, hl, ht, hg, hw, hb, modFirst]
  simp [ht, hg, h128, hn]

theorem execCevict_present {k : Nat} {e : DirEntry} (ha : alive s = true) (haway : homeAway s line = false) (ho : homeOpen s line)
    (hd : dirFind s line = some (k, e)) (h0 : e.has 0 = true) :
    let s1 := count (1280 + 4 * homeOf s line) s
    execCevict 0 line s = .next (wakeWaiting (if (e.without 0).presence = 0 then untrack line (dirUpdate line (e.without 0) s1)
      else dirUpdate line (e.without 0) s1)) := by
  intro s1
  have hd1 : dirFind s1 line = some (k, e) := by
    obtain ⟨o, ho⟩ := countN_eq (1280 + 4 * homeOf s line) 1 s
    show dirFind (countN _ 1 s) line = _
    rw [ho]
    exact hd
  have hev : evictArrives 0 line s = cevictHome 0 line s1 := by
    unfold evictArrives
    rw [if_neg (by simp [ha, haway, portTalks, portOf])]
    exact homeRequest_open ho
  rw [execCevict, hev, cevictHome, hd1]
  dsimp only
  rw [if_neg (by simp [h0])]

theorem execBiconflict_crossing {tag : W16} {t : Txn} (ha : alive s = true) (ht : busyTxn s line = some t)
    (hx : ∃ x ∈ t.awaiting, x.slot = 0 ∧ x.sent = true) :
    execBiconflict line tag s = .next (emit (.biConflictAck line tag) s) := by
  unfold execBiconflict
  rw [ht]
  dsimp only
  rw [if_pos (by simpa [ha] using .inl hx)]

/-- The chiplets are told of the mode: nothing of the directory and the homes changes. -/
theorem tellMode_eq (was : Bool) (s : State) : ∃ g b o, tellMode was s = { s with girth := g, obs := b, out := o } := by
  unfold tellMode
  split
  · exact ⟨s.girth, s.obs, s.out, rfl⟩
  · refine foldS_keeps (P := fun t => ∃ g b o, t = { s with girth := g, obs := b, out := o }) _ ?_ _ _ ⟨s.girth, s.obs, s.out, rfl⟩
    rintro n _ ⟨g, b, o, rfl⟩
    split
    · obtain ⟨g1, b1, o1, e⟩ := girthSend_eq n (.mode (forcedMode { s with girth := g, obs := b, out := o })) { s with girth := g, obs := b, out := o }
      exact ⟨g1, b1, _, e⟩
    · exact ⟨g, b, o, rfl⟩

theorem execForcedSwWrite_alive {v : Bool} (ha : alive s = true) (hs : s.faults.safe = false) :
    execForcedSwWrite v s = .next (tellMode (forcedMode s) { s with coh := { s.coh with forcedSw := v } }) := by
  rw [execForcedSwWrite, if_pos (by simp [writable, ha, hs]), setForcedSw]

end

/-- Settles O40. -/
theorem requestsReachTheirHome : Obligations.RequestsReachTheirHome := by
  intro s line ha haway open_
  refine ⟨fun i ctx txn ho => ⟨slotRequests_accepted ha haway ho, fun n hp hu ht hn => chipletRequests_accepted ha haway ho hp hu ht hn⟩,
    fun r ctx d m p txn ho hr => ⟨execRdCur_unslotted ha haway ho hr, execWrInv_direct ha haway ho hr, fun q => execWrInv_waiting ha haway ho hr⟩,
    execFlush_open ha haway, execFlush_busy ha haway, fun r x rest => execRetry_first, fun x => execGoRetry_only,
    fun k e hr hb hn => execCevict_present ha haway ⟨hr, hb, hn⟩, fun tag t => execBiconflict_crossing ha, fun v hs => ⟨fun hw => ?_, ?_⟩⟩
  · refine (execForcedSwWrite_alive ha hs).trans (congrArg _ (if_pos ?_))
    simp [forcedMode, hw]
  · obtain ⟨g, b, o, e⟩ := tellMode_eq (forcedMode s) { s with coh := { s.coh with forcedSw := v } }
    exact ⟨_, (execForcedSwWrite_alive ha hs).trans (congrArg _ e), rfl, rfl⟩

end Sys2Proof.Machine
end

section
/-!
PROOFS of O41: snoops, their answers, and silence.
-/
namespace Sys2Proof.Machine

section
variable {s : State} {line : LineAddr} {t : Txn}

theorem busyTxn_line (ht : busyTxn s line = some t) : t.line = line := by
  simpa using List.find?_some ht

theorem modFirst_head {α : Type} {p : α → Bool} {f : α → α} {x : α} {rest : List α} (h : p x = true) :
    modFirst p f (x :: rest) = f x :: rest := by
  rw [modFirst, if_pos h]

/-- The transaction of a busy line stays the line's transaction when it is stored again. -/
theorem busyTxn_setTxn {u : Txn} (ht : busyTxn s line = some t) (hu : u.line = line) : busyTxn (setTxn u s) line = some u := by
  have key : ∀ l : List Txn, l.find? (fun v => v.line = line) = some t →
      (modFirst (fun v => v.line = u.line) (fun _ => u) l).find? (fun v => v.line = line) = some u := by
    intro l
    induction l with
    | nil => simp
    | cons v vs ih =>
      intro hf
      by_cases hv : v.line = line
      · simp [modFirst, hv, hu]
      · rw [List.find?_cons_of_neg (by simpa using hv)] at hf
        simpa [modFirst, hv, hu] using ih hf
  exact key _ ht

/-! ### Snoops -/

/-- The state in which the first snoop of a transaction is marked sent. -/
def snoopSent (t : Txn) (x : Snoop) (rest : List Snoop) (s : State) : State :=
  setTxn { t with awaiting := { x with sent := true, deadline := after s.coh.homeTimeout.toNat s } :: rest } s

theorem sendSnoop_first {op : SnpOp} {x : Snoop} {rest : List Snoop} {a : Nat} (hh : s.coh.holds = []) (ht : busyTxn s line = some t)
    (hw : t.awaiting = x :: rest) (hslot : x.slot = a) (ho : x.op = op) (hs : x.sent = false) :
    (a = 0 → s.host.dlUp = true → sendSnoop op a line s = emit (.bisnp op.bi line) (snoopSent t x rest s)) ∧
      (a = 7 → sendSnoop op a line s = respond line 7 (dcSnoop true line.toNat op (snoopSent t x rest s)).1
        (dcSnoop true line.toNat op (snoopSent t x rest s)).2) ∧
      (a = 8 → sendSnoop op a line s = respond line 8 (storeSnoop line op (snoopSent t x rest s)).1
        (storeSnoop line op (snoopSent t x rest s)).2) := by
  have hit : (decide (x.slot = a) && decide (x.op = op) && !x.sent) = true := by simp [hslot, ho, hs]
  have hheld : snoopHeld s line a op = false := by simp [snoopHeld, hh]
  have hfilter : (busyTxn s line).filter (fun t => t.awaiting.any
      (fun x => decide (x.slot = a) && decide (x.op = op) && !x.sent)) = some t := by
    rw [ht, Option.filter_some, if_pos (by rw [hw, List.any_cons, hit, Bool.true_or])]
  unfold sendSnoop
  dsimp only
  rw [hfilter]
  dsimp only
  rw [hw, modFirst_head (x := x) (rest := rest) hit, hheld, if_neg (by decide)]
  refine ⟨?_, ?_, ?_⟩
  · rintro rfl hd
    rw [if_pos rfl, if_pos hd]
    rfl
  · rintro rfl
    rw [if_neg (by decide), if_pos rfl]
    rfl
  · rintro rfl
    rw [if_neg (by decide), if_neg (by decide), if_pos rfl]
    rfl

/-- A line that has a transaction is not the sweep's to snoop. -/
theorem sweepSnoop_busy (hb : busy s line = true) : sweepSnoop line s = s := by
  unfold sweepSnoop
  split
  · rfl
  · rw [if_pos (by simp [hb])]

theorem busy_snoopSent {x : Snoop} {rest : List Snoop} {m : Output} (ht : busyTxn s line = some t) :
    busy (emit m (snoopSent t x rest s)) line = true := by
  show (busyTxn (snoopSent t x rest s) line).isSome = true
  have hl : ({ t with awaiting := { x with sent := true, deadline := after s.coh.homeTimeout.toNat s } :: rest } : Txn).line = line :=
    (show t.line = line from busyTxn_line ht)
  have hb := busyTxn_setTxn
    (u := { t with awaiting := { x with sent := true, deadline := after s.coh.homeTimeout.toNat s } :: rest }) ht hl
  exact (congrArg Option.isSome hb).trans rfl

theorem setWidth_line (l : LineAddr) : (l.setWidth 46).setWidth 32 = l := by
  simp

end

/-- The commands of a home's snoops. -/
def SnpOp.commands : List (SnpOp × (Fin 9 → LineAddr → Instr)) :=
  [(.s, fun a l => .snpS (.agent a) (l.setWidth 46)), (.inv, fun a l => .snpInv (.agent a) (l.setWidth 46)),
    (.cur, fun a l => .snpCur (.agent a) (l.setWidth 46)), (.clean, Instr.snpClean)]

/-- A snoop command sends its snoop; only an invalidation to slot 0 asks for the next line of a sweep too. -/
theorem exec_snoop {op : SnpOp} {c : Fin 9 → LineAddr → Instr} {a : Fin 9} {line : LineAddr} {s : State} (ha : alive s = true)
    (hc : (op, c) ∈ SnpOp.commands) :
    exec (c a line) s = .next (sendSnoop op a.val line s) ∨
      (a = 0 ∧ exec (c a line) s = .next (sweepSnoop line (sendSnoop op a.val line s))) := by
  simp only [SnpOp.commands, List.mem_cons, Prod.mk.injEq, List.not_mem_nil, or_false] at hc
  rcases hc with ⟨rfl, rfl⟩ | ⟨rfl, rfl⟩ | ⟨rfl, rfl⟩ | ⟨rfl, rfl⟩
  · left
    show execSnpS (.agent a) (line.setWidth 46) s = _
    rw [execSnpS, if_pos ha, snoop, setWidth_line]
  · by_cases h0 : a = 0
    · right
      subst h0
      refine ⟨rfl, ?_⟩
      show execSnpInv (.agent 0) (line.setWidth 46) s = _
      unfold execSnpInv
      rw [if_neg (by simp [ha])]
      dsimp only [snoop]
      rw [setWidth_line]
      rfl
    · left
      show execSnpInv (.agent a) (line.setWidth 46) s = _
      unfold execSnpInv
      rw [if_neg (by simp [ha])]
      split
      · exact absurd (by simp_all) h0
      · rw [snoop, setWidth_line]
  · left
    show execSnpCur (.agent a) (line.setWidth 46) s = _
    rw [execSnpCur, if_pos ha, snoop, setWidth_line]
  · left
    show execSnpClean a line s = _
    rw [execSnpClean, if_pos ha]

/-! ### Answers -/

section
variable {s : State} {line : LineAddr} {t : Txn} {a : Nat} {x : Snoop} {rest : List Snoop}

/-- An answer to the snoop that is out is taken by the transaction. -/
theorem respond_first {r : SnpRsp} (ht : busyTxn s line = some t) (hw : t.awaiting = x :: rest) (hx : x.slot = a) (hs : x.sent = true) :
    respond line a r s =
      let isBuf := fun (b : EvictBuf) => decide (b.line = line) && decide (b.slot = a)
      settle (Txn.answer { t with awaiting := rest } a r (s.coh.evict.find? isBuf))
        (if r = .iWb then { s with coh := { s.coh with evict := modFirst isBuf (fun b => { b with pend := false }) s.coh.evict } } else s) := by
  have hit : (decide (x.slot = a) && x.sent) = true := by simp [hx, hs]
  unfold respond
  dsimp only
  rw [ht]
  dsimp only
  rw [hw, if_pos (by rw [List.any_cons, hit, Bool.true_or]), dropFirst, if_pos hit]

theorem agentAnswers_inTime {r : SnpRsp} (ha : alive s = true) (hp : portTalks s a = true) (hl : lateSnoop s line a = false) :
    agentAnswers a line r s = respond line a r s := by
  rw [agentAnswers, if_pos (by simp [ha, hp]), if_neg (by simp [hl])]

theorem lateSnoop_of_deadline (ht : busyTxn s line = some t) (hw : t.awaiting = x :: rest) (hx : x.slot = a) (hs : x.sent = true)
    (hd : x.deadline ≤ s.ticks) : lateSnoop s line a = true := by
  have hlate : (decide (x.slot = a) && x.sent && due x.deadline s) = true := by simp [hx, hs, due, hd]
  unfold lateSnoop
  dsimp only
  rw [ht]
  dsimp only
  rw [hw, List.any_cons, hlate, Bool.true_or, Bool.true_or]

theorem evict_unchanged (he : s.coh.evict = []) : { s with coh := { s.coh with evict := [] } } = s := by
  rw [← he]

/-- The answers that are taken, one by one. -/
theorem answers_taken {a : Fin 9} (ha : alive s = true) (ht : busyTxn s line = some t) (hw : t.awaiting = x :: rest) (hx : x.slot = a.val)
    (hs : x.sent = true) (hp : portTalks s a.val = true) (hl : lateSnoop s line a.val = false) :
    let t1 := { t with awaiting := rest }
    execRspI a line s = .next (settle (t1.lose a.val) s) ∧
      (∀ d p, execRspS a line (some d) p s = .next (settle { t1 with data := some (d, true, p) } s) ∧
        execRspS a line none p s = .next (settle t1 s)) ∧
      (∀ d dirty p, execRspFwd a line d dirty p s = .next (settle { t1 with data := some (d, dirty, p), fwdBy := some a.val } s)) ∧
      (s.coh.evict = [] → execRspIWb a line s = .next (settle { t1.lose a.val with awaitWb := t.awaitWb ++ [a.val] } s)) := by
  have e := fun r => (agentAnswers_inTime (r := r) ha hp hl).trans (respond_first ht hw hx hs)
  refine ⟨?_, fun d p => ⟨?_, ?_⟩, fun d dirty p => ?_, fun he => ?_⟩
  · exact congrArg _ (e _)
  · exact congrArg _ (e _)
  · exact congrArg _ (e _)
  · exact congrArg _ (e _)
  · refine congrArg _ ((e _).trans ?_)
    dsimp only
    rw [he, if_pos rfl, List.find?_nil]
    exact congrArg _ (evict_unchanged he)

end

/-! ### Forwarded data -/

section
variable {s : State} {t : Txn} {port : Port} {route rtxn : W16} {d : LineData} {p : Bool} (ha : alive s = true)
  (hp : portTalks s (port.val + 1) = true)
include ha hp

theorem execFwdData_known (h1 : s.coh.txns = [t]) (hr : reqOfNum route.toNat = some t.requester) (hx : t.txn.setWidth 16 = rtxn)
    (hw : t.phase ≠ .waiting) : execFwdData port route rtxn d p s = .next (
      match (reqAgent t.requester).bind portOf with
      | some n => girthSend n (.data t.txn false d p) s
      | none => if t.phase = .granted then s else setTxn { t with fwd := some (d, p) } s) := by
  unfold execFwdData
  rw [if_neg (by simp [ha, hp]), h1]
  dsimp only
  rw [List.find?_cons_of_pos (by simp [hr, hx, hw])] <;> rfl

theorem execFwdData_unknown (hu : ∀ u ∈ s.coh.txns, reqOfNum route.toNat ≠ some u.requester) :
    execFwdData port route rtxn d p s = .next (count (2496 + 8 * port.val + 4) s) := by
  have hf : s.coh.txns.find? (fun t => reqOfNum route.toNat = some t.requester && t.txn.setWidth 16 = rtxn && t.phase ≠ .waiting) = none := by
    rw [List.find?_eq_none]
    intro u hm
    simp [hu u hm]
  unfold execFwdData
  rw [if_neg (by simp [ha, hp])]
  dsimp only
  rw [hf]

end

/-! ### The host's snoops of the device cache -/

/-- Two states whose device caches hold the same lines in the same ways, whatever the data. -/
def dcTagsKept (s t : State) : Prop :=
  ∀ k, (dcAt t k).st = (dcAt s k).st ∧ (dcAt t k).space = (dcAt s k).space ∧ (dcAt t k).line = (dcAt s k).line

theorem dcFind_at {s : State} {space : Bool} {ln k : Nat} {x : DcLine} (h : dcFind s space ln = some (k, x)) : dcAt s k = x := by
  have hm := List.mem_of_find?_eq_some h
  obtain ⟨w, -, hw⟩ := List.mem_map.1 hm
  simp only [Prod.mk.injEq] at hw
  obtain ⟨rfl, rfl⟩ := hw
  rfl

theorem dcFind_of_tags {s t : State} {space : Bool} {ln k : Nat} {x : DcLine} (hk : dcTagsKept s t)
    (h : dcFind s space ln = some (k, x)) : dcFind t space ln = some (k, dcAt t k) := by
  unfold dcFind at h ⊢
  rw [List.find?_map, Option.map_eq_some_iff] at h ⊢
  obtain ⟨w, hw, he⟩ := h
  refine ⟨w, ?_, by simp only [Prod.mk.injEq] at he ⊢; exact ⟨he.1, by rw [he.1]⟩⟩
  rw [← hw]
  congr 1
  funext v
  obtain ⟨h1, h2, h3⟩ := hk (dcKey (dcSlice ln) (dcSet ln) 0 + v)
  simp only [Function.comp_apply, h1, h2, h3]

theorem dcUpdate_tags {space : Bool} {ln : Nat} {d : LineData} {mask : W64} {s t : State} (hk : dcTagsKept s t) :
    dcTagsKept s (dcUpdate space ln d mask t) := by
  unfold dcUpdate
  split
  case h_1 k x hf =>
    intro j
    by_cases hj : j = k
    · subst hj
      rw [dcAt_dcPut_self, ← dcFind_at hf]
      exact hk j
    · rw [dcAt_dcPut_other _ _ hj]
      exact hk j
  case h_2 => exact hk

theorem drainMerge_tags {m : Merge} {s t : State} (hk : dcTagsKept s t) : dcTagsKept s (drainMerge m t) := by
  have hc : ∀ n (u : State), dcTagsKept s u → dcTagsKept s (count n u) := by
    intro n u hu
    obtain ⟨o, e⟩ := countN_eq n 1 u
    rw [count, e]
    exact hu
  have h2 := hc (1538 + 4 * m.slice) { t with coh := { t.coh with merges := dropFirst (· = m) t.coh.merges } } hk
  unfold drainMerge
  dsimp only
  split
  · exact h2
  · exact dcUpdate_tags h2

theorem drainWhere_tags (p : Merge → Bool) (s : State) : dcTagsKept s (drainWhere p s) :=
  foldS_keeps (P := dcTagsKept s) _ (fun _ _ => drainMerge_tags) _ _ fun _ => ⟨rfl, rfl, rfl⟩

/-- An invalidating snoop takes the copy. -/
theorem dcSnoop_inv_takes {space : Bool} {ln k : Nat} {x : DcLine} {s : State} (h : dcFind s space ln = some (k, x)) :
    dcAt (dcSnoop space ln .inv s).2 k = dcEmpty := by
  unfold dcSnoop
  dsimp only
  rw [dcFind_of_tags (drainWhere_tags _ s) h]
  exact dcAt_dcPut_self _ _ _

/-- Settles O41. -/
theorem snoopsAndAnswers : Obligations.SnoopsAndAnswers := by
  intro s line t ha ht
  refine ⟨fun op c hc hh => ⟨fun x rest hw hx ho hs hd => ?_, fun x rest hw ho hs => ⟨fun hx => ?_, fun hx => ?_⟩⟩,
    fun a x rest hw hx hs hp => ⟨fun hl => answers_taken ha ht hw hx hs hp hl, fun hd => ?_⟩,
    fun port route rtxn d p hp => ⟨fun h1 hr hx hph => ⟨fun n hn => ?_, fun hn hg => ?_⟩, fun hu => execFwdData_unknown ha hp hu⟩,
    fun l hl => ?_⟩
  · have e := (sendSnoop_first hh ht hw hx ho hs).1 rfl hd
    rcases exec_snoop (a := 0) (line := line) ha hc with h | ⟨-, h⟩
    · exact h.trans (congrArg _ e)
    · refine h.trans (congrArg _ ((congrArg _ e).trans ?_))
      exact sweepSnoop_busy (busy_snoopSent ht)
  · rcases exec_snoop (a := 7) (line := line) ha hc with h | ⟨h0, -⟩
    · exact h.trans (congrArg _ ((sendSnoop_first hh ht hw hx ho hs).2.1 rfl))
    · exact absurd h0 (by decide)
  · rcases exec_snoop (a := 8) (line := line) ha hc with h | ⟨h0, -⟩
    · exact h.trans (congrArg _ ((sendSnoop_first hh ht hw hx ho hs).2.2 rfl))
    · exact absurd h0 (by decide)
  · show execHomeTimeout a line s = _
    rw [execHomeTimeout, if_pos (by simp [ha, lateSnoop_of_deadline ht hw hx hs hd])]
  · refine (execFwdData_known ha hp h1 hr hx hph).trans (congrArg _ ?_)
    rw [hn]
  · refine (execFwdData_known ha hp h1 hr hx hph).trans (congrArg _ ?_)
    rw [hn]
    exact if_neg hg
  · refine ⟨emit (.cacheSnpRsp l (dcFind s false l.toNat).isSome false) (dcSnoop false l.toNat .inv s).2, ?_, ?_, fun k x hf => ?_⟩
    · show execSnpInv .hostLine l s = _
      unfold execSnpInv
      rw [if_neg (by simp [ha])]
      dsimp only [snoop]
      rw [hostSnoop, if_neg (by simp [hl])]
      simp
    · exact List.mem_append_right _ (List.mem_singleton.2 rfl)
    · exact dcSnoop_inv_takes hf

end Sys2Proof.Machine
end

section
/-!
PROOFS of O43 (refuted): the end of a quarter move.
-/
namespace Sys2Proof.Machine

/-- A move of quarter 0 that only slot 1 has not answered, to a destination beyond the four quarters; quarter n is served by n. -/
def moveBeyond : State :=
  { power := { phase := .served, step := 7 }
    girth := { ports := [(0, { st := .up })] }
    coh := { serve := 0xE4, qmoves := [⟨0, 4, [7, 8]⟩] } }

/-- The quarter that serves quarter 1 after an outcome. -/
def servesQuarterOne : Host.Outcome State Fault Refusal → Nat
  | .next t => fld t.coh.serve 2 2
  | _ => 0

/-- The destination 4 carries into the field of quarter 1. -/
theorem servesQuarterOne_moveBeyond : servesQuarterOne (execHomeMoveDone 1 0 moveBeyond) = 2 := by
  decide +kernel

/-- Refutes O43: the move's destination is added to the serving map unreduced, so that a destination of 4 changes the field of the
next quarter, which the statement says stays as it was. -/
theorem not_movesAndDeviceCache : ¬ Obligations.MovesAndDeviceCache := by
  intro h
  obtain ⟨hmove, -⟩ := h moveBeyond rfl
  obtain ⟨-, hlast⟩ := hmove 1 0 ⟨0, 4, [7, 8]⟩ rfl rfl (by decide +kernel) (by decide) (by decide) (by decide)
  obtain ⟨t, he, -, -, hserve⟩ := hlast (by decide +kernel) rfl
  have h1 : fld t.coh.serve 2 2 = 1 := (hserve 1 (by decide)).trans (by decide +kernel)
  have h2 : fld t.coh.serve 2 2 = 2 := (congrArg servesQuarterOne he).symm.trans servesQuarterOne_moveBeyond
  omega

end Sys2Proof.Machine
end

section
/-!
PROOFS of O44: walks, ATS answers, page requests and invalidations.
-/
namespace Sys2Proof.Machine

/-! ### Walks -/

section
variable {s : State} {e : Engine} {k : Fin 32} {x : Xfer} {page : Nat} (hx : xferGet s e.val = some x) (hn : x.nextPage = some page)
  (hc : canRequest s = true) (hw : mayWalk s e.val = true)
include hx hn hc hw

theorem execWalk_ats (hm : xlMode s = 1) :
    execWalk e k s = .next (emit (.atsRequest e.val (pasidOf s x.ctx) page x.isWrite)
      (xferSet e.val (some { x with atsPage := some (page, false) }) s)) := by
  unfold execWalk
  dsimp only
  rw [hx]
  dsimp only
  rw [hn]
  dsimp only
  rw [if_neg (by simp [hc, hw, hm]), if_pos hm]

theorem execWalk_walk (hm : xlMode s = 2) :
    execWalk e k s = .next (
      if walkerBusy k.val s then s
      else
        let root := tget (fun _ => ((0 : BitVec 52), false)) s.xl.roots x.ctx
        if !root.2 then failXfer e.val 3 s
        else
          let w := walkDown s (pasidOf s x.ctx) (page * 4096) x.isWrite (s.xl.levels.toNat - 1) (root.1.toNat * 4096) s.xl.walkCache
          walkResult e.val k.val page false w.1 { s with xl := { s.xl with walkCache := w.2 } }) := by
  unfold execWalk
  dsimp only
  rw [hx]
  dsimp only
  rw [hn]
  dsimp only
  rw [if_neg (by simp [hc, hw, hm]), if_neg (by simp [hm])]
  rfl

end

/-- What a walk's end does for an engine whose result no invalidation discarded. -/
theorem walkResult_kept {e k page : Nat} {x : Xfer} {s : State} (hx : xferGet s e = some x) :
    (∀ l a, walkResult e k page false (.read l a) s = issueWalkRead e (xferSet e
      (some { x with walk := some { walker := k, page := page, level := l, at_ := a, discarded := false, toIssue := true } }) s)) ∧
      (∀ t, walkResult e k page false (.leaf t) s = resolvePage e t (xferSet e (some { x with walk := none }) s)) ∧
      (∀ c, walkResult e k page false (.fault c) s = failXfer e c (xferSet e (some { x with walk := none }) s)) ∧
      (∀ v, walkResult e k page false (.request v) s = needPage e page v (xferSet e (some { x with walk := none }) s)) := by
  unfold walkResult
  rw [hx]
  exact ⟨fun _ _ => rfl, fun _ => rfl, fun _ => rfl, fun _ => rfl⟩

/-! ### The entry of level 0 -/

theorem walkDown_zero {s : State} {pasid : BitVec 20} {va tbl : Nat} {write : Bool} {cache : List WalkEntry} :
    walkDown s pasid va write 0 tbl cache =
      (.read 0 (tbl + 8 * (va / 2 ^ (levelAt s 0).idxLo.toNat % 2 ^ (levelAt s 0).idxWidth.toNat)), cache) := by
  unfold walkDown
  rfl

theorem walkOn_zero {s : State} {pasid : BitVec 20} {va : Nat} {write : Bool} {pte : W64} {cache : List WalkEntry} :
    walkOn s pasid va write 0 pte cache = (judgeEntry s va write 0 pte, cache) := by
  unfold walkOn
  rfl

/-- A flag that is not in the format reads as 1. -/
theorem flagOf_false_iff {f : Byte} {pte : W64} : flagOf f pte = some false ↔ (flagOf f pte).getD true = false := by
  cases flagOf f pte <;> simp

section
variable {s : State} {va : Nat} {write : Bool} {pte : W64}

/-- Reserved bits that have to be zero are set in a leaf of level 0. -/
def leafReserved (s : State) (pte : W64) : Prop := s.xl.flags.getLsbD 3 = true ∧ pte &&& (levelAt s 0).rsvLeaf ≠ 0

/-- The checks of an entry of level 0, in their order (R268). -/
theorem judgeEntry_zero : judgeEntry s va write 0 pte =
    if s.xl.flags.getLsbD 3 && pte &&& (levelAt s 0).rsvLeaf ≠ 0 then .fault 1
    else if !(flagOf s.xl.pBit pte).getD true then .request write
    else if flagOf s.xl.uBit pte = some false then .fault 2
    else if write && flagOf s.xl.wBit pte = some false then .request true
    else if !(!s.xl.flags.getLsbD 2 || (flagOf s.xl.aBit pte ≠ some false && !(write && flagOf s.xl.dBit pte = some false))) then
      .request write
    else .leaf { va := va / 2 ^ (levelAt s 0).idxLo.toNat * 2 ^ (levelAt s 0).idxLo.toNat
                 hpa := BitVec.ofNat 52 (pteBase s pte (levelAt s 0).idxLo.toNat)
                 size := if (levelAt s 0).idxLo.toNat = 12 then 0 else if (levelAt s 0).idxLo.toNat = 21 then 1 else 2
                 w := (flagOf s.xl.wBit pte).getD true, stale := false } := by
  simp [judgeEntry, xlRsv, xlPerm]

theorem judgeEntry_zero_reserved (hr : leafReserved s pte) : judgeEntry s va write 0 pte = .fault 1 := by
  rw [judgeEntry_zero, if_pos (by simpa [leafReserved] using hr)]

variable (hr : ¬ leafReserved s pte)
include hr

theorem judgeEntry_zero_absent (hp : (flagOf s.xl.pBit pte).getD true = false) : judgeEntry s va write 0 pte = .request write := by
  rw [judgeEntry_zero, if_neg (by simpa [leafReserved] using hr), if_pos (by simp [hp])]

variable (hp : (flagOf s.xl.pBit pte).getD true = true)
include hp

theorem judgeEntry_zero_privileged (hu : (flagOf s.xl.uBit pte).getD true = false) : judgeEntry s va write 0 pte = .fault 2 := by
  rw [judgeEntry_zero, if_neg (by simpa [leafReserved] using hr), if_neg (by simp [hp]), if_pos (flagOf_false_iff.2 hu)]

variable (hu : (flagOf s.xl.uBit pte).getD true = true)
include hu

theorem judgeEntry_zero_readOnly (hw : write = true) (hb : (flagOf s.xl.wBit pte).getD true = false) :
    judgeEntry s va write 0 pte = .request true := by
  rw [judgeEntry_zero, if_neg (by simpa [leafReserved] using hr), if_neg (by simp [hp]), if_neg (by simp [flagOf_false_iff, hu]),
    if_pos (by simp [hw, flagOf_false_iff, hb])]

theorem judgeEntry_zero_leaf (hw : write = true → (flagOf s.xl.wBit pte).getD true = true) (hf : s.xl.flags.getLsbD 2 = false)
    (hlo : (levelAt s 0).idxLo = 12) :
    judgeEntry s va write 0 pte = .leaf { va := va / 4096 * 4096, hpa := BitVec.ofNat 52 (pteBase s pte 12), size := 0
                                          w := (flagOf s.xl.wBit pte).getD true, stale := false } := by
  rw [judgeEntry_zero, if_neg (by simpa [leafReserved] using hr), if_neg (by simp [hp]), if_neg (by simp [flagOf_false_iff, hu]),
    if_neg (by simpa [flagOf_false_iff] using hw), hf, if_neg (by simp), hlo]
  rfl

end

/-! ### ATS completions and page request responses -/

section
variable {s : State} {e : Engine} {hpa : BitVec 52} {size : BitVec 2} {r w : Bool} {x : Xfer} {page : Nat} (ha : alive s = true)
  (hs : size ≠ 3) (hx : xferGet s e.val = some x)
include ha hs hx

theorem execAtsTranslationCompletion_of {gone : Bool} (hp : x.atsPage = some (page, gone)) :
    execAtsTranslationCompletion e hpa size r w s = .next (
      let s1 := xferSet e.val (some { x with atsPage := none }) s
      let t : XEntry := { va := 0, hpa := 0, size := size, w := w, stale := false }
      if gone then s1
      else if !(if x.op = 2 then w else r) then needPage e.val page (x.op = 2) s1
      else resolvePage e.val { t with va := page * 4096 / t.bytes * t.bytes, hpa := BitVec.ofNat 52 (hpa.toNat / t.bytes * t.bytes) } s1) := by
  unfold execAtsTranslationCompletion
  dsimp only
  rw [hx]
  dsimp only
  rw [hp]
  dsimp only [Xfer.isWrite]
  rw [if_neg (by simp [ha, show size ≠ 3#2 from hs])]
  simp only [decide_eq_true_eq]

end

theorem XEntry.bytes_mk {va : Nat} {hpa : BitVec 52} {size : BitVec 2} {w stale : Bool} (hs : size ≠ 3) :
    XEntry.bytes ⟨va, hpa, size, w, stale⟩ = if size = 0 then 4096 else if size = 1 then 2097152 else 1073741824 := by
  obtain rfl | rfl | rfl | rfl : size = 0 ∨ size = 1 ∨ size = 2 ∨ size = 3 := by revert size; decide
  · rfl
  · rfl
  · rfl
  · exact absurd rfl hs

section
variable {s : State} {i : Fin 512} {p : Prg} (ha : alive s = true) (hp : s.xl.prgs.find? (fun p => p.index = i.val) = some p)
include ha hp

theorem execPrgResponse_inTime {code : Fin 3} (hq : ∀ q ∈ s.xl.prgQuar, q.1 ≠ i.val) (hd : s.ticks < p.deadline) :
    execPrgResponse i code s = .next (foldS p.engines (fun e s =>
      if code = 0 then
        match xferGet s e with
        | some x => xferSet e (some { x with waitPrg := none }) s
        | none => s
      else failXfer e 5 s)
      { s with xl := { s.xl with prgs := s.xl.prgs.filter (fun q => q.index ≠ i.val), priStopped := s.xl.priStopped || code = 2 } }) := by
  unfold execPrgResponse
  dsimp only
  rw [if_neg (by simp [ha]), if_neg (by simpa using fun x hx => hq _ hx rfl), hp]
  dsimp only
  rw [if_neg (by simp [due, hd])] <;> rfl

theorem execPriTimeout_due (hd : p.deadline ≤ s.ticks) :
    execPriTimeout i s = .next (foldS p.engines (fun e => failXfer e 5)
      { s with xl := { s.xl with prgs := s.xl.prgs.filter (fun q => q.index ≠ i.val)
                                 prgQuar := s.xl.prgQuar ++ [(i.val, after (4 * s.xl.priTimeout.toNat) s)] } }) := by
  have hi : p.index = i.val := by simpa using List.find?_some hp
  unfold execPriTimeout
  rw [hp]
  dsimp only
  rw [if_neg (by simp [ha, due, hd]), prgTimesOut, hi] <;> rfl

end

/-! ### Invalidations -/

/-- Marking what an invalidation makes stale changes the engines' transfers only; without a transfer there is none to mark. -/
theorem markStale_eq (p : Xfer → XEntry → Bool) (ats : Xfer → Nat → Bool) (s : State) :
    ∃ es v, markStale p ats s = (es, { s with xl := { s.xl with engines := v } }) ∧ (s.xl.engines = [] → es = []) := by
  by_cases h : s.xl.engines = []
  · have hm : markStale p ats s = ([], s) := by
      rw [markStale, engineIds, h]
      rfl
    exact ⟨[], s.xl.engines, hm, fun _ => rfl⟩
  · have key : ∃ es v, markStale p ats s = (es, { s with xl := { s.xl with engines := v } }) := by
      unfold markStale
      refine List.foldlRecOn (motive := fun acc => ∃ es v, acc = (es, { s with xl := { s.xl with engines := v } })) _ _
        ⟨[], s.xl.engines, rfl⟩ ?_
      rintro _ ⟨es, v, rfl⟩ e -
      split
      · exact ⟨es, v, rfl⟩
      · exact ⟨_, _, rfl⟩
    obtain ⟨es, v, e⟩ := key
    exact ⟨es, v, e, fun h0 => absurd h0 h⟩

section
variable {s : State} {itag : Fin 32} {pasid : BitVec 20} {va : W64} {n : Nat} {g : Bool} (ha : alive s = true)
  (hd : s.host.dlUp = true)
include ha hd

theorem execAtsInvalidate_held (h : 32 ≤ s.xl.invs.length ∨ (∃ i ∈ s.xl.invs, i.itag = itag.val) ∨ s.xl.invWait ≠ []) :
    execAtsInvalidate itag pasid va n g s =
      .next { s with xl := { s.xl with invWait := s.xl.invWait ++ [(itag.val, pasid, va, n, g)] } } := by
  unfold execAtsInvalidate
  dsimp only
  rw [if_neg (by simp [ha, hd]), if_pos]
  simpa [invHeld, or_assoc] using h

theorem execAtsInvalidate_taken (hl : s.xl.invs.length < 32) (hi : ∀ i ∈ s.xl.invs, i.itag ≠ itag.val) (hw : s.xl.invWait = []) :
    execAtsInvalidate itag pasid va n g s = .next (invalidate (itag.val, pasid, va, n, g) s) := by
  unfold execAtsInvalidate
  dsimp only
  rw [if_neg (by simp [ha, hd]), if_neg]
  simpa [invHeld, hw, hl] using hi

end

theorem invalidate_eq (itag : Nat) (pasid : BitVec 20) (va : W64) (n : Nat) (g : Bool) (s : State) :
    ∃ es v, invalidate (itag, pasid, va, n, g) s = { s with xl := { s.xl with
        engines := v, walkCache := s.xl.walkCache.filter (fun w => !((g || w.pasid = pasid) && w.overlaps s va.toNat n))
        invs := s.xl.invs ++ [⟨itag, es⟩] } } ∧ (s.xl.engines = [] → es = []) := by
  obtain ⟨es, v, e, hes⟩ := markStale_eq
    (fun x t => x.translates && (g || decide (pasidOf s x.ctx = pasid)) && overlaps t.va t.bytes va.toNat n)
    (fun x page => (g || decide (pasidOf s x.ctx = pasid)) && overlaps (page * 4096) 4096 va.toNat n)
    { s with xl := { s.xl with walkCache := s.xl.walkCache.filter (fun w => !((g || w.pasid = pasid) && w.overlaps s va.toNat n)) } }
  unfold invalidate
  dsimp only
  rw [e]
  exact ⟨es, v, rfl, hes⟩

theorem execAtsInvalidateCompletion_quiet {itag : Fin 32} {i : AtsInv} {s : State} (ha : alive s = true)
    (hf : s.xl.invs.find? (fun i => i.itag = itag.val) = some i) (hq : ∀ e ∈ i.engines, ∀ x, xferGet s e = some x → x.chunk = false) :
    execAtsInvalidateCompletion itag s = .next (takeInvalidate (resumeEngines (emit (.atsInvalidateCpl itag.val)
      { s with xl := { s.xl with invs := s.xl.invs.filter (fun j => j.itag ≠ itag.val) } }))) := by
  have hb : i.engines.any (fun e => (xferGet s e).any (·.chunk)) = false := by
    rw [List.any_eq_false]
    intro e he
    cases hx : xferGet s e with
    | none => simp
    | some x => simp [hq e he x hx]
  unfold execAtsInvalidateCompletion
  rw [hf]
  dsimp only
  rw [hb, if_neg (by simp [ha])]

/-- Settles O44. -/
theorem translationsAreResolved : Obligations.TranslationsAreResolved := by
  intro s
  refine ⟨fun e k x page hx hn hc hw => ⟨execWalk_ats hx hn hc hw, fun hm hb => ?_, fun hm hb => ?_⟩,
    fun pasid va tbl write pte cache => ⟨walkDown_zero, ?_⟩,
    fun e hpa size r w x page ha hs hx => ⟨fun hp => ?_, fun hp hr => ?_, fun hp hr => ?_⟩,
    fun i p ha hp => ⟨fun hq hd => ⟨?_, ?_, ?_⟩, execPriTimeout_due ha hp⟩,
    fun i => ⟨_, rfl, rfl, fun q => ?_⟩, fun v hu hp => ?_,
    fun itag pasid va n g ha hd => ⟨execAtsInvalidate_held ha hd, fun hl hi hw => ?_⟩,
    fun itag i ha hf => execAtsInvalidateCompletion_quiet ha hf, fun hw => ⟨fun c v => ?_, fun hb => ⟨?_, fun hn => ?_⟩⟩⟩
  · exact (execWalk_walk hx hn hc hw hm).trans (congrArg _ (if_pos hb))
  · have hwalk := execWalk_walk (k := k) hx hn hc hw hm
    rw [if_neg (by simp [hb])] at hwalk
    intro root
    refine ⟨fun hr => hwalk.trans (congrArg _ (if_pos (by simpa [root] using hr))), fun hr => ?_⟩
    intro wd u s1
    have e1 : execWalk e k s = .next (walkResult e.val k.val page false wd.1 u) :=
      hwalk.trans (congrArg _ (if_neg (by simpa [root] using hr)))
    obtain ⟨hread, hleaf, hfault, hrequest⟩ := walkResult_kept (k := k.val) (page := page) (s := u) hx
    refine ⟨fun l a h => ?_, fun t h => ?_, fun c h => ?_, fun v h => ?_⟩
    · exact e1.trans (congrArg _ ((congrArg (walkResult e.val k.val page false · u) h).trans (hread l a)))
    · exact e1.trans (congrArg _ ((congrArg (walkResult e.val k.val page false · u) h).trans (hleaf t)))
    · exact e1.trans (congrArg _ ((congrArg (walkResult e.val k.val page false · u) h).trans (hfault c)))
    · exact e1.trans (congrArg _ ((congrArg (walkResult e.val k.val page false · u) h).trans (hrequest v)))
  · rw [walkOn_zero]
    exact ⟨judgeEntry_zero_reserved, judgeEntry_zero_absent, judgeEntry_zero_privileged, judgeEntry_zero_readOnly, judgeEntry_zero_leaf⟩
  · exact execAtsTranslationCompletion_of ha hs hx hp
  · exact (execAtsTranslationCompletion_of ha hs hx hp).trans (congrArg _ ((if_neg (by decide)).trans (if_pos (by simpa using hr))))
  · refine (execAtsTranslationCompletion_of ha hs hx hp).trans (congrArg _ ((if_neg (by decide)).trans ((if_neg ?_).trans ?_)))
    · simpa using hr
    · rw [XEntry.bytes_mk hs]
  · refine (execPrgResponse_inTime ha hp hq hd).trans (congrArg _ ?_)
    rw [show (decide ((0 : Fin 3) = 2)) = false from rfl, Bool.or_false]
    rfl
  · refine (execPrgResponse_inTime ha hp hq hd).trans (congrArg _ ?_)
    rw [show (decide ((1 : Fin 3) = 2)) = false from rfl, Bool.or_false]
    rfl
  · refine (execPrgResponse_inTime ha hp hq hd).trans (congrArg _ ?_)
    rw [show (decide ((2 : Fin 3) = 2)) = true from rfl, Bool.or_true]
    rfl
  · simp [List.mem_filter, due, Decidable.imp_iff_not_or]
  · show execPriEnable v s = _
    rw [execPriEnable, if_pos (by simp [cfgOpen, hu, hp]), setPriEnable, Bool.not_and, Bool.not_not]
  · obtain ⟨es, v, he, hes⟩ := invalidate_eq itag.val pasid va n g s
    exact ⟨_, es, (execAtsInvalidate_taken ha hd hl hi hw).trans (congrArg _ he), rfl, rfl, rfl, hes⟩
  · have hv : BitVec.ofNat 52 (fld v 12 52) = v.extractLsb' 12 52 := by
      apply BitVec.eq_of_toNat_eq
      simp [fld, Nat.shiftRight_eq_div_pow]
    show execCtxRootWrite c v s = _
    rw [execCtxRootWrite, if_pos hw, ctxRootSet, hv]
    rfl
  · show execPteFormatValidate s = _
    rw [execPteFormatValidate, if_pos (by simpa [hw] using hb)]
    rfl
  · unfold pteCheck
    dsimp only
    rw [if_pos (by simpa [or_assoc] using hn)]

end Sys2Proof.Machine
end

section
/-!
PROOFS of O45: transfer engines, and the heat counters.
-/
namespace Sys2Proof.Machine

/-- What a descriptor is rejected for. -/
def badDescriptor (f : Nat → Nat → Nat) : Prop :=
  f 0 1 = 0 ∨ 4 < f 0 1 ∨ 1 < f 1 1 ∨ 4096 ≤ f 2 2 ∨ ¬ (f 4 1 = 1 ∨ f 4 1 = 2 ∨ (9 ≤ f 4 1 ∧ f 4 1 ≤ 15)) ∨
    f 5 3 ≠ 0 ∨ f 0x18 4 = 0 ∨ 262144 < f 0x18 4 ∨ f 0x20 32 ≠ 0

theorem badDescriptor_iff (f : Nat → Nat → Nat) :
    (f 0 1 = 0 || 4 < f 0 1 || 1 < f 1 1 || 4096 ≤ f 2 2 || !(f 4 1 = 1 || f 4 1 = 2 || (9 ≤ f 4 1 && f 4 1 ≤ 15)) ||
      f 5 3 ≠ 0 || f 0x18 4 = 0 || 262144 < f 0x18 4 || f 0x20 32 ≠ 0) = true ↔ badDescriptor f := by
  simp only [badDescriptor, Bool.or_eq_true, Bool.and_eq_true, decide_eq_true_eq, Bool.not_eq_true', or_assoc,
    ← Bool.not_eq_true, ne_eq, not_or, not_and]

/-- The transfer of an accepted descriptor. -/
def xferOf (d : BitVec 512) (s : State) : Xfer :=
  let f := cmdField d
  { op := BitVec.ofNat 8 (f 0 1), heat := decide (f 1 1 = 1), ctx := f 2 2, cls := f 4 1
    va := BitVec.ofNat 64 (f 8 8), dpa := BitVec.ofNat 64 (f 0x10 8), length := f 0x18 4
    tag := BitVec.ofNat 32 (f 0x1C 4), use := useOf s (f 0 1) (f 2 2) (f 8 8) (f 0x10 8), entries := []
    moved := 0, asked := [], waitPrg := none, chunk := false, stopped := false }

/-- A transfer of at least one byte that holds no translation has a page to resolve. -/
theorem nextPage_isSome {x : Xfer} (he : x.entries = []) (hl : 0 < x.length) : x.nextPage.isSome = true := by
  have hpages : 0 < (x.va.toNat + x.length + 4095) / 4096 - x.va.toNat / 4096 := by omega
  rw [Xfer.nextPage, List.find?_isSome]
  refine ⟨x.va.toNat / 4096 + 0, List.mem_map.2 ⟨0, List.mem_range.2 hpages, rfl⟩, ?_⟩
  simp [he]

/-- An engine whose page is not resolved starts no chunk. -/
theorem startChunk_unresolved {e : Nat} {x : Xfer} {s : State} (hx : xferGet s e = some x) (hr : x.resolved s = false) :
    startChunk e s = s := by
  unfold startChunk
  rw [hx]
  dsimp only
  rw [hr, if_pos (by simp)]

section
variable {s : State} {e : Engine} {d : BitVec 512} (ha : alive s = true) (hs : s.faults.safe = false) (hq : s.service.quiesced = false)
  (hn : xferGet s e.val = none) (hr : ∀ r ∈ s.faults.resets, r.block ≠ .engine e)
include ha hs hq hn hr

theorem execTransferDescriptor_idle :
    execTransferDescriptor e d s = .next (
      let f := cmdField d
      if f 0 1 = 0 || 4 < f 0 1 || 1 < f 1 1 || 4096 ≤ f 2 2 || !(f 4 1 = 1 || f 4 1 = 2 || (9 ≤ f 4 1 && f 4 1 ≤ 15)) ||
        f 5 3 ≠ 0 || f 0x18 4 = 0 || 262144 < f 0x18 4 || f 0x20 32 ≠ 0 then
        emit (.xferEnd e.val (BitVec.ofNat 32 (f 0x1C 4)) .reject) s
      else
        let x := xferOf d s
        let s1 := xferSet e.val (some x) s
        startChunk e.val (if x.translates then { s1 with xl := { s1.xl with walkQ := s1.xl.walkQ ++ [e.val] } } else s1)) := by
  unfold execTransferDescriptor
  dsimp only
  rw [if_neg (by simpa [ha, hs, hq, hn] using hr)]
  rfl

theorem execTransferDescriptor_bad (hb : badDescriptor (cmdField d)) :
    execTransferDescriptor e d s = .next (emit (.xferEnd e.val (BitVec.ofNat 32 (cmdField d 0x1C 4)) .reject) s) :=
  (execTransferDescriptor_idle ha hs hq hn hr).trans (congrArg _ (if_pos ((badDescriptor_iff _).2 hb)))

theorem execTransferDescriptor_translated (hb : ¬ badDescriptor (cmdField d)) (ho : cmdField d 0 1 = 1 ∨ cmdField d 0 1 = 2)
    (hm : xlMode s ≠ 0) :
    execTransferDescriptor e d s = .next { xferSet e.val (some (xferOf d s)) s with
      xl := { (xferSet e.val (some (xferOf d s)) s).xl with walkQ := s.xl.walkQ ++ [e.val] } } := by
  refine (execTransferDescriptor_idle ha hs hq hn hr).trans (congrArg _ ((if_neg (mt (badDescriptor_iff _).1 hb)).trans ?_))
  have ht : (xferOf d s).translates = true := by
    rcases ho with ho | ho <;> simp [Xfer.translates, xferOf, ho]
  have hl : 0 < (xferOf d s).length := by
    have h0 : cmdField d 0x18 4 ≠ 0 := fun h => hb (by simp [badDescriptor, h])
    exact Nat.pos_of_ne_zero h0
  dsimp only
  rw [ht, if_pos rfl]
  have hx : xferGet { xferSet e.val (some (xferOf d s)) s with
      xl := { (xferSet e.val (some (xferOf d s)) s).xl with walkQ := s.xl.walkQ ++ [e.val] } } e.val = some (xferOf d s) :=
    xferGet_xferSet_self e.val (some (xferOf d s)) s
  refine startChunk_unresolved hx ?_
  have hm' : xlMode { xferSet e.val (some (xferOf d s)) s with
      xl := { (xferSet e.val (some (xferOf d s)) s).xl with walkQ := s.xl.walkQ ++ [e.val] } } ≠ 0 := hm
  have hp := nextPage_isSome (x := xferOf d s) rfl hl
  rw [Xfer.resolved, ht, Option.isNone_eq_false_iff.2 hp]
  exact decide_eq_false hm'

end

/-! ### Chunks -/

theorem chunkMoved_cool {e : Nat} {x : Xfer} {s : State} (hx : xferGet s e = some x) (hh : x.heat = false) :
    let n := min 65536 (x.length - x.moved)
    let v := countN (1600 + 2 * e) n
      (xferSet e (some { x with moved := x.moved + n, chunk := false, written := false, asked64 := false, got := [] }) s)
    chunkMoved e s = if x.length ≤ x.moved + n then doneXfer e v else startChunk e v := by
  unfold chunkMoved
  rw [hx]
  dsimp only
  rw [hh]
  rfl

/-- What the end of a chunk leaves once its bytes are where they go: a chunk moved, or its stores waiting at their homes. -/
def chunkFin (e : Nat) (y : Xfer) (u : State) : State :=
  if engineStores u e = true then xferSet e (some { y with written := true }) u else chunkMoved e u

section
variable {s : State} {e : Engine} {data : List LineData} {x : Xfer} (ha : alive s = true) (hx : xferGet s e.val = some x)
  (hc : x.chunk = true) (hr : x.toRead = []) (hh : ∀ r ∈ s.host.reads, r.use ≠ .engine e.val)
  (hw : ∀ w ∈ s.pair.winReqs, w.2 ≠ .engine e.val) (hf : fillsOut s e.val = false)
include ha hx hc hr hh hw hf

theorem execTransferChunkEnd_written (hd : x.written = true) :
    execTransferChunkEnd e data s = .next (if engineStores s e.val = true then s else chunkMoved e.val s) := by
  have hreads : s.host.reads.any (fun r => r.use = .engine e.val) = false := by simpa using hh
  have hwins : s.pair.winReqs.any (fun w => w.2 = .engine e.val) = false := by
    simpa using fun t u h => hw (t, u) h
  unfold execTransferChunkEnd
  dsimp only
  rw [hx]
  dsimp only
  rw [hreads, hwins, if_neg (by simp [ha, hc, hr, hf, hd]), if_pos hd]

/-- A chunk whose lines are all there, and that has no request of its own to make. -/
theorem execTransferChunkEnd_moves (hd : x.written = false)
    (hheld : ((x.op = 2 || (x.op = 1 && !x.bypass)) && !canRequest s) = false) (h1 : (x.op = 1 && !x.bypass) = false) :
    execTransferChunkEnd e data s = .next (
      let n := min 65536 (x.length - x.moved)
      let va := x.va.toNat + x.moved
      let lines := (List.range ((va + n + 63) / 64 - va / 64)).map (fun i => data.getD i 0)
      let s2 :=
        if x.op = 1 || x.op = 4 then
          if x.poison then failXfer e.val 7 s
          else match x.use with
            | .readback _ _ => s
            | _ => pokeBytes (.transferEngine e (Fin.ofNat 4096 x.ctx)) (x.dpa.toNat + x.moved) (slice (lines.flatMap lineBytes) (va % 64) n) s
        else if x.op = 2 then writeHost x (outBytes x (x.hdmLines e.val s).1 (x.hdmLines e.val s).2) (x.hdmLines e.val s).1 (x.hdmLines e.val s).2
        else s
      match xferGet s2 e.val with
      | none => s2
      | some y => chunkFin e.val y s2) := by
  have hreads : s.host.reads.any (fun r => r.use = .engine e.val) = false := by simpa using hh
  have hwins : s.pair.winReqs.any (fun w => w.2 = .engine e.val) = false := by
    simpa using fun t u h => hw (t, u) h
  unfold execTransferChunkEnd
  dsimp only
  rw [hx]
  dsimp only
  rw [hreads, hwins, hheld, if_neg (by simp [ha, hc, hr, hf]), if_neg (by simp [hd]), h1]
  simp only [Bool.false_eq_true, if_false, List.map_map]
  rfl

end

/-! ### Heat -/

theorem execHeatDecay_due {s : State} (ha : alive s = true) (hd : s.xl.nextDecay ≤ s.ticks) :
    execHeatDecay s = .next { s with xl := { s.xl with
      heats := s.xl.heats.map (fun h => { h with count := h.count / 2, reported := h.reported && !(2 * (h.count / 2) < s.xl.hotThreshold.toNat) })
      nextDecay := s.xl.nextDecay + s.xl.decayTicks.toNat } } := by
  unfold execHeatDecay
  rw [if_neg (by simp [ha, due, hd])]

theorem execHotRingEnable_starts {v : W32} {s : State} (hw : writable s = true) (hn : s.xl.hotEn = false) (hv : v.getLsbD 31 = true)
    (hs : (v.extractLsb' 0 4).toNat ≤ 10) :
    execHotRingEnable v s = .next { s with xl := { s.xl with
      hotEn := true, hotIen := v.getLsbD 30, hotVector := v.extractLsb' 19 11, hotSize := v.extractLsb' 0 4, hotHead := 0, hotW := 0 } } := by
  have hvec : BitVec.ofNat 11 (fld v 19 11) = v.extractLsb' 19 11 := by
    apply BitVec.eq_of_toNat_eq
    simp [fld, Nat.shiftRight_eq_div_pow]
  have hsize : BitVec.ofNat 4 (fld v 0 4) = v.extractLsb' 0 4 := by
    apply BitVec.eq_of_toNat_eq
    simp [fld]
  unfold execHotRingEnable hotCtlWrite
  dsimp only
  rw [if_pos hw, hn, hvec, hsize, hv]
  rw [if_neg (by simp), hn, if_neg (by simpa using hs), if_pos (by rfl), if_pos (by rfl)]

/-- Settles O45. -/
theorem transfersAndHeat : Obligations.TransfersAndHeat := by
  intro s
  refine ⟨fun e d ha hs hq hn hr => ⟨execTransferDescriptor_bad ha hs hq hn hr, execTransferDescriptor_translated ha hs hq hn hr⟩,
    fun e d x hx => ?_, fun e data x ha hx hc hr hh hw hf => ⟨chunkMoved_cool hx, execTransferChunkEnd_written ha hx hc hr hh hw hf,
      fun hd => ⟨fun ho => ?_, fun ho hu hcan => ?_, fun ho hp hu => ?_, fun ho hp hn => ?_⟩⟩,
    fun ha hd => ⟨_, execHeatDecay_due ha hd, rfl, ?_, fun h hm hrep => ?_⟩, fun v => execHotRingEnable_starts⟩
  · show execTransferDescriptor e d s = _
    unfold execTransferDescriptor
    dsimp only
    rw [if_pos (by simp [hx])]
  · have e3 := execTransferChunkEnd_moves (data := data) ha hx hc hr hh hw hf hd (by simp [ho]) (by simp [ho])
    refine e3.trans (congrArg _ ?_)
    dsimp only
    rw [if_neg (by simp [ho]), if_neg (by simp [ho]), hx] <;> rfl
  · have e2 := execTransferChunkEnd_moves (data := data) ha hx hc hr hh hw hf hd (by simp [hcan]) (by simp [ho])
    intro r u y hy
    refine e2.trans (congrArg _ ?_)
    dsimp only [outBytes]
    rw [hu, if_neg (by simp [ho]), if_pos ho]
    rw [show xferGet (writeHost x (x.chunkBytes (x.hdmLines e.val s).1) (x.hdmLines e.val s).1 (x.hdmLines e.val s).2) e.val = some y from hy]
    rfl
  · have h1 : (x.op = 1 && !x.bypass) = false := by rcases ho with ho | ⟨ho, hb⟩ <;> simp [*]
    have h14 : (x.op = 1 || x.op = 4) = true := by rcases ho with ho | ⟨ho, hb⟩ <;> simp [ho]
    have h2 : (decide (x.op = 2)) = false := by rcases ho with ho | ⟨ho, hb⟩ <;> simp [ho]
    have e4 := execTransferChunkEnd_moves (data := data) ha hx hc hr hh hw hf hd (by rw [h1, h2] <;> rfl) h1
    intro va lines u y hy
    refine e4.trans (congrArg _ ?_)
    dsimp only
    rw [hu, if_pos h14, if_neg (by simp [hp])]
    dsimp only
    rw [show xferGet u e.val = some y from hy]
    rfl
  · have e7 := execTransferChunkEnd_moves (data := data) ha hx hc hr hh hw hf hd (by simp [ho]) (by simp [ho])
    refine e7.trans (congrArg _ ?_)
    dsimp only
    rw [if_pos (by simp [ho]), if_pos hp, hn]
  · simp
  · simp only [List.mem_map] at hm
    obtain ⟨g, -, rfl⟩ := hm
    simp only [Bool.and_eq_true] at hrep
    simpa using hrep.2

end Sys2Proof.Machine
end

section
/-!
PROOFS of O46: the girth ports' flits, starts, stops, fences and sweeps.
-/
namespace Sys2Proof.Machine

/-- A corrected event whose reaction set starts no chip reset leaves the ports alone. -/
theorem raise_ce_girth {k d : Nat} {s : State} (h : (srcGet s k).reactCe &&& rChiprst = 0) : (raise k .ce d s).girth = s.girth := by
  by_cases hs : sampled s k = true ∧ (srcInfo k).can .ce = true
  · obtain ⟨b, m, p, o, e⟩ := latch_faults (cls := .ce) (c := .ce) (wire := false) (detail := d) rfl hs.1 hs.2 (.inr (.inr (.inl h)))
    rw [raise, e]
  · rw [raise, latch]
    dsimp only
    rw [if_pos]
    rw [Decidable.not_and_iff_not_or_not, Bool.not_eq_true, Bool.not_eq_true] at hs
    rcases hs with hs | hs
    · simp [hs]
    · simp [show (srcInfo k).can (latchClass k .ce false) = false from hs]

theorem girth_count (k : Nat) (s : State) : (count k s).girth = s.girth := by
  obtain ⟨o, e⟩ := countN_eq k 1 s
  rw [count, e]

theorem portGet_of_girth {s t : State} (h : t.girth = s.girth) (n : Nat) : portGet t n = portGet s n := by
  rw [portGet, portGet, h]

/-- A pump with nothing queued sends nothing. -/
theorem girthPump_empty {n k : Nat} {s : State} (h : (portGet s n).outq = []) : girthPump n k s = s := by
  cases k with
  | zero => rfl
  | succ k =>
    rw [girthPump]
    dsimp only
    rw [h]
    rfl

/-! ### Flits -/

/-- The port after a flit's ACK. -/
def flitAcked (p : GirthPort) (f : GirthFlit) : GirthPort :=
  { p with peerAck := widenAck p f.ackLow
           held := p.held.filter (fun h => decide ((widenAck p f.ackLow + 1).toNat ≤ h.num.toNat)) }

/-- Slots of a class that a flit takes, while credits are in force. -/
def flitSlots (p : GirthPort) (f : GirthFlit) (c : Nat) : Nat := if p.st = .up ∨ p.st = .quiescing then f.slots.getD c 0 else 0

/-- The port after the flit next in order. -/
def flitAccepted (p : GirthPort) (f : GirthFlit) (now : Nat) : GirthPort :=
  { flitAcked p f with
    rxLast := f.flitNum, lastFlit := now
    rxCredits := p.rxCredits.mapIdx (fun c k => k - flitSlots p f c), rxOwed := p.rxOwed.mapIdx (fun c k => k + flitSlots p f c)
    credits := if 1 ≤ f.crClass.toNat ∧ f.crClass.toNat ≤ 5 then
      p.credits.set (f.crClass.toNat - 1) (p.credits.getD (f.crClass.toNat - 1) 0 + f.crCount.toNat) else p.credits }

section
variable {s : State} {port : Port} {f : GirthFlit} (ha : alive s = true) (hl : (portGet s port.val).linked = true)
include ha hl

theorem execGirthFlit_inTime (hd : s.ticks ≤ (portGet s port.val).lastFlit + 100) : execGirthFlit port f s = .next (girthFlit port.val f s) := by
  have hlate : due ((portGet s port.val).lastFlit + 101) s = false := by simp [due]; omega
  rw [execGirthFlit, if_pos (by simp [ha, hl]), if_neg (by simp [hlate])]

theorem execGirthKeepalive_quiet (hh : (portGet s port.val).held.length < 512) (hq : (portGet s port.val).outq = []) :
    execGirthKeepalive port s = .next (girthFlitOut port.val [] s) := by
  unfold execGirthKeepalive
  dsimp only
  rw [if_neg (by simpa [ha, hl] using hh), girthPump_empty hq, if_pos rfl]

theorem execGirthLinkIdleTimeout_idle (hd : (portGet s port.val).lastFlit + 101 ≤ s.ticks) :
    execGirthLinkIdleTimeout port s = .next (fencePort port.val (raise (2868 + 8 * port.val + 1) .uc 0 s)) := by
  rw [execGirthLinkIdleTimeout, if_pos (by simp [ha, hl, due, hd])] <;> rfl

end

section
variable {s : State} {n : Nat} {f : GirthFlit}

/-- The part of GIRTH_FLIT that follows its ACK and NAK, from the state `s2` that those left. -/
def flitTaken (n : Nat) (f : GirthFlit) (now : Nat) (s2 : State) : State :=
  let q := portGet s2 n
  if f.checkOk && f.flitNum = q.rxLast + 1 then
    let overrun := (List.range 5).any (fun c => q.rxCredits.getD c 0 < flitSlots q f c)
    let s3 := count (2497 + 8 * n) (portSet n { q with
      rxLast := f.flitNum, lastFlit := now
      rxCredits := q.rxCredits.mapIdx (fun c k => k - flitSlots q f c), rxOwed := q.rxOwed.mapIdx (fun c k => k + flitSlots q f c)
      credits := if 1 ≤ f.crClass.toNat ∧ f.crClass.toNat ≤ 5 then
        q.credits.set (f.crClass.toNat - 1) (q.credits.getD (f.crClass.toNat - 1) 0 + f.crCount.toNat) else q.credits } s2)
    let s4 := if f.protoError || overrun then raise (2868 + 8 * n + 2) .uc 0 s3 else s3
    let s5 := if q.step = 3 then inStep n (fun s => sendHello n (portStep n 4 1000 s)) s4 else s4
    girthPump n ((portGet s5 n).outq.length + 1) s5
  else portSet n { q with nak := true } s2

/-- The state after a flit's ACK and NAK. -/
def flitHeard (n : Nat) (f : GirthFlit) (s : State) : State :=
  let s1 := if f.checkOk then portSet n (flitAcked (portGet s n) f) s else s
  if f.checkOk && f.nak then nakFlits n s1 else s1

theorem girthFlit_eq : girthFlit n f s = flitTaken n f s.ticks (flitHeard n f s) := by
  have hcr : ∀ a b : List Nat, (if 1 ≤ f.crClass.toNat && f.crClass.toNat ≤ 5 then a else b) =
      if 1 ≤ f.crClass.toNat ∧ f.crClass.toNat ≤ 5 then a else b := by
    simp
  have hsl : ∀ q : GirthPort, (fun c => if q.st = .up || q.st = .quiescing then f.slots.getD c 0 else 0) = flitSlots q f := by
    intro q
    funext c
    simp [flitSlots]
  unfold girthFlit flitTaken
  simp only [← hcr, ← hsl]
  rfl

theorem girthFlit_bad (hc : f.checkOk = false) : girthFlit n f s = portSet n { portGet s n with nak := true } s := by
  have hs : flitHeard n f s = s := by simp [flitHeard, hc]
  rw [girthFlit_eq, hs, flitTaken]
  dsimp only
  rw [hc, if_neg (by simp)]

/-- The flit next in order, without a NAK. -/
theorem girthFlit_next (hc : f.checkOk = true) (hk : f.nak = false) (hn : f.flitNum = (portGet s n).rxLast + 1) (h3 : (portGet s n).step ≠ 3)
    (hq : (portGet s n).outq = []) :
    let t := count (2497 + 8 * n) (portSet n (flitAccepted (portGet s n) f s.ticks) s)
    let held := ∀ c < 5, flitSlots (portGet s n) f c ≤ (portGet s n).rxCredits.getD c 0
    (f.protoError = false → held → girthFlit n f s = t) ∧
      (f.protoError = true ∨ ¬ held → girthFlit n f s =
        (let u := raise (2868 + 8 * n + 2) .uc 0 t; girthPump n ((portGet u n).outq.length + 1) u)) := by
  intro t held
  have hover : (List.range 5).any (fun c => (portGet s n).rxCredits.getD c 0 < flitSlots (portGet s n) f c) = true ↔ ¬ held := by
    simp [held]
  have hs : flitHeard n f s = portSet n (flitAcked (portGet s n) f) s := by simp [flitHeard, hc, hk]
  have e : girthFlit n f s =
      (let u := if f.protoError || (List.range 5).any (fun c => (portGet s n).rxCredits.getD c 0 < flitSlots (portGet s n) f c)
        then raise (2868 + 8 * n + 2) .uc 0 t else t
       girthPump n ((portGet u n).outq.length + 1) u) := by
    rw [girthFlit_eq, hs, flitTaken, portGet_portSet_self]
    dsimp only
    have hnext : (f.checkOk && decide (f.flitNum = (flitAcked (portGet s n) f).rxLast + 1)) = true := by
      rw [hc, Bool.true_and]
      exact decide_eq_true hn
    rw [if_pos hnext, if_neg (show (flitAcked (portGet s n) f).step ≠ 3 from h3), portSet_portSet]
    rfl
  refine ⟨fun hp hh => ?_, fun h => ?_⟩
  · have hno : ¬ (f.protoError || (List.range 5).any (fun c => (portGet s n).rxCredits.getD c 0 < flitSlots (portGet s n) f c)) = true := by
      rw [Bool.or_eq_true, hover, hp]
      simpa using hh
    rw [e, if_neg hno]
    have ht : portGet t n = flitAccepted (portGet s n) f s.ticks :=
      (portGet_of_girth (girth_count _ _) n).trans (portGet_portSet_self _ _ _)
    exact girthPump_empty (ht ▸ hq)
  · rw [e, if_pos]
    rw [Bool.or_eq_true, hover]
    exact h

theorem girthFlit_nak (hc : f.checkOk = true) (hk : f.nak = true)
    (hr : (portGet (nakFlits n (portSet n (flitAcked (portGet s n) f) s)) n).rxLast = (portGet s n).rxLast)
    (hn : f.flitNum ≠ (portGet s n).rxLast + 1) :
    girthFlit n f s = (let u := nakFlits n (portSet n (flitAcked (portGet s n) f) s); portSet n { portGet u n with nak := true } u) := by
  have hs : flitHeard n f s = nakFlits n (portSet n (flitAcked (portGet s n) f) s) := by simp [flitHeard, hc, hk]
  rw [girthFlit_eq, hs, flitTaken]
  dsimp only
  rw [hr, hc, if_neg (by simpa using hn)]

/-- A replay changes no flit number that the port has received. -/
theorem replayFlits_rxLast : (portGet (replayFlits n s) n).rxLast = (portGet s n).rxLast := by
  unfold replayFlits
  dsimp only
  refine foldS_keeps (P := fun t => (portGet t n).rxLast = (portGet s n).rxLast) _ ?_ _ _ ?_
  · intro h t ht
    rw [portGet_of_girth (girth_count _ _) n]
    exact ht
  · rw [portGet_portSet_self]

theorem nakFlits_replays (h : ∀ h ∈ (portGet s n).held, h.replays < 4) : nakFlits n s = replayFlits n s := by
  rw [nakFlits, if_neg]
  simpa using h

theorem nakFlits_retrains (h : ∃ h ∈ (portGet s n).held, 4 ≤ h.replays) :
    nakFlits n s = raise (2868 + 8 * n) .ce 0 (portSet n { portGet s n with retrain := some (after 100000 s) } s) := by
  rw [nakFlits, if_pos (by simpa using h)] <;> rfl

end

/-! ### Start -/

theorem inStep_inTime {n : Nat} {g : State → State} {t : State} (h : t.ticks < (portGet t n).stepDeadline) : inStep n g t = g t := by
  rw [inStep, if_neg (by simp [due, h])]

theorem inStep_late {n : Nat} {g : State → State} {t : State} (h : (portGet t n).stepDeadline ≤ t.ticks) : inStep n g t = startFails n t := by
  rw [inStep, if_pos (by simp [due, h])]

section
variable {s : State} {port : Port} (ha : alive s = true)
include ha

theorem execGirthStartTimeout_due (h0 : (portGet s port.val).step ≠ 0) (hd : (portGet s port.val).stepDeadline ≤ s.ticks) :
    execGirthStartTimeout port s = .next (startFails port.val s) := by
  rw [execGirthStartTimeout, if_pos (by simpa [ha, due, hd] using h0)]

/-- A port whose link has come up in step 2. -/
def trainedPort (p : GirthPort) (s : State) : GirthPort :=
  { p with
    txNum := 0, rxLast := BitVec.allOnes 64, peerAck := BitVec.allOnes 64, nak := false, held := [], outq := [], lastFlit := s.ticks
    credits := [0, 0, 0, 0, 0], rxCredits := [1024, 0, 1024, 4096, 64], rxOwed := [0, 0, 0, 0, 0], txns := [], cmpWait := []
    step := 3, stepDeadline := after 1000 s }

theorem execGirthTrainDone_step (h2 : (portGet s port.val).step = 2) :
    execGirthTrainDone port s = .next (inStep port.val
      (fun s1 => girthFlitOut port.val [] (setGp port.val .init (portStep port.val 3 1000 (portSet port.val
        { portGet s port.val with
          txNum := 0, rxLast := BitVec.allOnes 64, peerAck := BitVec.allOnes 64, nak := false, held := [], outq := [], lastFlit := s.ticks
          credits := [0, 0, 0, 0, 0], rxCredits := [1024, 0, 1024, 4096, 64], rxOwed := [0, 0, 0, 0, 0], txns := [], cmpWait := [] } s1)))) s) := by
  unfold execGirthTrainDone
  dsimp only
  rw [if_neg (by simp [ha, h2])]

theorem execGirthTrainDone_inTime (h2 : (portGet s port.val).step = 2) (hd : s.ticks < (portGet s port.val).stepDeadline) :
    execGirthTrainDone port s = .next (girthFlitOut port.val [] (setGp port.val .init
      (portSet port.val (trainedPort (portGet s port.val) s) s))) := by
  rw [execGirthTrainDone_step ha h2, inStep_inTime hd, portStep, portGet_portSet_self, portSet_portSet]
  rfl

theorem execGpPwrgd_powered (hp : (portGet s port.val).pwren = true) :
    execGpPwrgd port s = .next (
      let s1 := portSet port.val { portGet s port.val with pwrgd := true } s
      if (portGet s port.val).step = 1 then inStep port.val (portStep port.val 2 1000000) s1 else s1) := by
  unfold execGpPwrgd
  dsimp only
  rw [if_neg (by simp [ha, hp])]

theorem execGpPwrgd_inTime (hp : (portGet s port.val).pwren = true) (h1 : (portGet s port.val).step = 1)
    (hd : s.ticks < (portGet s port.val).stepDeadline) :
    execGpPwrgd port s = .next (portSet port.val
      { portGet s port.val with pwrgd := true, step := 2, stepDeadline := after 1000000 s } s) := by
  rw [execGpPwrgd_powered ha hp]
  dsimp only
  rw [if_pos h1, inStep_inTime (by rw [portGet_portSet_self]; exact hd), portStep, portGet_portSet_self, portSet_portSet]
  rfl

variable (hl : (portGet s port.val).linked = true)
include hl

theorem execHello_inTime {b : HelloBody} (h4 : (portGet s port.val).step = 4) (hd : s.ticks < (portGet s port.val).stepDeadline) :
    execHello port b s = .next (takeHello port.val b s) := by
  rw [execHello, if_neg (by simp [ha, hl, h4]), inStep_inTime hd]

theorem execReady_step (h6 : (portGet s port.val).step = 6) :
    execReady port s = .next (inStep port.val (fun s1 => portUp port.val (portSet port.val { portGet s port.val with readyIn := true } s1)) s) := by
  unfold execReady
  dsimp only
  rw [if_neg (by simp [ha, hl, h6])]

theorem execReady_inTime (h6 : (portGet s port.val).step = 6) (hd : s.ticks < (portGet s port.val).stepDeadline) :
    execReady port s = .next (
      if (portGet s port.val).creditIn = true then
        setGp port.val .up (portSet port.val { portGet s port.val with readyIn := true, step := 0 } s)
      else portSet port.val { portGet s port.val with readyIn := true } s) := by
  rw [execReady_step ha hl h6, inStep_inTime hd, portUp]
  dsimp only
  rw [portGet_portSet_self, Bool.and_true, portSet_portSet]

theorem execCredit_inTime {c : List W16} (h6 : (portGet s port.val).step = 6) (hd : s.ticks < (portGet s port.val).stepDeadline)
    (hc : (portGet s port.val).creditIn = false) (h5 : c.length = 5) :
    execCredit port c s = .next (
      if ∀ x ∈ List.zip [72, 64, 64, 80, 16] (c.map (·.toNat)), x.1 ≤ x.2 then
        portUp port.val (girthSend port.val .ready (portSet port.val { portGet s port.val with credits := c.map (·.toNat), creditIn := true } s))
      else raise (2868 + 8 * port.val + 2) .uc 0 s) := by
  have hok : (!creditsOk c) = true ↔ ¬ ∀ x ∈ List.zip [72, 64, 64, 80, 16] (c.map (·.toNat)), x.1 ≤ x.2 := by
    rw [Bool.not_eq_true', ← Bool.not_eq_true, Decidable.not_iff_not, creditsOk, Bool.and_eq_true, List.all_eq_true]
    simp [h5]
  unfold execCredit
  dsimp only
  rw [if_neg (by simp [ha, hl, h6, hc]), inStep_inTime hd]
  by_cases h : ∀ x ∈ List.zip [72, 64, 64, 80, 16] (c.map (·.toNat)), x.1 ≤ x.2
  · rw [if_neg (fun hn => hok.1 hn h), if_pos h]
  · rw [if_pos (hok.2 h), if_neg h]
    rfl

theorem execGirthKeyExchange_inTime {m : GirthKx} (h5 : (portGet s port.val).step = 5) (hd : s.ticks < (portGet s port.val).stepDeadline) :
    execGirthKeyExchange port m s = .next (girthKx port.val m s) := by
  rw [execGirthKeyExchange, if_pos (by simp [ha, hl, h5]), inStep_inTime hd]

end

/-- What a HELLO leads to: its checks, the key exchange or the credits. -/
theorem takeHello_eq {n : Nat} {b : HelloBody} {s : State} :
    let p := portGet s n
    let s1 := portSet n { p with vendor := b.vendor, device := b.device, itemsMax := b.itemsMax, txnMax := b.txnMax, helloOk := true } s
    let ok := b.version = 1 ∧ (if s.coh.moesi then b.caps.getLsbD 2 else b.caps.getLsbD 1) = true ∧ (p.encStart = true → b.caps.getLsbD 0 = true)
    (¬ ok → takeHello n b s = startFails n s1) ∧
      (ok → p.encStart = true → takeHello n b s =
        girthSend n (.kx 0x22) (girthSend n (.kx 0x21) (girthSend n (.kx 0x20) (portStep n 5 2000000 s1)))) ∧
      (ok → p.encStart = false → takeHello n b s = beginCredits n s1) := by
  intro p s1 ok
  have hbad : (b.version ≠ 1 || !(if s.coh.moesi then b.caps.getLsbD 2 else b.caps.getLsbD 1) || (p.encStart && !b.caps.getLsbD 0)) = true ↔ ¬ ok := by
    simp only [ok, Bool.or_eq_true, Bool.and_eq_true, decide_eq_true_eq, Bool.not_eq_true', ← Bool.not_eq_true,
      Decidable.not_and_iff_not_or_not, Decidable.not_imp_iff_and_not, or_assoc, ne_eq]
  refine ⟨fun h => if_pos (hbad.2 h), fun h he => ?_, fun h he => ?_⟩
  · exact (if_neg (fun hn => hbad.1 hn h)).trans (if_pos he)
  · exact (if_neg (fun hn => hbad.1 hn h)).trans (if_neg (by simp [show (portGet s n).encStart = false from he]))

/-! ### Stop, fence and sweep -/

section
variable {s : State} {port : Port}

theorem execGpStart_writable (hw : writable s = true) :
    ((portGet s port.val).st = .off → (portGet s port.val).sweepBusy = true →
      execGpStart port s = .next (portSet port.val { portGet s port.val with startAfterSweep := true } s)) ∧
    ((portGet s port.val).st = .off → (portGet s port.val).sweepBusy = false → execGpStart port s = .next (beginStart port.val s)) ∧
    ((portGet s port.val).st ≠ .off → execGpStart port s = .next (countIgnored (0x50000 + 0x1000 * port.val) s)) := by
  rw [execGpStart, if_pos hw, gpStart]
  dsimp only
  refine ⟨fun h hb => ?_, fun h hb => ?_, fun h => ?_⟩
  · rw [if_neg (by simp [h]), if_pos hb]
  · rw [if_neg (by simp [h]), if_neg (by simp [hb])]
  · rw [if_pos h]

theorem execGpStop_writable (hw : writable s = true) :
    ((portGet s port.val).st = .up → execGpStop port s =
      .next (quiesceIfIdle port.val (setGp port.val .quiescing (portSet port.val { portGet s port.val with quiesceBy := none } s)))) ∧
    ((portGet s port.val).st ≠ .up → execGpStop port s = .next (countIgnored (0x50000 + 0x1000 * port.val) s)) := by
  rw [execGpStop, if_pos hw, gpStop]
  dsimp only
  refine ⟨fun h => ?_, fun h => ?_⟩
  · rw [if_neg (by simp [h])]
  · rw [if_pos h]

theorem fencePort_running {n : Nat} (h0 : (portGet s n).st ≠ .off) (hf : (portGet s n).st ≠ .fenced) :
    fencePort n s = foldS (portGet s n).items (fun t u => if t.aborted.isSome then u else haltRun t.run t.stitch 6 t.pier u)
      (settleSlot (n + 1) true (setGp n .fenced (portSet n { (portGet s n).stopped with sweepBusy := true, sweepPoison := true } s))) := by
  rw [fencePort, if_neg (by simp [h0, hf])]

theorem execGirthRetrainEnd_waiting {d : Nat} {ok : Bool} (ha : alive s = true) (hr : (portGet s port.val).retrain = some d) :
    let p := portGet s port.val
    let s1 := portSet port.val { p with retrain := none, held := p.held.map (fun h => { h with replays := 0 }), lastFlit := s.ticks } s
    execGirthRetrainEnd port ok s = .next (if ok = true ∧ s.ticks < d then replayFlits port.val s1
      else fencePort port.val (raise (2868 + 8 * port.val + 1) .uc 0 s1)) := by
  intro p s1
  unfold execGirthRetrainEnd
  dsimp only
  rw [if_neg (by simp [ha, hr]), hr]
  by_cases h : ok = true ∧ s.ticks < d
  · rw [if_pos (by simp [h, due]), if_pos h]
  · rw [if_neg (by simpa [due, Option.any] using h), if_neg h]
    rfl

theorem execQuiesceDone_inTime {d : Nat} (ha : alive s = true) (hst : (portGet s port.val).st = .quiescing)
    (hq : (portGet s port.val).quiesceBy = some d) (hd : s.ticks < d) :
    execQuiesceDone port s = .next (settleSlot (port.val + 1) false (setGp port.val .off
      (portSet port.val { (portGet s port.val).stopped with sweepBusy := true, sweepPoison := false } s))) := by
  unfold execQuiesceDone
  dsimp only
  rw [hq, if_neg (by simp [ha, hst]), if_neg (by simp [due, hd])]

theorem execGpPrsntN_changed {level : Bool} (ha : alive s = true) (hp : (portGet s port.val).present = level) :
    let s1 := portSet port.val { portGet s port.val with present := !level } s
    execGpPrsntN port level s = .next (if (portGet s port.val).st = .off then s1 else raise (2868 + 8 * port.val + 7) .uc 0 s1) := by
  intro s1
  unfold execGpPrsntN
  dsimp only
  rw [if_neg (by simp [hp])]
  by_cases h : (portGet s port.val).st = .off
  · rw [if_neg (by simp [h]), if_pos h]
  · rw [if_pos (by simp [ha, h]), if_neg h]
    rfl

theorem execGirthSweepEnd_busy (ha : alive s = true) (hb : (portGet s port.val).sweepBusy = true) :
    let p := portGet s port.val
    let s1 := sweepSlot (port.val + 1) p.sweepPoison (portSet port.val { p with sweepBusy := false, sweepPoison := false } s)
    let s2 := if p.st = .fenced then setGp port.val .off s1 else s1
    execGirthSweepEnd port s = .next (if p.startAfterSweep then beginStart port.val s2 else s2) := by
  unfold execGirthSweepEnd
  dsimp only
  rw [if_neg (by simp [ha, hb])]

end

/-- Settles O46. -/
theorem girthPortsLinkStartAndStop : Obligations.GirthPortsLinkStartAndStop := by
  intro s port ha n p
  refine ⟨fun hl => ⟨fun f hd => ?_, execGirthKeepalive_quiet ha hl, execGirthLinkIdleTimeout_idle ha hl, fun b h4 hd => ?_,
      fun c h6 hd hc h5 => ?_, fun h6 hd => ⟨fun hc => ?_, fun hc => ?_⟩, fun h5 hd => ?_, fun c => ?_⟩,
    fun d hr ok => execGirthRetrainEnd_waiting ha hr, fun hs => ?_, fencePort_running,
    fun hp => ⟨execGpPwrgd_inTime ha hp, fun h1 => ?_⟩, execGirthTrainDone_inTime ha,
    fun h0 hd => ⟨execGirthStartTimeout_due ha h0 hd, fun h2 => ?_, fun h6 hl => ?_⟩, fun d => execQuiesceDone_inTime ha,
    fun level => execGpPrsntN_changed ha, execGirthSweepEnd_busy ha⟩
  · have e := execGirthFlit_inTime (f := f) ha hl hd
    intro a p1
    refine ⟨fun hc => e.trans (congrArg _ (girthFlit_bad hc)), fun hc hk hn h3 hq => ?_, fun hc hk hn => ⟨fun hh => ?_, fun hh hr => ?_⟩⟩
    · obtain ⟨h1, h2⟩ := girthFlit_next hc hk hn h3 hq
      exact ⟨fun hp hh => e.trans (congrArg _ (h1 hp hh)), fun h => e.trans (congrArg _ (h2 h))⟩
    · have hnak : nakFlits n (portSet n (flitAcked (portGet s n) f) s) = replayFlits n (portSet n (flitAcked (portGet s n) f) s) :=
        nakFlits_replays (by rw [portGet_portSet_self]; exact hh)
      have hrx := replayFlits_rxLast (n := n) (s := portSet n (flitAcked (portGet s n) f) s)
      rw [portGet_portSet_self, ← hnak] at hrx
      refine e.trans (congrArg _ ((girthFlit_nak hc hk hrx hn).trans ?_))
      rw [hnak]
      rfl
    · have hnak : nakFlits n (portSet n (flitAcked (portGet s n) f) s) =
          raise (2868 + 8 * n) .ce 0 (portSet n { flitAcked (portGet s n) f with retrain := some (after 100000 s) } s) := by
        rw [nakFlits_retrains (by rw [portGet_portSet_self]; exact hh), portGet_portSet_self, portSet_portSet]
        rfl
      have hrx : (portGet (nakFlits n (portSet n (flitAcked (portGet s n) f) s)) n).rxLast = (portGet s n).rxLast := by
        have hg := raise_ce_girth (d := 0)
          (s := portSet n { flitAcked (portGet s n) f with retrain := some (after 100000 s) } s) hr
        rw [hnak, portGet_of_girth hg n, portGet_portSet_self]
        rfl
      refine e.trans (congrArg _ ((girthFlit_nak hc hk hrx hn).trans ?_))
      rw [hnak]
      rfl
  · have e := execHello_inTime (b := b) ha hl h4 hd
    obtain ⟨h1, h2, h3⟩ := takeHello_eq (n := n) (b := b) (s := s)
    exact ⟨fun h => e.trans (congrArg _ (h1 h)), fun h he => e.trans (congrArg _ (h2 h he)), fun h he => e.trans (congrArg _ (h3 h he))⟩
  · have e := execCredit_inTime ha hl h6 hd hc h5
    exact ⟨fun h => e.trans (congrArg _ (if_pos h)), fun h => e.trans (congrArg _ (if_neg h))⟩
  · exact (execReady_inTime ha hl h6 hd).trans (congrArg _ (if_pos hc))
  · exact (execReady_inTime ha hl h6 hd).trans (congrArg _ (if_neg (by simp [show (portGet s port.val).creditIn = false from hc])))
  · have e := fun m => execGirthKeyExchange_inTime (m := m) ha hl h5 hd
    refine ⟨fun b h => ?_, fun b h => ?_, fun h hk h0 => ?_, fun h => ⟨?_, ?_⟩, fun h => ?_⟩
    · exact (e _).trans (congrArg _ (if_pos h))
    · exact (e _).trans (congrArg _ (if_pos h))
    · exact (e _).trans (congrArg _ ((if_neg (not_not_intro hk)).trans (if_neg h0)))
    · exact (e _).trans (congrArg _ ((if_neg (not_not_intro h)).trans (if_pos rfl)))
    · exact (e _).trans (congrArg _ ((if_neg (not_not_intro h)).trans (if_neg (by decide))))
    · exact (e _).trans (congrArg _ (if_neg (not_not_intro h)))
  · show execChipletError port c s = _
    rw [execChipletError, if_pos (by simp [ha, show (portGet s port.val).linked = true from hl])]
    rfl
  · have hw := writable_of ha hs
    obtain ⟨h1, h2, h3⟩ := execGpStart_writable (port := port) hw
    obtain ⟨h4, h5⟩ := execGpStop_writable (port := port) hw
    refine ⟨h1, h2, h3, h4, h5, ?_⟩
    show execGpFence port s = _
    rw [execGpFence, if_pos hw]
  · exact (execGpPwrgd_powered ha hp).trans (congrArg _ (if_neg h1))
  · exact (execGirthTrainDone_step ha h2).trans (congrArg _ (inStep_late hd))
  · exact (execReady_step ha hl h6).trans (congrArg _ (inStep_late hd))

end Sys2Proof.Machine
end

section
/-!
PROOFS of O47: a chiplet's accesses to the host, its items and their aborts.
-/
namespace Sys2Proof.Machine

section
variable {s : State} {port : Port} (ho : portOpen s port.val = true)
include ho

/-! ### Accesses -/

theorem hostAccess_reused {txn : BitVec 12} {ctx : Ctx} {line : BitVec 46} {d : LineData} {m : W64} {poison : Bool}
    (ht : ∃ t ∈ (portGet s port.val).txns, t.txn = txn) :
    execHRd port txn ctx line d poison s = .next (raise (2868 + 8 * port.val + 2) .uc 0 s) ∧
      execHWr port txn ctx line d m s = .next (raise (2868 + 8 * port.val + 2) .uc 0 s) := by
  have hu : (portGet s port.val).txns.any (fun t => t.txn = txn) = true := by simpa using ht
  unfold execHRd execHWr
  dsimp only
  rw [if_neg (by simp [ho]), if_pos hu, if_neg (by simp [ho]), if_pos hu]
  exact ⟨rfl, rfl⟩

section
variable {txn : BitVec 12} (ht : ∀ t ∈ (portGet s port.val).txns, t.txn ≠ txn)
include ht

theorem execHRd_fresh {ctx : Ctx} {line : BitVec 46} {d : LineData} {poison : Bool} :
    execHRd port txn ctx line d poison s = .next (
      match hostNack s port.val ctx.val line with
      | some r => nackPort port.val txn r s
      | none =>
        match dcHostRead (3 + port.val) line d poison s with
        | some (l, s1) => girthSend port.val (.data txn true l.data l.poison) s1
        | none => s) := by
  unfold execHRd
  dsimp only
  rw [if_neg (by simp [ho]), if_neg (by simpa using ht)] <;> rfl

theorem execHWr_fresh {ctx : Ctx} {line : BitVec 46} {d : LineData} {m : W64} :
    execHWr port txn ctx line d m s = .next (
      match hostNack s port.val ctx.val line with
      | some r => nackPort port.val txn r s
      | none =>
        match dcStoreIn (3 + port.val) false line d m s with
        | some s1 => releaseCmps (girthSend port.val (.cmp txn 0 0 false) s1)
        | none => s) := by
  unfold execHWr
  dsimp only
  rw [if_neg (by simp [ho]), if_neg (by simpa using ht)] <;> rfl

end

end

/-- Why a chiplet's access to the host is refused: no item of the context, or outside its windows. -/
theorem hostNack_eq (s : State) (n ctx : Nat) (line : BitVec 46) :
    let known := ∃ i ∈ (portGet s n).items, i.sent = true ∧ i.ctx = ctx
    let inside := bmeOn s = true ∧ ∃ w ∈ (portGet s n).hwin, w.en = true ∧ w.base.toNat ≤ line.toNat / 64 ∧ line.toNat / 64 ≤ w.last.toNat
    (¬ known → hostNack s n ctx line = some 1) ∧ (known → ¬ inside → hostNack s n ctx line = some 4) ∧
      (known → inside → hostNack s n ctx line = none) := by
  intro known inside
  have hk : (!(portGet s n).items.any (fun i => i.sent && i.ctx = ctx)) = true ↔ ¬ known := by
    rw [Bool.not_eq_true', ← Bool.not_eq_true]
    simp [known]
  have hi : (!bmeOn s || !(portGet s n).hwin.any (fun w => w.en && w.base.toNat ≤ line.toNat / 64 && line.toNat / 64 ≤ w.last.toNat)) = true ↔
      ¬ inside := by
    rw [← Bool.not_and, Bool.not_eq_true', ← Bool.not_eq_true]
    simp [inside, and_assoc]
  refine ⟨fun h => if_pos (hk.2 h), fun h h2 => ?_, fun h h2 => ?_⟩
  · exact (if_neg (fun hn => hk.1 hn h)).trans (if_pos (hi.2 h2))
  · exact (if_neg (fun hn => hk.1 hn h)).trans (if_neg (fun hn => hi.1 hn h2))

/-! ### Items -/

section
variable {s : State} {port : Port} (ho : portOpen s port.val = true)
include ho

theorem execOffloadItemSend_room {t : Item} (h1 : ((portGet s port.val).items.filter (·.sent)).length < 1024)
    (h2 : ((portGet s port.val).items.filter (·.sent)).length < (portGet s port.val).itemsMax.toNat)
    (hf : (portGet s port.val).items.find? (fun t => !t.sent) = some t) :
    execOffloadItemSend port s = .next (count (2496 + 8 * port.val + 5) (girthSend port.val (.item t.bytes)
      (portSet port.val { portGet s port.val with
        items := modFirst (fun x => !x.sent) (fun x => { x with sent := true }) (portGet s port.val).items } s))) := by
  have hroom : ¬ min 1024 (portGet s port.val).itemsMax.toNat ≤ ((portGet s port.val).items.filter (·.sent)).length := by omega
  unfold execOffloadItemSend
  dsimp only
  rw [if_neg (by simpa [ho] using hroom), hf]

theorem execOffloadCmp_inTime {tag : W32} {st : Byte}
    (hd : ∀ t ∈ (portGet s port.val).items, t.tag = tag → t.aborted.isSome = true ∨ s.ticks < t.deadline) :
    execOffloadCmp port tag st s = .next (
      match (portGet s port.val).items.find? (fun t => t.sent && t.tag = tag) with
      | none => count (2496 + 8 * port.val + 4) s
      | some t =>
        if t.aborted.isSome then releaseCmp port.val tag st s
        else if (portGet s port.val).cmpWait.any (fun w => w.1 = tag) then count (2496 + 8 * port.val + 4) s
        else releaseCmps (dcFence (3 + port.val) (portSet port.val
          { portGet s port.val with cmpWait := (portGet s port.val).cmpWait ++ [(tag, st, openWrites s port.val, s.coh.fenceCtr)] } s))) := by
  have hover : itemOverdue port.val tag s = s := by
    unfold itemOverdue
    split
    · rename_i t hf
      have hp := List.find?_some hf
      simp only [Bool.and_eq_true, decide_eq_true_eq, Option.isNone_iff_eq_none] at hp
      rcases hd t (List.mem_of_find?_eq_some hf) hp.1 with h | h
      · simp [hp.2] at h
      · rw [if_neg (by simp [due, h])]
    · rfl
  unfold execOffloadCmp
  dsimp only
  rw [if_neg (by simp [ho]), hover] <;> rfl

theorem execAbortDone_awaited {tag : W32} (ht : ∃ t ∈ (portGet s port.val).items, t.tag = tag ∧ t.aborted.isSome = true)
    (hd : ∀ t ∈ (portGet s port.val).items, ∀ d, t.aborted = some d → s.ticks < d) :
    execAbortDone port tag s = .next (dropItem port.val tag s) := by
  have hover : abortOverdue port.val s = s := by
    unfold abortOverdue
    dsimp only
    rw [if_neg]
    rw [Bool.not_eq_true, List.any_eq_false]
    intro t hm
    cases ha : t.aborted with
    | none => simp
    | some d => simpa [due] using hd t hm d ha
  unfold execAbortDone
  dsimp only
  rw [if_neg (by simp [ho]), if_pos (by simpa using ht), hover]

theorem execAbortDone_unknown {tag : W32} (ht : ∀ t ∈ (portGet s port.val).items, t.tag = tag → t.aborted = none) :
    execAbortDone port tag s = .next (count (2496 + 8 * port.val + 4) s) := by
  unfold execAbortDone
  dsimp only
  rw [if_neg (by simp [ho]), if_neg]
  rw [Bool.not_eq_true, List.any_eq_false]
  intro t hm
  by_cases h : t.tag = tag
  · simp [ht t hm h]
  · simp [h]

end

section
variable {s : State} {port : Port} (ha : alive s = true)
include ha

/-- A quiescing port whose time is up raises its abort source and is fenced, also by a QUIESCE_DONE that comes too late. -/
theorem quiesce_overrun {d : Nat} (hst : (portGet s port.val).st = .quiescing) (hq : (portGet s port.val).quiesceBy = some d)
    (hd : d ≤ s.ticks) :
    execAbortTicksExpiry port s = .next (fencePort port.val (raise (2868 + 8 * port.val + 5) .uc 0 s)) ∧
      execQuiesceDone port s = .next (fencePort port.val (raise (2868 + 8 * port.val + 5) .uc 0 s)) := by
  unfold execAbortTicksExpiry execQuiesceDone
  dsimp only
  rw [hq, if_neg (by simp [ha]), if_pos (by simp [hst, due, hd]), if_neg (by simp [ha, hst]), if_pos (by simp [due, hd])]
  exact ⟨rfl, rfl⟩

theorem execAbortTicksExpiry_item {t : Item} {d : Nat} (hst : (portGet s port.val).st ≠ .quiescing)
    (hi : (portGet s port.val).items = [t]) (hab : t.aborted = some d) (hd : d ≤ s.ticks) :
    execAbortTicksExpiry port s = .next (raise (2868 + 8 * port.val + 5) .uc 0
      (portSet port.val { portGet s port.val with items := [{ t with aborted := some (after s.girth.abortTicks.toNat s) }] } s)) := by
  have hl : (t.aborted.any fun d => due d s) = true := by simp [hab, due, hd]
  unfold execAbortTicksExpiry abortOverdue
  dsimp only
  rw [if_neg (by simp [ha]), if_neg (by simp [hst]), hi, if_pos (by rw [List.any_cons, hl, Bool.true_or]), List.map_singleton, if_pos hl]
  rfl

end

/-- Settles O47. -/
theorem chipletAccessesAndItems : Obligations.ChipletAccessesAndItems := by
  intro s port ha n p
  refine ⟨fun hup => ?_, fun d => quiesce_overrun ha, fun t d => execAbortTicksExpiry_item ha⟩
  have ho : portOpen s port.val = true := by
    rw [portOpen, ha, Bool.true_and, Bool.or_eq_true, decide_eq_true_eq, decide_eq_true_eq]
    exact hup
  refine ⟨fun txn ctx line d m poison => ⟨hostAccess_reused ho, fun ht => ?_⟩, fun t => execOffloadItemSend_room ho,
    fun tag st => ⟨fun hd hf => ?_, fun t hf => ⟨fun hab hall => ?_, fun hab hall hw => ?_⟩, execAbortDone_awaited ho, execAbortDone_unknown ho⟩⟩
  · have er := fun ctx line d poison => execHRd_fresh ho ht (ctx := ctx) (line := line) (d := d) (poison := poison)
    have ew := fun ctx line d m => execHWr_fresh ho ht (ctx := ctx) (line := line) (d := d) (m := m)
    obtain ⟨h1, h4, h0⟩ := hostNack_eq s port.val ctx.val line
    refine ⟨fun hk => ⟨?_, ?_⟩, fun hk hi => ⟨?_, ?_⟩, fun hk hi => ⟨fun l u hl => ?_, fun u hu => ?_⟩⟩
    · exact (er ctx line d poison).trans (congrArg _ (by rw [h1 hk] <;> rfl))
    · exact (ew ctx line d m).trans (congrArg _ (by rw [h1 hk] <;> rfl))
    · exact (er ctx line d poison).trans (congrArg _ (by rw [h4 hk hi] <;> rfl))
    · exact (ew ctx line d m).trans (congrArg _ (by rw [h4 hk hi] <;> rfl))
    · exact (er ctx line d poison).trans (congrArg _ (by rw [h0 hk hi, hl] <;> rfl))
    · exact (ew ctx line d m).trans (congrArg _ (by rw [h0 hk hi, hu] <;> rfl))
  · refine (execOffloadCmp_inTime ho (fun t hm he => .inr (hd t hm he))).trans (congrArg _ ?_)
    rw [hf] <;> rfl
  · refine (execOffloadCmp_inTime ho (fun t hm he => .inl (hall t hm he))).trans (congrArg _ ?_)
    rw [hf]
    exact if_pos hab
  · refine (execOffloadCmp_inTime ho (fun t hm he => .inr (hall t hm he))).trans (congrArg _ ?_)
    rw [hf]
    exact (if_neg (by simp [hab])).trans (if_neg (by simpa using fun x y z hm => hw (tag, x, y, z) hm rfl))

end Sys2Proof.Machine
end

section
/-!
PROOFS of O48: deck requests without an answer, and power domains.
-/
namespace Sys2Proof.Machine

/-! ### Deck requests -/

section
variable {s : State} {u dest : BitVec 9} {ttag : W16} {line : LineAddr} {w resent : Bool} (ha : alive s = true)
  (hu : validUnit u.toNat = true)
include ha hu

theorem execDeckTimeout_open (hd : validUnit dest.toNat = true)
    (hq : ∀ q ∈ s.deck.quarantine, ¬ (q.1 = u.toNat ∧ q.2.1 = ttag.toNat)) :
    let s1 := raise (2195 + homeNode u.toNat) .uc (u.toNat * 65536 + dest.toNat) s
    execDeckTimeout u ttag dest line w resent s = .next (deckOutcome u.toNat dest.toNat line w resent
      { s1 with deck := { s1.deck with quarantine := s1.deck.quarantine ++ [(u.toNat, ttag.toNat, after (4 * deckTimer s1) s1)] } }) := by
  have hno : s.deck.quarantine.any (fun q => q.1 = u.toNat && q.2.1 = ttag.toNat) = false := by
    rw [List.any_eq_false]
    intro q hm
    simpa using hq q hm
  unfold execDeckTimeout
  dsimp only
  rw [hno, if_neg (by simp [ha, hu, hd])]

theorem execDomainOff_off {d : Nat} (hd : unitDomain dest.toNat = some d) (hs : (pdGet s d).st ≠ .on) :
    execDomainOff u ttag dest line w resent s = .next (deckOutcome u.toNat dest.toNat line w resent s) := by
  unfold execDomainOff
  rw [hd]
  dsimp only
  rw [if_pos (by simp [ha, hu, hs])]

end

section
variable {s : State} {u dest : Nat} {line : LineAddr} {w resent : Bool}

theorem deckOutcome_again (h0 : 320 ≤ dest) (h1 : dest < 384) (hr : s.coh.qmoves ≠ [] ∨ resent = false) :
    deckOutcome u dest line w resent s = s := by
  refine if_pos ?_
  simpa [h0, h1] using hr

variable (hd : ¬ (320 ≤ dest ∧ dest < 384))
include hd

theorem deckOutcome_final : ¬ (320 ≤ dest && dest < 384 && (!s.coh.qmoves.isEmpty || !resent)) = true := by
  intro h
  simp only [Bool.and_eq_true, decide_eq_true_eq] at h
  exact hd h.1

theorem deckOutcome_pier {r : Run} {i : Nat} (hu : u < 320) (hf : s.piers.runs.find? (fun r => (runOnPier s u r).isSome) = some r)
    (hi : runOnPier s u r = some i) : deckOutcome u dest line w resent s = haltRun r.id i 3 u s := by
  rw [deckOutcome, if_neg (deckOutcome_final hd), if_pos hu, hf]
  dsimp only
  rw [hi]
  rfl

theorem deckOutcome_cache {f : DcFill} (h0 : 384 ≤ u) (h1 : u < 400) (hf : s.coh.fills.find? (fun f => f.line = line) = some f) :
    let t := { s with coh := { s.coh with fills := dropFirst (· = f) s.coh.fills } }
    (f.engine = none → deckOutcome u dest line w resent s = emit (.interiorData true line.toNat 0 true) t) ∧
      (∀ e, f.engine = some e → deckOutcome u dest line w resent s = xferGot e line 0 true t) := by
  intro t
  rw [deckOutcome, if_neg (deckOutcome_final hd), if_neg (by omega), if_neg (by omega), if_pos h1, hf]
  dsimp only
  exact ⟨fun he => by rw [he], fun e he => by rw [he]⟩

theorem deckOutcome_engine (h0 : 416 ≤ u) (h1 : u < 480) : deckOutcome u dest line w resent s = failXfer (u - 416) 7 s := by
  rw [deckOutcome, if_neg (deckOutcome_final hd), if_neg (by omega), if_neg (by omega), if_neg (by omega), if_neg (by omega),
    if_pos (by simp [h0, h1])]

theorem deckOutcome_host : deckOutcome 0x1E8 dest line w resent s = if w then count 2555 s else emit (.memData line 0 true) s := by
  rw [deckOutcome, if_neg (deckOutcome_final hd), if_neg (by decide), if_neg (by decide), if_neg (by decide), if_neg (by decide),
    if_neg (by decide), if_pos (by decide), outsideLost, if_pos rfl]

end

/-! ### The quarantine -/

/-- The entry that an expiry of a tag takes out of the quarantine. -/
def quarantineGone (u : BitVec 9) (ttag : W16) (late : Bool) (s : State) (q : Nat × Nat × Nat) : Bool :=
  q.1 = u.toNat && q.2.1 = ttag.toNat && (late || due q.2.2 s)

section
variable {s : State} {u : BitVec 9} {ttag : W16} (ha : alive s = true)
include ha

theorem execTtagQuarantineExpiry_timer :
    ∃ t, execTtagQuarantineExpiry u (.timer ttag) s = .next t ∧ t = { s with deck := { s.deck with quarantine := t.deck.quarantine } } ∧
      ∀ q, q ∈ t.deck.quarantine ↔ q ∈ s.deck.quarantine ∧ ¬ (q.1 = u.toNat ∧ q.2.1 = ttag.toNat ∧ q.2.2 ≤ s.ticks) := by
  have hgone : ∀ q, quarantineGone u ttag false s q = true ↔ (q.1 = u.toNat ∧ q.2.1 = ttag.toNat ∧ q.2.2 ≤ s.ticks) := by
    simp [quarantineGone, due, and_assoc]
  by_cases h : s.deck.quarantine.any (quarantineGone u ttag false s) = true
  · refine ⟨{ s with deck := { s.deck with quarantine := s.deck.quarantine.filter (fun q => !quarantineGone u ttag false s q) } }, ?_, rfl,
      fun q => ?_⟩
    · unfold execTtagQuarantineExpiry
      refine congrArg _ ((if_neg ?_).trans (if_neg (by decide)))
      show ¬ (!alive s || !s.deck.quarantine.any (quarantineGone u ttag false s)) = true
      rw [h, ha]
      decide
    · rw [List.mem_filter, Bool.not_eq_true', ← Bool.not_eq_true, hgone]
  · refine ⟨s, ?_, rfl, fun q => ⟨fun hm => ⟨hm, fun hq => ?_⟩, fun hq => hq.1⟩⟩
    · unfold execTtagQuarantineExpiry
      refine congrArg _ (if_pos ?_)
      show (!alive s || !s.deck.quarantine.any (quarantineGone u ttag false s)) = true
      rw [Bool.eq_false_iff.2 h, ha]
      rfl
    · exact h (List.any_eq_true.2 ⟨q, hm, (hgone q).2 hq⟩)

theorem execTtagQuarantineExpiry_late (hq : ∃ q ∈ s.deck.quarantine, q.1 = u.toNat ∧ q.2.1 = ttag.toNat) :
    ∃ t, execTtagQuarantineExpiry u (.late ttag) s = .next t ∧
      t = count (1728 + 2 * homeNode u.toNat + 1) { s with deck := { s.deck with quarantine := t.deck.quarantine } } ∧
      ∀ q, q ∈ t.deck.quarantine ↔ q ∈ s.deck.quarantine ∧ ¬ (q.1 = u.toNat ∧ q.2.1 = ttag.toNat) := by
  have hgone : ∀ q, quarantineGone u ttag true s q = true ↔ (q.1 = u.toNat ∧ q.2.1 = ttag.toNat) := by
    simp [quarantineGone]
  have hany : s.deck.quarantine.any (quarantineGone u ttag true s) = true := by
    obtain ⟨q, hm, he⟩ := hq
    exact List.any_eq_true.2 ⟨q, hm, (hgone q).2 he⟩
  let t0 : State := { s with deck := { s.deck with quarantine := s.deck.quarantine.filter (fun q => !quarantineGone u ttag true s q) } }
  have hdeck : (count (1728 + 2 * homeNode u.toNat + 1) t0).deck = t0.deck := by
    obtain ⟨o, e⟩ := countN_eq (1728 + 2 * homeNode u.toNat + 1) 1 t0
    rw [count, e]
  refine ⟨count (1728 + 2 * homeNode u.toNat + 1) t0, ?_, by rw [hdeck], fun q => ?_⟩
  · unfold execTtagQuarantineExpiry
    exact congrArg _ ((if_neg (by simpa [ha, quarantineGone] using hany)).trans (if_pos rfl))
  · rw [hdeck, List.mem_filter, Bool.not_eq_true', ← Bool.not_eq_true, hgone]

end

/-! ### Power domains -/

theorem pdSet_sameState {n : Nat} {x : Pd} {s : State} (h : (pdGet s n).st = x.st) : pdSet n x s = pdPut n x s := if_pos h

/-- A domain stored twice with the same values is as stored once. -/
theorem pdSet_again (n : Nat) (x : Pd) (s : State) : pdSet n x (pdSet n x s) = pdSet n x s := by
  rw [pdSet_sameState (by rw [pdGet_pdSet_self])]
  obtain ⟨o, e⟩ := pdSet_eq n x s
  rw [e]
  exact congrArg (fun t : State => { t with obs := o }) (pdPut_pdPut n x x s)

/-- Fields stored first, and the change of state after. -/
theorem pdSet_pdSet_sameState {n : Nat} {x y : Pd} {s : State} (h : (pdGet s n).st = x.st) : pdSet n y (pdSet n x s) = pdSet n y s := by
  rw [pdSet_sameState h]
  unfold pdSet
  dsimp only
  rw [pdGet_pdPut_self, pdPut_pdPut, h]

theorem deck_pdSet (n : Nat) (x : Pd) (s : State) :
    (pdSet n x s).deck = { s.deck with pds := tset (fun _ => {}) s.deck.pds n x } := by
  obtain ⟨o, e⟩ := pdSet_eq n x s
  rw [e]
  rfl

section
variable {s : State} {n : Nat}

theorem Pd.fencing_false {x : Pd} (h : x.fencing = false) : x.st ≠ .fenced ∧ x.fence = none := by
  simpa [Pd.fencing] using h

/-- A write of REQ during a transition waits. -/
theorem pdWrite_transition {b : Bool} (hf : (pdGet s n).fence = none) (ht : (pdGet s n).st = .closing ∨ (pdGet s n).st = .waking) :
    pdWrite n b s = pdSet n { pdGet s n with req := b, waiting := some b } s := by
  refine if_pos ?_
  rcases ht with h | h <;> simp [Pd.fencing, hf, h]

section
variable (hf : (pdGet s n).fencing = false) (hq : n ∉ s.deck.wakeQueue)
include hf hq

omit hf in
/-- A write of REQ outside a transition is a request at once. -/
theorem pdWrite_settled {b : Bool} (ht : (pdGet s n).st = .on ∨ (pdGet s n).st = .off) :
    pdWrite n b s = if b then requestOff n s else requestOn n s := by
  refine if_neg ?_
  rcases ht with h | h <;> simp [hq, h]

theorem pdWrite_on (hon : (pdGet s n).st = .on) :
    (offError n s = 0 → pdWrite n true s = closeDomain n (pdSet n { pdGet s n with req := true, errCode := 0 } s)) ∧
      (offError n s ≠ 0 → pdWrite n true s =
        countIgnored (0x61000 + 4 * n) (pdSet n { pdGet s n with errCode := BitVec.ofNat 8 (offError n s) } s)) ∧
      pdWrite n false s = pdSet n { pdGet s n with req := false, errCode := 0 } s := by
  refine ⟨fun h => ?_, fun h => ?_, ?_⟩
  · rw [pdWrite_settled hq (.inl hon), if_pos rfl, requestOff]
    dsimp only
    rw [if_neg (by simp [h]), if_pos hon]
  · rw [pdWrite_settled hq (.inl hon), if_pos rfl, requestOff]
    dsimp only
    rw [if_pos h, pdRefuse]
  · rw [pdWrite_settled hq (.inl hon), if_neg (by decide), requestOn, if_neg (by simp [hf])]
    dsimp only
    rw [if_neg (by simp [hon])]

theorem pdWrite_wakes (hoff : (pdGet s n).st = .off)
    (h24 : ((pdSet n { pdGet s n with req := false, errCode := 0 } s).deck.pds.filter (fun e => e.2.st = .waking)).length < 24) :
    pdWrite n false s = pdSet n { pdGet s n with req := false, errCode := 0, wakeBy := after 1000 s, st := .waking } s := by
  have hticks : after 1000 (pdSet n { pdGet s n with req := false, errCode := 0 } s) = after 1000 s :=
    congrArg (· + 1 + 1000) (pdSet_ticks n _ s)
  rw [pdWrite_settled hq (.inr hoff), if_neg (by decide), requestOn, if_neg (by simp [hf])]
  dsimp only
  rw [if_pos (by simp [hoff, hq]), wakeDomain]
  dsimp only
  rw [if_pos h24, pdGet_pdSet_self, hticks, pdSet_pdSet_sameState (by rfl)]

end

theorem offError_quarter (hf : (pdGet s n).fencing = false) (h0 : 320 ≤ n) (h1 : n < 324) : offError n s = 1 := by
  rw [offError]
  dsimp only
  rw [if_neg (by simp [hf]), if_pos (by simp [h0, h1])]

theorem offError_pier (hf : (pdGet s n).fencing = false) (h0 : n < 320) (hu : pierInUse s n = true) : offError n s = 2 := by
  rw [offError]
  dsimp only
  rw [if_neg (by simp [hf]), if_neg (by simp; omega), if_pos (by simp [h0, hu])]

/-- A transition that no request waited for just ends. -/
theorem transitionEnd_none (h : (pdGet s n).waiting = none) : transitionEnd n s = pdSet n { pdGet s n with waiting := none } s := by
  rw [transitionEnd]
  dsimp only
  rw [h]

/-- A domain just stored, with no request waiting. -/
theorem transitionEnd_stored {x : Pd} (h : x.waiting = none) : transitionEnd n (pdSet n x s) = pdSet n x s := by
  have hx : ({ x with waiting := none } : Pd) = x := by
    rw [← h]
  rw [transitionEnd_none (by rw [pdGet_pdSet_self]; exact h), pdGet_pdSet_self, hx, pdSet_again]

theorem execDomainPowerDrop_closing {d : Domain} (ha : alive s = true) (hst : (pdGet s d.val).st = .closing) (hq : quiet d.val s = true)
    (hr : ∀ r ∈ s.faults.resets, r.block ≠ .domain d) :
    execDomainPowerDrop d s = .next (
      match (pdGet s d.val).fence with
      | some (src, _) => fenceEnd d.val src s
      | none =>
        let s1 := pdSet d.val { pdGet s d.val with st := .off } s
        transitionEnd d.val (if d.val < 320 then stopPier d.val s1 else s1)) := by
  unfold execDomainPowerDrop
  dsimp only
  rw [if_neg (by simpa [ha, hst, hq] using hr)] <;> rfl

theorem resample_idle {d : Nat} (h : ∀ e ∈ s.faults.sources, srcDomain e.1 = some d → e.2.asserted = 0) : resample d s = s := by
  have hf : s.faults.sources.filter (fun e => srcDomain e.1 = some d && e.2.asserted ≠ 0) = [] := by
    rw [List.filter_eq_nil_iff]
    intro e hm
    by_cases hd : srcDomain e.1 = some d
    · simp [h e hm hd]
    · simp [hd]
  rw [resample, hf]
  rfl

theorem nextWake_empty (h : s.deck.wakeQueue = []) : nextWake s = s := by
  rw [nextWake, h]

theorem nextWake_first {m : Nat} {rest : List Nat} (h : s.deck.wakeQueue = m :: rest) :
    nextWake s = pdSet m { pdGet s m with st := .waking } { s with deck := { s.deck with wakeQueue := rest } } := by
  rw [nextWake, h]

theorem execDomainWakeEnd_waking {d : Domain} (ha : alive s = true) (hst : (pdGet s d.val).st = .waking) :
    execDomainWakeEnd d s = .next (transitionEnd d.val (resample d.val (nextWake (pdSet d.val { pdGet s d.val with st := .on, wakeBy := 0 } s)))) := by
  unfold execDomainWakeEnd
  dsimp only
  rw [if_neg (by simp [ha, hst])]

end

/-! ### Route banks -/

theorem execRouteRetire_gone {s : State} (ha : alive s = true) (hb : s.deck.reconfBusy = true) (hg : oldFlitsGone s = true) :
    execRouteRetire s = .next (
      let s1 := trace 0x09 uObserve (b2n !s.deck.routeVer) 0
        { s with deck := { s.deck with reconfBusy := false, routeVer := !s.deck.routeVer } }
      match s.deck.pendingMap with
      | [] => s1
      | m :: rest => routeWrite m { s1 with deck := { s1.deck with pendingMap := rest } }) := by
  unfold execRouteRetire
  rw [if_neg (by simp [ha, hb, hg])]
  dsimp only
  obtain ⟨o, e⟩ := trace_eq 0x09 uObserve (b2n !s.deck.routeVer) 0
    { s with deck := { s.deck with reconfBusy := false, routeVer := !s.deck.routeVer } }
  rw [e] <;> cases s.deck.pendingMap <;> rfl

/-- Settles O48. -/
theorem deckRequestsAndPowerDomains : Obligations.DeckRequestsAndPowerDomains := by
  intro s ha
  refine ⟨fun u dest ttag line w resent hu => ⟨execDeckTimeout_open (ttag := ttag) ha hu, fun d => execDomainOff_off (ttag := ttag) ha hu⟩,
    fun u dest line w resent => ⟨deckOutcome_again, fun hd => ⟨fun r i => deckOutcome_pier hd, fun f => deckOutcome_cache hd,
      deckOutcome_engine hd, deckOutcome_host hd, deckOutcome_host hd⟩⟩,
    fun u ttag => ⟨execTtagQuarantineExpiry_timer ha, execTtagQuarantineExpiry_late ha⟩,
    fun d hs => ?_, fun d => ⟨fun hst hq hr => ⟨fun src t hf => ?_, fun hf hn hw t ht hwt => ?_, fun hf hn hw => ?_⟩,
      fun hst hw hsrc => ⟨fun hq => ?_, fun m rest hq hm => ?_⟩⟩,
    fun hb hg => ⟨fun hp => ?_, fun m rest hp => ?_⟩⟩
  · have hwr := writable_of ha hs
    have eoff : execPdReqOff d s = .next (pdWrite d.val true s) := by rw [execPdReqOff, if_pos hwr]
    have eon : execPdReqOn d s = .next (pdWrite d.val false s) := by rw [execPdReqOn, if_pos hwr]
    refine ⟨fun hf ht b => ?_, fun hf hq => ⟨fun hon => ?_, fun hon => ?_, fun hoff h24 => ?_⟩, offError_quarter, offError_pier⟩
    · cases b
      · exact eon.trans (congrArg _ (pdWrite_transition hf ht))
      · exact eoff.trans (congrArg _ (pdWrite_transition hf ht))
    · obtain ⟨h0, h1, -⟩ := pdWrite_on hf hq hon
      exact ⟨fun h => eoff.trans (congrArg _ (h0 h)), fun h => eoff.trans (congrArg _ (h1 h))⟩
    · exact eon.trans (congrArg _ (pdWrite_on hf hq hon).2.2)
    · exact eon.trans (congrArg _ (pdWrite_wakes hf hq hoff h24))
  · refine (execDomainPowerDrop_closing ha hst hq hr).trans (congrArg _ ?_)
    rw [hf]
  · refine (execDomainPowerDrop_closing ha hst hq hr).trans (congrArg _ ?_)
    rw [hf]
    dsimp only
    rw [if_pos hn, show stopPier d.val (pdSet d.val { pdGet s d.val with st := .off } s) = t from ht]
    exact transitionEnd_none hwt
  · have h := execDomainPowerDrop_closing ha hst hq hr
    rw [hf] at h
    dsimp only at h
    rw [if_neg (Nat.not_lt.2 hn)] at h
    exact h.trans (congrArg _ (transitionEnd_stored (x := { pdGet s d.val with st := .off }) hw))
  · refine (execDomainWakeEnd_waking ha hst).trans (congrArg _ ?_)
    have hnext : nextWake (pdSet d.val { pdGet s d.val with st := .on, wakeBy := 0 } s) =
        pdSet d.val { pdGet s d.val with st := .on, wakeBy := 0 } s := by
      exact nextWake_empty (by rw [deck_pdSet]; exact hq)
    rw [hnext, resample_idle (by rw [pdSet_faults]; exact hsrc)]
    exact transitionEnd_stored (x := { pdGet s d.val with st := .on, wakeBy := 0 }) hw
  · have hnext : nextWake (pdSet d.val { pdGet s d.val with st := .on, wakeBy := 0 } s) =
        (let s1 := pdSet d.val { pdGet s d.val with st := .on, wakeBy := 0 } s
         pdSet m { pdGet s1 m with st := .waking } { s1 with deck := { s1.deck with wakeQueue := rest } }) := by
      exact nextWake_first (by rw [deck_pdSet]; exact hq)
    have hd : pdGet (nextWake (pdSet d.val { pdGet s d.val with st := .on, wakeBy := 0 } s)) d.val =
        { pdGet s d.val with st := .on, wakeBy := 0 } := by
      rw [hnext]
      dsimp only
      rw [pdGet_pdSet_other _ _ (Ne.symm hm)]
      exact pdGet_pdSet_self _ _ s
    have hwait : (pdGet (nextWake (pdSet d.val { pdGet s d.val with st := .on, wakeBy := 0 } s)) d.val).waiting = none := by
      rw [hd]
      exact hw
    have hsrc' : ∀ e ∈ (nextWake (pdSet d.val { pdGet s d.val with st := .on, wakeBy := 0 } s)).faults.sources,
        srcDomain e.1 = some d.val → e.2.asserted = 0 := by
      rw [hnext]
      dsimp only
      rw [pdSet_faults]
      dsimp only
      rw [pdSet_faults]
      exact hsrc
    refine ⟨_, (execDomainWakeEnd_waking ha hst).trans (congrArg _ ((congrArg _ (resample_idle hsrc')).trans (transitionEnd_none hwait))), ?_, ?_, ?_⟩
    · rw [pdGet_pdSet_self, hd]
    · rw [pdGet_pdSet_other _ _ hm, hnext]
      dsimp only
      rw [pdGet_pdSet_self]
    · rw [deck_pdSet, hnext]
      dsimp only
      rw [deck_pdSet]
  · refine (execRouteRetire_gone ha hb hg).trans (congrArg _ ?_)
    rw [hp]
  · obtain ⟨o, e⟩ := trace_eq 0x09 uObserve (b2n !s.deck.routeVer) 0
      { s with deck := { s.deck with reconfBusy := false, routeVer := !s.deck.routeVer } }
    refine ⟨o, (execRouteRetire_gone ha hb hg).trans (congrArg _ ?_)⟩
    rw [hp]
    dsimp only
    rw [e, routeWrite]
    cases hv : s.deck.routeVer <;> rfl

end Sys2Proof.Machine
end

section
/-!
PROOFS of O49: fences and block resets, and the operations of the spandrel.
-/
namespace Sys2Proof.Machine

/-! ### Messages and replies -/

theorem dropMsg_ticks (m : BlockMsg) (s : State) : (dropMsg m s).ticks = s.ticks := by
  obtain ⟨d, o, e⟩ := DeckOnly.fold (fun u t => takePacket_deck 0x190 u .ctl m.source t) (blockUnits m.block) s
  rw [dropMsg]
  dsimp only
  rw [e]

section
variable {s : State} {b : Block} {source : Fin 2944} {m : BlockMsg} (ha : alive s = true)
include ha

theorem execFence_message (hm : blockMsg s b true source.val = some m) :
    execFence b source s = .next (if blockFenced b (dropMsg m s) then dropMsg m s
      else if lastQuarter b (dropMsg m s) then handover (some 3) (dropMsg m s) else fenceBlock b source.val (dropMsg m s)) := by
  unfold execFence
  rw [hm]
  exact congrArg _ (if_neg (by simp [ha]))

theorem execBlkrst_message (hm : blockMsg s b false source.val = some m) (hf : blockFenced b (dropMsg m s) = false)
    (hr : ∀ r ∈ (dropMsg m s).faults.resets, r.block ≠ b) : execBlkrst b source s = .next (resetBlock b source.val (dropMsg m s)) := by
  unfold execBlkrst
  rw [hm]
  exact congrArg _ ((if_neg (by simp [ha])).trans (if_neg (by simpa [hf] using hr)))

theorem execFenceDrainTimeout_due {d : Domain} {src t : Nat} (hf : (pdGet s d.val).fence = some (src, t)) (ht : t ≤ s.ticks) :
    execFenceDrainTimeout d s = .next (fenceEnd d.val src s) := by
  unfold execFenceDrainTimeout
  rw [hf]
  exact congrArg _ (if_pos (by simp [ha, due, ht]))

variable {r : BlockReset} (hr : s.faults.resets.find? (fun r => r.block = b) = some r)
include hr

theorem execBlkrstEnd_inTime {d : Domain} (hb : b = .domain d) (ht : s.ticks < r.deadline) :
    let s1 := blockReply b false r.source { s with faults := { s.faults with resets := s.faults.resets.filter (· ≠ r) } }
    execBlkrstEnd b s = .next (resample d.val (reloadCodebook d.val (copyBack d.val (pdSet d.val { pdGet s1 d.val with st := .on } s1)))) := by
  subst hb
  have hdue : due r.deadline s = false := by simp [due, ht]
  unfold execBlkrstEnd
  rw [hr]
  simp only [hdue, ha]
  rfl

theorem execBlkrstEnd_other (hb : ∀ d, b ≠ .domain d) :
    execBlkrstEnd b s = .next (blockReply b false r.source { s with faults := { s.faults with resets := s.faults.resets.filter (· ≠ r) } }) := by
  unfold execBlkrstEnd
  rw [hr]
  cases b with
  | domain d => exact absurd rfl (hb d)
  | port n => exact congrArg _ (if_neg (by simp [ha]))
  | engine e => exact congrArg _ (if_neg (by simp [ha]))
  | pair => exact congrArg _ (if_neg (by simp [ha]))

theorem execBlkrst_overrun {d : Domain} (hb : b = .domain d) (ht : r.deadline ≤ s.ticks) :
    execBlkrstTimeout b s = .next (resetOverruns d.val r s) ∧ execBlkrstEnd b s = .next (resetOverruns d.val r s) := by
  subst hb
  have hdue : due r.deadline s = true := by simp [due, ht]
  refine ⟨?_, ?_⟩
  · unfold execBlkrstTimeout
    rw [hr]
    exact congrArg _ (if_pos (by simp [ha, hdue]))
  · unfold execBlkrstEnd
    rw [hr]
    simp only [hdue, ha]
    rfl

end

/-! ### The fence of a domain -/

section
variable {s : State} {d : Domain} {src : Nat} (h328 : d.val < 328) (hf : (pdGet s d.val).fencing = false)
  (hq : d.val ∉ s.deck.wakeQueue) (hr : ∀ r ∈ s.faults.resets, r.block ≠ .domain d)
include h328 hf hq hr

/-- The fence of a domain that waits for no wake and has no block reset in progress. -/
theorem fenceBlock_domain : fenceBlock (.domain d) src s =
    if (pdGet s d.val).st = .off then fenceEnd d.val src s
    else
      let s1 := pdSet d.val { pdGet s d.val with st := .closing, waiting := none, fence := some (src, after (deckTimer s) s) } s
      let s1 := if (pdGet s d.val).st = .waking then nextWake s1 else s1
      if d.val < 320 then losePier d.val (stopPier d.val s1)
      else if d.val < 324 then startQmove (d.val - 320) s1
      else closeCache d.val s1 := by
  have hd : domBlock d.val = .domain d := by
    rw [domBlock, show Fin.ofNat 332 d.val = d from Fin.ext (Nat.mod_eq_of_lt d.isLt)]
  have hres : s.faults.resets.filter (fun r => r.block ≠ domBlock d.val) = s.faults.resets := by
    rw [hd]
    exact List.filter_eq_self.2 fun r hm => by simpa using hr r hm
  have hwake : s.deck.wakeQueue.filter (· ≠ d.val) = s.deck.wakeQueue :=
    List.filter_eq_self.2 fun n hm => by
      simp only [ne_eq, decide_not, Bool.not_eq_true', decide_eq_false_iff_not]
      exact fun h => hq (h ▸ hm)
  rw [fenceBlock]
  dsimp only
  rw [fenceDomain, if_neg (by omega), fenceOne]
  dsimp only
  rw [if_neg (by simp [hf]), hres, hwake, if_pos h328]

theorem fenceBlock_off (hst : (pdGet s d.val).st = .off) : fenceBlock (.domain d) src s = fenceEnd d.val src s := by
  rw [fenceBlock_domain h328 hf hq hr, if_pos hst]

theorem fenceBlock_on (hst : (pdGet s d.val).st = .on) :
    let s1 := pdSet d.val { pdGet s d.val with st := .closing, waiting := none, fence := some (src, after (deckTimer s) s) } s
    (d.val < 320 → fenceBlock (.domain d) src s = losePier d.val (stopPier d.val s1)) ∧
      (320 ≤ d.val → d.val < 324 → fenceBlock (.domain d) src s = startQmove (d.val - 320) s1) ∧
      (324 ≤ d.val → fenceBlock (.domain d) src s = closeCache d.val s1) := by
  intro s1
  have e : fenceBlock (.domain d) src s = if d.val < 320 then losePier d.val (stopPier d.val s1)
      else if d.val < 324 then startQmove (d.val - 320) s1 else closeCache d.val s1 := by
    rw [fenceBlock_domain h328 hf hq hr, if_neg (by simp [hst])]
    dsimp only
    rw [if_neg (show ¬ (pdGet s d.val).st = .waking by simp [hst])]
  refine ⟨fun h => ?_, fun h0 h1 => ?_, fun h => ?_⟩
  · rw [e, if_pos h]
  · rw [e, if_neg (by omega), if_pos h1]
  · rw [e, if_neg (by omega), if_neg (by omega)]

end

/-! ### The spandrel -/

theorem spReady_whole {o : SpOp} (h : o.whole = true) : spReady [o] = some o := by
  simp [spReady, h, spHasSlots]

theorem spReady_partial {o : SpOp} (h : o.whole = false) : spReady [o] = none := by
  simp [spReady, h]

/-- An operation alone in the tree whose participants have all joined is released. -/
theorem spReleaseAll_whole {o : SpOp} {s : State} (ho : s.deck.ops = [o]) (h : o.whole = true) : spReleaseAll 1 s = spRelease o s := by
  rw [spReleaseAll, ho, spReady_whole h]
  rfl

theorem spReleaseAll_partial {o : SpOp} {s : State} (ho : s.deck.ops = [o]) (h : o.whole = false) : spReleaseAll 1 s = s := by
  rw [spReleaseAll, ho, spReady_partial h]

/-- The release of an operation other than SNAP changes the tree alone. -/
theorem spRelease_deck {o : SpOp} {s : State} (hk : o.kind ≠ .snap) (ho : s.deck.ops = [o]) :
    spRelease o s = { s with deck := { s.deck with ops := [], released := s.deck.released ++
      [⟨o.id, o.kind, o.first, o.last, o.value, spStages o.kind (spScope o.first o.last).1⟩] } } := by
  rw [spRelease, ho]
  dsimp only
  rw [if_neg (by simp [hk])]
  simp [dropFirst]

section
variable {s : State} {op first last leaf : Nat} (ha : alive s = true) (h0 : first ≤ leaf) (h1 : leaf ≤ last)
include ha h0 h1

/-- The first leaf to join an operation of an empty tree. -/
theorem spJoin_first (hops : s.deck.ops = []) (k : SpKind) (v : W64) :
    spJoin k op first last leaf v s = spReleaseAll 1 { s with deck := { s.deck with ops := [⟨op, k, first, last, [leaf], v⟩] } } := by
  have hv : 18446744073709551615#64 &&& v = v := BitVec.allOnes_and
  unfold spJoin
  rw [if_neg (by simp [ha, h0, h1]), hops]
  simp [modFirst, hv]

theorem spJoin_first_one (hops : s.deck.ops = []) (k : SpKind) (v : W64) :
    (first < last → spJoin k op first last leaf v s = { s with deck := { s.deck with ops := [⟨op, k, first, last, [leaf], v⟩] } }) ∧
      (first = last → spJoin k op first last leaf v s =
        spRelease ⟨op, k, first, last, [leaf], v⟩ { s with deck := { s.deck with ops := [⟨op, k, first, last, [leaf], v⟩] } }) := by
  rw [spJoin_first ha h0 h1 hops]
  refine ⟨fun h => spReleaseAll_partial rfl ?_, fun h => spReleaseAll_whole rfl ?_⟩
  · rw [SpOp.whole, List.all_eq_false]
    by_cases hl : leaf = first
    · exact ⟨1, by simp; omega, by simp; omega⟩
    · exact ⟨0, by simp; omega, by simp; omega⟩
  · have hl : leaf = first := by omega
    subst hl h
    simp [SpOp.whole]

end

theorem execAndOp_last {s : State} {op : Nat} {a b : Bool} (ha : alive s = true)
    (hops : s.deck.ops = [⟨op, .and, 0, 1, [0], BitVec.ofNat 64 (if a then 1 else 0)⟩]) :
    execAndOp op 0 1 1 b s = .next { s with deck := { s.deck with ops := [], released := s.deck.released ++
      [⟨op, .and, 0, 1, BitVec.ofNat 64 (if a && b then 1 else 0), 20⟩] } } := by
  have hv : BitVec.ofNat 64 (if a then 1 else 0) &&& BitVec.ofNat 64 (b2n b) = BitVec.ofNat 64 (if a && b then 1 else 0) := by
    cases a <;> cases b <;> decide
  have hj : spJoin .and op 0 1 1 (BitVec.ofNat 64 (b2n b)) s = spReleaseAll 1 { s with deck := { s.deck with
      ops := [⟨op, .and, 0, 1, [0, 1], BitVec.ofNat 64 (if a && b then 1 else 0)⟩] } } := by
    unfold spJoin
    rw [if_neg (by simp [ha]), hops, ← hv]
    simp [modFirst]
  refine congrArg _ (hj.trans ?_)
  rw [spReleaseAll_whole rfl (by simp [SpOp.whole, List.range_succ]), spRelease_deck (by simp) rfl,
    show spStages .and (spScope 0 1).1 = 20 by decide]

theorem execBcast_empty {s : State} {first last : Fin 384} {v : W64} (ha : alive s = true) (h : first.val ≤ last.val)
    (hops : s.deck.ops = []) : execBcast first last v s = .next { s with deck := { s.deck with ops := [], released := s.deck.released ++
      [⟨0, .bcast, first.val, last.val, v, 8 + 12 * (spScope first.val last.val).1⟩] } } := by
  unfold execBcast
  refine congrArg _ ((if_neg (by rw [ha]; simpa using h)).trans ?_)
  dsimp only
  rw [hops]
  refine (spReleaseAll_whole rfl ?_).trans ?_
  · simp [SpOp.whole]
  · rw [spRelease_deck (by simp) rfl]
    rfl

/-- Settles O49. -/
theorem fencesResetsAndSpandrel : Obligations.FencesResetsAndSpandrel := by
  intro s ha
  refine ⟨fun b source f m hm => ⟨?_, ?_, ?_, ?_⟩, fun d src h328 hf hq hr => ⟨fenceBlock_off h328 hf hq hr, fenceBlock_on h328 hf hq hr⟩,
    fun d src t => execFenceDrainTimeout_due ha,
    fun b r hr => ⟨fun d => execBlkrstEnd_inTime ha hr, execBlkrstEnd_other ha hr, fun d => execBlkrst_overrun ha hr⟩,
    fun op first last leaf bit h0 h1 hops => ?_, fun op l a b h0 h1 hops => ?_,
    fun first last v h hops => ⟨_, execBcast_empty ha h hops, rfl⟩⟩
  · rintro rfl hb
    exact (execFence_message ha hm).trans (congrArg _ (if_pos hb))
  · rintro rfl hb hl
    exact (execFence_message ha hm).trans (congrArg _ ((if_neg (by simp [hb])).trans (if_pos hl)))
  · rintro rfl hb hl
    exact (execFence_message ha hm).trans (congrArg _ ((if_neg (by simp [hb])).trans (if_neg (by simp [hl]))))
  · rintro rfl hb hr
    have e := execBlkrst_message ha hm hb hr
    have ht : after 1000 (dropMsg m s) = after 1000 s := congrArg (· + 1 + 1000) (dropMsg_ticks m s)
    refine ⟨?_, ?_, ?_, ?_⟩
    · rintro d rfl hst
      exact e.trans (congrArg _ (if_pos hst))
    · rintro d rfl hst
      refine e.trans (congrArg _ ((if_neg hst).trans ?_))
      rw [← ht]
    · rintro en rfl hx
      refine e.trans (congrArg _ ?_)
      rw [resetBlock]
      dsimp only
      rw [hx, ht]
    · rintro en x rfl hx
      refine e.trans (congrArg _ ?_)
      rw [resetBlock]
      dsimp only
      rw [hx, ht]
  · exact ⟨⟨fun h => congrArg _ ((spJoin_first_one ha h0 h1 hops .join 0).1 h), fun h => congrArg _ ((spJoin_first_one ha h0 h1 hops .join 0).2 h)⟩,
      ⟨fun h => congrArg _ ((spJoin_first_one ha h0 h1 hops .snap 0).1 h), fun h => congrArg _ ((spJoin_first_one ha h0 h1 hops .snap 0).2 h)⟩,
      ⟨fun h => congrArg _ ((spJoin_first_one ha h0 h1 hops .reset 0).1 h), fun h => congrArg _ ((spJoin_first_one ha h0 h1 hops .reset 0).2 h)⟩,
      ⟨fun h => congrArg _ ((spJoin_first_one ha h0 h1 hops .and _).1 h), fun h => congrArg _ ((spJoin_first_one ha h0 h1 hops .and _).2 h)⟩⟩
  · obtain rfl : l = 1 := Fin.ext (show l.val = 1 by omega)
    exact ⟨_, execAndOp_last ha hops, rfl, rfl⟩

end Sys2Proof.Machine
end

section
/-!
PROOFS of O50: the SPDM responder.
-/
namespace Sys2Proof.Machine

/-! ### Objects and their service -/

section
variable {z : State} (hp : z.host.phyUp = true) (hs : z.power.phase = .served)
include hp hs

/-- An object reaches the security root where configuration space is served. -/
theorem doe_served (f : State → State) : doe f z = f (ringDoorbell 7 0 z) := if_pos (by simp [cfgOpen, hp, hs])

variable {session : SessionId}

section
variable (hl : z.sec.lifecycle = .blank ∨ z.sec.lifecycle = .retired)
include hl

omit hp hs in
theorem fullSpdm_false : fullSpdm (ringDoorbell 7 0 z) = false := by
  rcases hl with h | h <;> simp [fullSpdm, h]

theorem connect_unsupported {need dest : Nat} {r : SpdmRsp} :
    connect session need dest r z = spdmError session "UnsupportedRequest" (ringDoorbell 7 0 z) :=
  (doe_served hp hs _).trans (if_pos (by rw [fullSpdm_false hl]; rfl))

theorem serve_unsupported {f : State → State} : serve session f z = spdmError session "UnsupportedRequest" (ringDoorbell 7 0 z) :=
  (doe_served hp hs _).trans (if_pos (by rw [fullSpdm_false hl]; rfl))

end

section
variable (hl : z.sec.lifecycle = .provisioned ∨ z.sec.lifecycle = .deployed)
include hl

omit hp hs in
theorem fullSpdm_true : fullSpdm (ringDoorbell 7 0 z) = true := by
  rcases hl with h | h <;> simp [fullSpdm, h]

theorem connect_inOrder {need dest : Nat} {r : SpdmRsp} (h : need ≤ z.sec.conn) :
    connect none need dest r z = spdm none r (setConn dest (ringDoorbell 7 0 z)) :=
  (doe_served hp hs _).trans ((if_neg (by simp [fullSpdm_true hl])).trans (if_neg fun hn => Nat.not_lt.2 h (of_decide_eq_true hn)))

theorem connect_early {need dest : Nat} {r : SpdmRsp} (h : z.sec.conn < need) :
    connect none need dest r z = spdmError none "UnexpectedRequest" (ringDoorbell 7 0 z) :=
  (doe_served hp hs _).trans ((if_neg (by simp [fullSpdm_true hl])).trans (if_pos (decide_eq_true h)))

theorem serve_early {f : State → State} (h : z.sec.conn < 3) :
    serve none f z = spdmError none "UnexpectedRequest" (ringDoorbell 7 0 z) :=
  (doe_served hp hs _).trans ((if_neg (by simp [fullSpdm_true hl])).trans (if_pos h))

/-- The mailbox after the negotiation, and a secured session, carry a request to its service. -/
def carriesRequests (s : State) (session : SessionId) : Prop :=
  match session with
  | none => 3 ≤ s.sec.conn
  | some i => ∃ x, sessGet s i.val = some x ∧ x.secured = true

theorem serve_carried {f : State → State} (h : carriesRequests (ringDoorbell 7 0 z) session) :
    serve session f z = f (ringDoorbell 7 0 z) := by
  refine (doe_served hp hs _).trans ((if_neg (by simp [fullSpdm_true hl])).trans ?_)
  cases session with
  | none => exact if_neg (Nat.not_lt.2 h)
  | some i =>
    obtain ⟨x, hx, hsec⟩ := h
    dsimp only
    rw [hx]
    exact if_pos hsec

theorem serveSecured_secured {f : Session → State → State} {i : Fin 16} {x : Session}
    (hx : sessGet (ringDoorbell 7 0 z) i.val = some x) (hsec : x.secured = true) :
    serveSecured (some i) f z = f x (ringDoorbell 7 0 z) := by
  unfold serveSecured
  rw [serve_carried hp hs hl (session := some i) ⟨x, hx, hsec⟩, Option.bind_some, hx]

end

end

/-! ### Sessions -/

theorem id_of_sessGet {s : State} {i : Nat} {x : Session} (h : sessGet s i = some x) : x.id = i := by
  simpa using List.find?_some h

theorem find?_modFirst_id {l : List Session} {x y : Session} {i : Nat} (h : l.find? (fun x => x.id = i) = some x) (hy : y.id = i) :
    (modFirst (fun z => z.id = i) (fun _ => y) l).find? (fun x => x.id = i) = some y := by
  induction l with
  | nil => exact absurd h (by simp)
  | cons a l ih =>
    by_cases ha : a.id = i
    · simp [modFirst, ha, hy]
    · rw [List.find?_cons_of_neg (by simpa using ha)] at h
      simpa [modFirst, ha] using ih h

/-- A session stored under its own number is read back. -/
theorem sessGet_sessPut_self {s : State} {i : Nat} {x y : Session} (h : sessGet s i = some x) (hy : y.id = i) :
    sessGet (sessPut y s) i = some y := by
  subst hy
  exact find?_modFirst_id h rfl

/-! ### Measurements -/

section
variable {session : SessionId} {signed : Bool} {s : State} (hsel : selectedCtx s session = none)
include hsel

/-- Without a selected context there are the eleven blocks of the part. -/
theorem measure_count : measure session 0 signed s = spdm session (.measurements [] signed [11]) s := by
  unfold measure
  rw [hsel]
  rfl

theorem measure_all : measure session 0xFF signed s = spdm session (.measurements [1, 2, 3, 4, 5, 6, 7, 8, 9, 10, 11] signed []) s := by
  unfold measure
  rw [hsel]
  dsimp only
  rw [if_neg (by decide), if_pos rfl]
  cases session.bind (fun i => sessGet s i.val) <;> rfl

theorem measure_block {i : Nat} (h0 : 0 < i) (h1 : i ≤ 11) :
    measure session i signed s = spdm session (.measurements [i] signed []) s := by
  unfold measure
  rw [hsel]
  dsimp only
  rw [if_neg (by omega), if_neg (by omega), if_neg (by simpa [b2n] using h1)]

theorem measure_beyond {i : Nat} (h0 : 11 < i) (h1 : i ≠ 0xFF) : measure session i signed s = spdmError session "InvalidRequest" s := by
  unfold measure
  rw [hsel]
  dsimp only
  rw [if_neg (by omega), if_neg h1, if_pos (by simpa [b2n] using h0)]

end

/-- A signed response of all blocks makes the session's attestation of its selected context current. -/
theorem measure_attests {i : Fin 16} {x : Session} {c : Nat} {s : State} (hx : sessGet s i.val = some x) (hc : x.selected = some c) :
    ∃ y, sessGet (measure (some i) 0xFF true s) i.val = some y ∧ attested (measure (some i) 0xFF true s) y c = true := by
  have hsel : selectedCtx s (some i) = some c := by
    rw [selectedCtx, Option.bind_some, hx, Option.bind_some, hc]
  have e : ∃ o, measure (some i) 0xFF true s = sessPut { x with covered := some (c, stampsNow s c) } { s with out := o } := by
    unfold measure
    rw [hsel, Option.bind_some, hx]
    exact ⟨_, rfl⟩
  obtain ⟨o, e⟩ := e
  rw [e]
  have hg : sessGet { s with out := o } i.val = some x := hx
  exact ⟨{ x with covered := some (c, stampsNow s c) }, sessGet_sessPut_self hg (show x.id = i.val from id_of_sessGet hx), decide_eq_true rfl⟩

/-! ### Chunks -/

section
variable {session : SessionId} {h : Byte} {last : Bool} {b : List Byte} {s : State} (hc : s.sec.chunks = [])
include hc

theorem chunkIn_first (hb : b.length ≤ 4096) : chunkIn session h 0 last b s = emit (.spdm session (.chunkSendAck 0 last))
    { s with sec := { s.sec with chunks := if last then [] else [⟨session, h, 1, b⟩] } } := by
  unfold chunkIn
  dsimp only
  rw [hc, List.find?_nil, Option.getD_none, List.filter_nil, List.nil_append, List.nil_append]
  rw [if_neg (by simp; omega)]
  cases last <;> rfl

theorem chunkIn_outOfOrder {q : W16} (hq : q ≠ 0) : chunkIn session h q last b s = spdmError session "InvalidRequest" s := by
  have hs : ({ s with sec := { s.sec with chunks := [] } } : State) = s := by rw [← hc]
  unfold chunkIn
  dsimp only
  rw [hc, List.find?_nil, Option.getD_none, List.filter_nil, hs]
  refine if_pos ?_
  rw [decide_eq_true (Ne.symm hq)]
  rfl

end

/-! ### Sessions opened and secured -/

/-- The service of KEY_EXCHANGE. -/
def serveKeyExchange (mutualAuth : Bool) (s : State) : State :=
  match findBelow 16 (fun i => (sessGet s i).isNone) with
  | none => spdmError none "SessionLimitExceeded" s
  | some i =>
    let x : Session := ⟨i, false, mutualAuth, 0, none, none, 0⟩
    let t := emit (.spdm none (.keyExchange i mutualAuth)) { s with sec := { s.sec with sessions := s.sec.sessions ++ [x] } }
    if mutualAuth then emit (.spdm (some (Fin.ofNat 16 i)) (.encapsulated false)) t else t

theorem execKeyExchange_eq {mutualAuth : Bool} {z : State} (hp : z.host.phyUp = true) (hs : z.power.phase = .served)
    (hl : z.sec.lifecycle = .provisioned ∨ z.sec.lifecycle = .deployed) (hc : 3 ≤ z.sec.conn) :
    execKeyExchange mutualAuth z = .next (serveKeyExchange mutualAuth (ringDoorbell 7 0 z)) := by
  refine congrArg _ ((serve_carried hp hs hl (session := none) hc).trans ?_)
  cases mutualAuth <;> rfl

theorem serveKeyExchange_full {mutualAuth : Bool} {s : State} (h : ∀ i < 16, (sessGet s i).isSome = true) :
    serveKeyExchange mutualAuth s = spdmError none "SessionLimitExceeded" s := by
  have hf : findBelow 16 (fun i => (sessGet s i).isNone) = none := by
    rw [findBelow, List.find?_eq_none]
    intro i hi
    have := h i (List.mem_range.1 hi)
    simpa [Option.isSome_iff_ne_none] using this
  rw [serveKeyExchange, hf]

section
variable {z : State} {i : Fin 16} {x : Session} (hp : z.host.phyUp = true) (hs : z.power.phase = .served)
  (hx : sessGet (ringDoorbell 7 0 z) i.val = some x) (hsec : x.secured = false)
include hp hs hx hsec

theorem execEncapsulatedResponse_mutual (hm : x.mutualAuth = true) (certificate : Bool) (k : Nat) :
    execEncapsulatedResponse i certificate k z = .next (if certificate then sessPut { x with requester := k } (ringDoorbell 7 0 z)
      else emit (.spdm (some i) (.encapsulated true)) (ringDoorbell 7 0 z)) := by
  refine congrArg _ ((doe_served hp hs _).trans ?_)
  rw [hx]
  exact if_neg (by simp [hsec, hm])

theorem execFinish_handshake (ok : Bool) (k : Nat) :
    execFinish i ok k z = .next (if ok && (!x.mutualAuth || (x.requester ≠ 0 && k = x.requester)) then
        emit (.spdm (some i) .finish) (sessPut { x with secured := true } (ringDoorbell 7 0 z))
      else spdmError (some i) "DecryptError" (sessEnd i.val (ringDoorbell 7 0 z))) := by
  refine congrArg _ ((doe_served hp hs _).trans ?_)
  rw [hx]
  exact if_neg (by simp [hsec])

end

theorem ideGo_sound {stream : IdeStream} {s : State} (h : s.host.ideFailed = none) : ideGo stream s = { s with host :=
    match stream with
    | .cxlIo n => { s.host with ideSecure := withBit s.host.ideSecure n.val }
    | .cacheMem => { s.host with ideMemSecure := true } } := by
  cases stream with
  | cxlIo n =>
    rw [ideGo]
    dsimp only
    rw [if_neg (by simp [h])]
  | cacheMem =>
    rw [ideGo]
    dsimp only
    rw [if_neg (by simp [h])]

/-- Settles O50. -/
theorem spdmServesItsRequests : Obligations.SpdmServesItsRequests := by
  intro z hp hs
  refine ⟨?_, fun i => ?_, fun hl session => ⟨?_, ?_⟩, fun hl => ⟨fun hc => ?_, fun hc => ?_, fun hc => ?_, fun hc => ?_,
      fun session hcar => ?_, fun hc mutualAuth => ⟨fun i hi => ?_, fun hfull => ?_⟩,
      fun i x hx hsec => ⟨?_, ?_, ?_, fun stream => ⟨?_, fun hf => ?_⟩, fun c hsel => ?_⟩⟩,
    fun i x hx hsec => ⟨fun hm k => ⟨?_, ?_⟩, fun k hk => ?_, fun k => ?_⟩⟩
  · exact congrArg _ (doe_served hp hs _)
  · exact congrArg _ (doe_served hp hs _)
  · exact congrArg _ (connect_unsupported hp hs hl)
  · exact congrArg _ (serve_unsupported hp hs hl)
  · exact congrArg _ (connect_inOrder hp hs hl hc)
  · exact congrArg _ (connect_inOrder hp hs hl hc)
  · exact congrArg _ (connect_early hp hs hl hc)
  · exact congrArg _ (serve_early hp hs hl hc)
  · have e : ∀ f, serve session f z = f (ringDoorbell 7 0 z) := fun f => serve_carried hp hs hl hcar
    refine ⟨congrArg _ (e _), fun o l => congrArg _ (e _), fun n => ?_, fun h q => congrArg _ (e _),
      fun hsel signed => ⟨?_, ?_, fun i h0 h1 => ?_, fun i h0 h1 => ?_⟩, fun h last b hch hb => ⟨?_, fun q hq => ?_⟩⟩
    · refine congrArg _ ((e _).trans ?_)
      cases session <;> rfl
    · exact congrArg _ ((e _).trans (measure_count hsel))
    · exact congrArg _ ((e _).trans (measure_all hsel))
    · exact congrArg _ ((e _).trans (measure_block hsel h0 h1))
    · exact congrArg _ ((e _).trans (measure_beyond hsel h0 fun h => h1 (BitVec.eq_of_toNat_eq h)))
    · exact congrArg _ ((e _).trans (chunkIn_first hch hb))
    · exact congrArg _ ((e _).trans (chunkIn_outOfOrder hch hq))
  · refine (execKeyExchange_eq hp hs hl hc).trans (congrArg _ ?_)
    rw [serveKeyExchange, hi]
  · exact (execKeyExchange_eq hp hs hl hc).trans (congrArg _ (serveKeyExchange_full hfull))
  · exact congrArg _ (serveSecured_secured hp hs hl hx hsec)
  · exact congrArg _ (serveSecured_secured hp hs hl hx hsec)
  · refine congrArg _ ((serveSecured_secured hp hs hl hx hsec).trans ?_)
    rw [id_of_sessGet hx]
    rfl
  · exact congrArg _ (serveSecured_secured hp hs hl hx hsec)
  · refine congrArg _ ((serveSecured_secured hp hs hl hx hsec).trans ?_)
    exact congrArg (emit (.spdm (some i) .ideKm)) (ideGo_sound hf)
  · obtain ⟨y, hy, hat⟩ := measure_attests hx hsel
    exact ⟨measure (some i) 0xFF true (ringDoorbell 7 0 z), y,
      congrArg Host.Outcome.next (serve_carried hp hs hl (session := some i) ⟨x, hx, hsec⟩), hy, hat⟩
  · exact execEncapsulatedResponse_mutual hp hs hx hsec hm false k
  · exact execEncapsulatedResponse_mutual hp hs hx hsec hm true k
  · refine (execFinish_handshake hp hs hx hsec true k).trans (congrArg _ (if_pos ?_))
    rcases hk with h | ⟨h0, h1⟩
    · rw [h]
      rfl
    · rw [decide_eq_true h0, decide_eq_true h1, Bool.and_self, Bool.or_true]
      rfl
  · exact (execFinish_handshake hp hs hx hsec false k).trans (congrArg _ (if_neg (by simp)))

end Sys2Proof.Machine
end

section
/-!
PROOFS of O52: power-on, resets, start-up and sensing.
-/
namespace Sys2Proof.Machine

/-! ### Start-up -/

section
variable {ok : Bool} {rails : RailRead} {failed : BitVec 4} {late : List (Fin 332)} {s : State} (hp : s.power.phase = .starting)
include hp

section
variable (hd : s.ticks < stepDue s)
include hd

theorem startStep_inTime : ¬ (s.power.phase ≠ .starting || due (stepDue s) s) = true := by simp [hp, due, hd]

theorem execStartStepEnd_rails (h : s.power.step = 1) :
    execStartStepEnd ok rails failed late s = .next (nextStep (railsRead rails (emit .pmRead s))) := by
  unfold execStartStepEnd
  rw [if_neg (startStep_inTime hp hd), h] <;> rfl

theorem execStartStepEnd_manifest (h : s.power.step = 2) : execStartStepEnd ok rails failed late s = .next (
    if ok && s.sec.minSvn.toNat ≤ Config.manifestSvn.toNat then nextStep { s with sec := { s.sec with fwSvn := Config.manifestSvn } }
    else raise 2941 .ft 0 s) := by
  unfold execStartStepEnd
  rw [if_neg (startStep_inTime hp hd), h] <;> rfl

theorem execStartStepEnd_boot (h : s.power.step = 3) : execStartStepEnd ok rails failed late s = .next (
    bootUp (let t := nextStep (foldS (late.map (·.val)) fenceLate s); { t with milell := { t.milell with booted := true } })) := by
  unfold execStartStepEnd
  rw [if_neg (startStep_inTime hp hd), h] <;> rfl

theorem execStartStepEnd_memory (h : s.power.step = 4) :
    execStartStepEnd ok rails failed late s = .next (nextStep (if s.power.cold then s else wakeUnits 0 1024 s)) := by
  unfold execStartStepEnd
  rw [if_neg (startStep_inTime hp hd), h] <;> rfl

omit hp hd in
theorem trainedStacks_cold (hc : s.power.cold = true) : trainedStacks 0 s = 15 := by
  rw [trainedStacks, if_pos hc]
  decide

/-- A cold start whose stacks all train raises nothing. -/
theorem execStartStepEnd_stacks (h : s.power.step = 5) (hc : s.power.cold = true) :
    execStartStepEnd ok rails 0 late s = .next (nextStep (let t := wakeUnits 1024 64 s
      { t with power := { t.power with retained := { t.power.retained with trained := 15 } } })) := by
  have hnone : (List.range 4).filter (fun i => !(15 : BitVec 4).getLsbD i) = [] := by decide
  unfold execStartStepEnd
  rw [if_neg (startStep_inTime hp hd), h]
  refine congrArg Host.Outcome.next ?_
  show nextStep (foldS ((List.range 4).filter (fun i => !(trainedStacks 0 s).getLsbD i)) _ _) = _
  rw [trainedStacks_cold hc, hnone, if_pos hc]
  rfl

theorem execStartStepEnd_last (h : s.power.step = 6) : execStartStepEnd ok rails failed late s = .next (endStep6 s) := by
  unfold execStartStepEnd
  rw [if_neg (startStep_inTime hp hd), h] <;> rfl

end

theorem execStartStepTimeout_due (hd : stepDue s ≤ s.ticks) : execStartStepTimeout s =
    .next (raise 2941 .ft 0 { s with power := { s.power with phase := .failed, failStep := BitVec.ofNat 3 s.power.step } }) :=
  congrArg _ (if_pos (by simp [hp, due, hd]))

end

section
variable {s : State} (hp : s.power.phase = .served) (hd : s.power.done = false) (hs : s.pair.st ≠ .pairing) (ha : autoEnded s = true)
  (hq : s.coh.qmoves = []) (hw : s.coh.sweeping = [])
include hp hd hs ha hq hw

theorem execStartupDone_eq : let t := setForcedHw false { s with power := { s.power with done := true } }
    execStartupDone s = .next (if Config.commitSvn && t.sec.minSvn.toNat < t.sec.fwSvn.toNat then
      restamp 2 { t with sec := { t.sec with minSvn := t.sec.fwSvn } } else t) := by
  intro t
  refine congrArg _ ((if_pos (by simp [hp, hd, hs, ha])).trans ?_)
  dsimp only
  rw [hq, hw]
  rfl

end

/-! ### Sensing -/

section
variable {s : State} (ha : alive s = true)
include ha

theorem execRailAlert_unread (hr : s.power.pmRead = none) :
    execRailAlert none s = .next (let t := emit .pmRead s; { t with power := { t.power with pmRead := some (after 20000 s) } }) ∧
      ∀ r : RailRead, execRailAlert (some r) s =
        .next (trace 0x07 uObserve (r.railOk.toNat + 256 * r.alert.toNat + 65536 * r.code.toNat) 0 (railsRead r (emit .pmRead s))) := by
  have hm : pmReadMissed s = s := by rw [pmReadMissed, hr]
  refine ⟨?_, fun r => ?_⟩
  · unfold execRailAlert
    rw [if_neg (by simp [ha]), hm]
    dsimp only
    rw [hr]
    rfl
  · unfold execRailAlert
    rw [if_neg (by simp [ha]), hm]
    dsimp only
    rw [hr]
    rfl

theorem execPmReadTimeout_due {d : Nat} (hr : s.power.pmRead = some d) (hd : d ≤ s.ticks) : execPmReadTimeout s =
    .next (raise 2936 .uc s.pace.vcoreMv.toNat { s with power := { s.power with pmRead := none } }) := by
  refine congrArg _ ((if_pos ha).trans ?_)
  rw [pmReadMissed, hr]
  exact if_pos (by simp [due, hd])

theorem execVcoreOutOfRange_alive (mv : W16) :
    execVcoreOutOfRange mv s = .next (raiseLevel 2935 .uc (decide (mv.toNat < 700 ∨ 800 < mv.toNat)) mv.toNat s) := by
  refine congrArg _ ((if_neg (by simp [ha])).trans ?_)
  rw [Bool.decide_or]

theorem execThermalReading_first {tj : Int} (hr : s.power.readings = []) (ht : s.ticks ≤ s.power.lastReading + 1000) :
    let d : Byte := BitVec.ofNat 8 (min 255 tj.toNat)
    execThermalReading tj s = .next (raiseLevel 2934 .uc (decide (tj < 0 ∨ 105 < tj)) d.toNat (raiseLevel 2934 .ce (decide (95 ≤ tj)) d.toNat
      { s with power := { s.power with readings := [(s.ticks, tj)], lastReading := s.ticks, thermalLost := false }
               pace := { s.pace with tjC := d } })) := by
  have hm : thermalMissed s = s := if_neg (by simp [due]; omega)
  have hh : hottest [(s.ticks, tj)] tj = tj := Int.max_self tj
  intro d
  unfold execThermalReading
  rw [if_neg (by simp [ha]), hm]
  dsimp only
  rw [hr, List.filter_nil, List.nil_append, hh, Bool.decide_or]
  rfl

theorem execThermalTimeout_due (hl : s.power.thermalLost = false) (hd : s.power.lastReading + 1001 ≤ s.ticks) : execThermalTimeout s =
    .next (raise 2938 .uc s.pace.tjC.toNat { s with power := { s.power with thermalLost := true } }) :=
  congrArg _ ((if_pos ha).trans (if_pos (by simp [hl, due]; omega)))

end

/-! ### The test controller -/

section
variable {s : State}

theorem execJtagInstruction_pinless {i : JtagInstr} (h : i = .bypass ∨ i = .idcode ∨ i = .sample) :
    execJtagInstruction i s = .next { s with power := { s.power with jtag := i } } := by
  rcases h with rfl | rfl | rfl <;> rfl

theorem execJtagInstruction_other (c : Nat) : execJtagInstruction (.other c) s = .next { s with power := { s.power with
    jtag := if s.sec.lifecycle = .deployed || s.sec.lifecycle = .retired then .bypass else .other c } } := by
  unfold execJtagInstruction
  dsimp only
  split <;> rfl

/-- The part once an instruction has taken the pins, but for the viaduct. -/
def pinsTaken (i : JtagInstr) (s : State) : State :=
  let a := raise 2939 .uc 0 { s with power := { s.power with jtag := i } }
  foldS (List.range 6) fencePort (if a.host.phyUp then linkFalls 5 a else a)

theorem execJtagInstruction_takes {i : JtagInstr} (ht : takesPins i = true) (hr : s.power.modRstN = true) :
    execJtagInstruction i s = .next (if (pinsTaken i s).viaduct.up || (pinsTaken i s).viaduct.step ≠ 0 then linkDown (pinsTaken i s)
      else pinsTaken i s) := by
  cases i
  case bypass | idcode | sample | other => exact absurd ht Bool.false_ne_true
  all_goals
    simp only [execJtagInstruction, pinsTaken, takesPins, hr, Bool.not_true, Bool.or_self, Bool.false_eq_true, if_false]

theorem execJtagInstruction_pins {i : JtagInstr} (h : i = .extest ∨ i = .clamp ∨ i = .highz ∨ i = .extestPulse ∨ i = .extestTrain)
    (hr : s.power.modRstN = true) : execJtagInstruction i s =
      .next (if (pinsTaken i s).viaduct.up = true ∨ (pinsTaken i s).viaduct.step ≠ 0 then linkDown (pinsTaken i s) else pinsTaken i s) := by
  have ht : takesPins i = true := by
    rcases h with rfl | rfl | rfl | rfl | rfl <;> rfl
  rw [execJtagInstruction_takes ht hr]
  simp only [Bool.or_eq_true, decide_eq_true_eq]

end

/-- Settles O52. -/
theorem powerStartUpAndSensing : Obligations.PowerStartUpAndSensing := by
  refine ⟨fun s => ⟨powerOn s, rfl, rfl, rfl, rfl, rfl, rfl, rfl, rfl, rfl, rfl, rfl, rfl, rfl, rfl, rfl, rfl, rfl, rfl, rfl, rfl, rfl, rfl, rfl, rfl, rfl⟩,
    fun s h => congrArg _ (if_pos h), fun s h => congrArg _ (if_neg (by simp [h])), fun ok rails failed late s hp hd => ?_,
    fun s hp hd => execStartStepTimeout_due hp hd, fun s hp hdone hs ha hq hw => ?_, fun s ha => ?_,
    fun s => ⟨fun i hi => execJtagInstruction_pinless hi, fun c hc => ?_, fun c hc => ?_, fun i hi hr => ?_⟩⟩
  · refine ⟨execStartStepEnd_rails hp hd, fun h => ⟨fun hok hv => ?_, fun hno => ?_⟩, fun h hl => ?_, execStartStepEnd_memory hp hd,
      fun h hc hf => ?_, execStartStepEnd_last hp hd⟩
    · exact (execStartStepEnd_manifest hp hd h).trans (congrArg _ (if_pos (by simp [hok, hv])))
    · refine (execStartStepEnd_manifest hp hd h).trans (congrArg _ (if_neg ?_))
      rcases hno with hno | hno
      · simp [hno]
      · simp [Nat.not_le.2 hno]
    · rw [hl]
      exact execStartStepEnd_boot hp hd h
    · rw [hf]
      exact execStartStepEnd_stacks hp hd h hc
  · have e := execStartupDone_eq hp hdone hs ha hq hw
    refine ⟨fun h => e.trans (congrArg _ (if_neg ?_)), fun hc h => e.trans (congrArg _ (if_pos (by simp [hc, h])))⟩
    rcases h with h | h
    · simp [h]
    · simp [Nat.not_lt.2 h]
  · exact ⟨execRailAlert_unread ha, fun d => execPmReadTimeout_due ha, execVcoreOutOfRange_alive ha,
      fun tj => execThermalReading_first ha, execThermalTimeout_due ha⟩
  · refine (execJtagInstruction_other c).trans ?_
    rcases hc with h | h <;> simp [h]
  · refine (execJtagInstruction_other c).trans ?_
    rcases hc with h | h <;> simp [h]
  · intro a b
    have hb : b = pinsTaken i s := rfl
    clear_value b
    rw [hb]
    exact execJtagInstruction_pins hi hr

end Sys2Proof.Machine
end

section
/-!
PROOFS of O53: the field network node.
-/
namespace Sys2Proof.Machine

/-! ### NMT and the heartbeat -/

section
variable {s : State} (hc : canUp s = true)
include hc

theorem nmtGo_up (st : Nmt) : nmtGo st s = emcySend { s with milell := { s.milell with nmt := st } } := if_pos hc

theorem execNmtResetNode_up : execNmtResetNode s = .next (if s.faults.safe then count 2699 s else chipReset 5 s) :=
  congrArg _ (if_neg (by simp [hc]))

theorem execNmtResetCommunication_up : execNmtResetCommunication s = .next (emcySend (bootUp { s with milell := { s.milell with
    nodeInForce := s.milell.nodeId, inhibit := 100, heartbeatMs := 1000, usdo := [], segs := [] } })) :=
  congrArg _ (if_neg (by simp [hc]))

end

theorem execCanHeartbeat_due {s : State} (hn : onNetwork s = true) (hb : s.milell.heartbeatMs ≠ 0) (hd : s.milell.nextHeartbeat ≤ s.ticks) :
    execCanHeartbeat s = .next (emit (.can (0x700 + s.milell.nodeInForce.toNat) [nmtCode s.milell.nmt])
      { s with milell := { s.milell with nextHeartbeat := heartbeatAfter s } }) :=
  congrArg _ (if_pos (by simpa [hn, due, hd] using hb))

/-! ### LSS -/

theorem nodeIdOk_iff {id : Byte} : nodeIdOk id.toNat = true ↔ (1 ≤ id.toNat ∧ id.toNat ≤ 127) ∨ id = 0xFF := by
  have h255 : id.toNat = 255 ↔ id = 0xFF := ⟨fun h => BitVec.eq_of_toNat_eq h, fun h => by rw [h]; rfl⟩
  simp [nodeIdOk, h255]

section
variable {s : State} {id : Byte} (hc : canUp s = true)
include hc

theorem execLssConfigureNodeId_refused (h : s.faults.safe = true ∨ nodeIdOk id.toNat = false) :
    execLssConfigureNodeId id s = .next (emit (.can 0x7E4 [0x11, 1, 0, 0, 0, 0, 0, 0]) s) := by
  refine congrArg _ ((if_neg (by simp [hc])).trans (if_pos ?_))
  rcases h with h | h <;> simp [h]

section
variable (hs : s.faults.safe = false) (hid : nodeIdOk id.toNat = true)
include hs hid

theorem execLssConfigureNodeId_taken : let t := emit (.can 0x7E4 [0x11, 0, 0, 0, 0, 0, 0, 0]) { s with milell := { s.milell with nodeId := id } }
    execLssConfigureNodeId id s = .next (if s.milell.nodeInForce = 0xFF && id ≠ 0xFF then
      bootUp { t with milell := { t.milell with nodeInForce := id } } else t) :=
  congrArg _ ((if_neg (by simp [hc])).trans (if_neg (by simp [hs, hid])))

end

omit hc in
theorem bootUp_onNetwork {s : State} (hn : onNetwork s = true) :
    bootUp s = emit (.can (0x700 + s.milell.nodeInForce.toNat) [0])
      { s with milell := { s.milell with nmt := .preOperational, nextHeartbeat := heartbeatAfter s } } := if_pos hn

theorem execLssStoreConfiguration_up : execLssStoreConfiguration s = .next (
    if s.faults.safe then emit (.can 0x7E4 [0x17, 1, 0, 0, 0, 0, 0, 0]) s
    else emit (.can 0x7E4 [0x17, 0, 0, 0, 0, 0, 0, 0])
      { s with power := { s.power with retained := { s.power.retained with nodeId := s.milell.nodeId } } }) :=
  congrArg _ (if_neg (by simp [hc]))

theorem execUsdoTimeout_due {client : Fin 128} {x : Segmented} (hx : segOf client.val s = some x) (hd : x.deadline ≤ s.ticks) :
    execUsdoTimeout client s = .next (segLost client.val s) := by
  unfold execUsdoTimeout
  rw [hx]
  exact congrArg _ (if_pos (by simp [hc, due, hd]))

end

/-! ### USDO -/

section
variable {s : State} {client : Nat} {dest : Byte} {kind : UsdoKind} {go : State → State} (hu : usdoServed s = true)
include hu

theorem usdoInitiate_broadcast (hd : dest = 0) : usdoInitiate client dest kind go s = count 2697 s :=
  (if_neg (by simp [hu])).trans (if_pos hd)

theorem usdoInitiate_elsewhere (h0 : dest ≠ 0) (hd : dest ≠ s.milell.nodeInForce) : usdoInitiate client dest kind go s = s :=
  (if_neg (by simp [hu])).trans ((if_neg h0).trans (if_pos hd))

/-- An initiate to this node of a client without an open transfer. -/
theorem usdoInitiate_here (h0 : dest ≠ 0) (hd : dest = s.milell.nodeInForce) (hx : ∀ x ∈ s.milell.segs, x.client ≠ client) :
    usdoInitiate client dest kind go s = if kind = .other then usdoAbort client 0x05040001 (count 2692 s) else go s := by
  have hseg : segOf client s = none := by simpa [segOf] using hx
  unfold usdoInitiate
  rw [if_neg (by simp [hu]), if_neg h0, if_neg (by simp [hd]), hseg]

end

section
variable {s : State} {client : Fin 128} {b : List Byte} {last : Bool} {x : Segmented} (hu : usdoServed s = true)
  (hx : segOf client.val s = some x) (hd : s.ticks < x.deadline)
include hu hx hd

/-- A segment in time of an open transfer. -/
theorem execUsdoSegment_inTime : let t := ringDoorbell 1 0 (segDrop client.val s)
    execUsdoSegment client b last s = .next (if x.upload then
        let s2 := usdoSend client.val (.segment (x.bytes.take 56) (x.bytes.drop 56).isEmpty) t
        if (x.bytes.drop 56).isEmpty then s2 else segOpen { x with bytes := x.bytes.drop 56, deadline := segDeadline s } s2
      else if last then usdoQueue ⟨client.val, x.index, x.sub, some (x.bytes ++ b), true⟩ t
      else usdoSend client.val .segmentAck (segOpen { x with bytes := x.bytes ++ b, deadline := segDeadline s } t)) := by
  unfold execUsdoSegment
  rw [if_pos hu, hx]
  exact congrArg _ (if_neg (by simp [due, hd]))

theorem execUsdoSegment_upload_last (h : x.upload = true) (hl : x.bytes.length ≤ 56) :
    execUsdoSegment client b last s = .next (usdoSend client.val (.segment x.bytes true) (ringDoorbell 1 0 (segDrop client.val s))) := by
  refine (execUsdoSegment_inTime hu hx hd).trans (congrArg _ ((if_pos h).trans ?_))
  rw [List.drop_eq_nil_of_le hl, List.take_of_length_le hl]
  rfl

theorem execUsdoSegment_upload_more (h : x.upload = true) (hl : 56 < x.bytes.length) : execUsdoSegment client b last s =
    .next (segOpen { x with bytes := x.bytes.drop 56, deadline := after 100000000 s }
      (usdoSend client.val (.segment (x.bytes.take 56) false) (ringDoorbell 1 0 (segDrop client.val s)))) := by
  have hne : (x.bytes.drop 56).isEmpty = false := by
    simp only [List.isEmpty_eq_false_iff, ne_eq, List.drop_eq_nil_iff]
    omega
  refine (execUsdoSegment_inTime hu hx hd).trans (congrArg _ ((if_pos h).trans ?_))
  dsimp only
  rw [hne]
  rfl

theorem execUsdoSegment_download (h : x.upload = false) :
    execUsdoSegment client b last s = .next (if last then
        usdoQueue ⟨client.val, x.index, x.sub, some (x.bytes ++ b), true⟩ (ringDoorbell 1 0 (segDrop client.val s))
      else usdoSend client.val .segmentAck
        (segOpen { x with bytes := x.bytes ++ b, deadline := after 100000000 s } (ringDoorbell 1 0 (segDrop client.val s)))) :=
  (execUsdoSegment_inTime hu hx hd).trans (congrArg _ (if_neg (by simp [h])))

end

/-- Settles O53. -/
theorem fieldNetworkNode : Obligations.FieldNetworkNode := by
  refine ⟨fun s hc => ⟨?_, ?_, ?_, execNmtResetNode_up hc, execNmtResetCommunication_up hc⟩, fun s hn hb hd => ?_,
    fun s hc => ⟨fun id => ⟨fun h => ?_, fun hs hid => ⟨fun h => ?_, fun hn hne => ?_⟩⟩, execLssStoreConfiguration_up hc,
      congrArg _ (if_pos hc), congrArg _ (if_pos hc), fun client x hx hd => execUsdoTimeout_due hc hx hd⟩,
    fun s client dest index sub kind v hu => ⟨fun hd => ⟨?_, ?_⟩, fun h0 hd => ⟨?_, ?_⟩,
      fun h0 hd hx => ⟨fun hk => ⟨?_, ?_⟩, fun hk => ?_, fun hk => ?_, fun hk => ?_⟩⟩,
    fun s client b last x hu hx hd => ⟨execUsdoSegment_upload_last hu hx hd, execUsdoSegment_upload_more hu hx hd,
      execUsdoSegment_download hu hx hd, execUsdoSegment_download hu hx hd⟩⟩
  · exact congrArg _ (nmtGo_up hc _)
  · exact congrArg _ (nmtGo_up hc _)
  · exact congrArg _ (nmtGo_up hc _)
  · refine (execCanHeartbeat_due hn hb hd).trans ?_
    cases s.milell.nmt <;> rfl
  · refine execLssConfigureNodeId_refused hc (h.imp_right fun hno => ?_)
    rw [Bool.eq_false_iff]
    exact fun hok => hno (nodeIdOk_iff.1 hok)
  · refine (execLssConfigureNodeId_taken hc hs (nodeIdOk_iff.2 hid)).trans (congrArg _ (if_neg ?_))
    rintro hb
    obtain ⟨hff, hne⟩ := Bool.and_eq_true_iff.1 hb
    exact h.elim (fun h => h (of_decide_eq_true hff)) (fun h => of_decide_eq_true hne h)
  · let t := emit (.can 0x7E4 [0x11, 0, 0, 0, 0, 0, 0, 0]) { s with milell := { s.milell with nodeId := id } }
    have hnet : onNetwork { t with milell := { t.milell with nodeInForce := id } } = true := by
      have hup : canUp { t with milell := { t.milell with nodeInForce := id } } = true := hc
      rw [onNetwork, hup]
      simpa using hne
    refine ⟨_, (execLssConfigureNodeId_taken hc hs (nodeIdOk_iff.2 hid)).trans (congrArg _ ((if_pos ?_).trans (bootUp_onNetwork hnet))),
      rfl, rfl, rfl⟩
    rw [decide_eq_true hn, decide_eq_true hne]
    rfl
  · exact congrArg _ (usdoInitiate_broadcast hu hd)
  · exact congrArg _ (usdoInitiate_broadcast hu hd)
  · exact congrArg _ (usdoInitiate_elsewhere hu h0 hd)
  · exact congrArg _ (usdoInitiate_elsewhere hu h0 hd)
  · exact congrArg _ ((usdoInitiate_here hu h0 hd hx).trans (if_pos hk))
  · exact congrArg _ ((usdoInitiate_here hu h0 hd hx).trans (if_pos hk))
  · exact congrArg _ ((usdoInitiate_here hu h0 hd hx).trans (if_neg hk))
  · subst hk
    exact congrArg _ (usdoInitiate_here hu h0 hd hx)
  · subst hk
    exact congrArg _ (usdoInitiate_here hu h0 hd hx)

end Sys2Proof.Machine
end
